-- ==== Sys2Proof/Word.lean ====
section
/-! DEFINITION. The word types of the machine (R1, R2): bytes, halves, words, dwords, vector registers, blocks. -/

namespace Sys2Proof

abbrev Byte := BitVec 8
abbrev Half := BitVec 16
abbrev Word := BitVec 32
abbrev Dword := BitVec 64
/-- A vector register: 256 bytes (R22). -/
abbrev VReg := BitVec 2048
/-- The 64 bytes of a block as one little-endian value (R77). -/
abbrev Block := BitVec 512
/-- The sideband header of a block (R72). -/
abbrev Header := BitVec 32

end Sys2Proof
end

