-- ==== Sys2Proof/Machine/Bits.lean ====
section
/-! DEFINITION. Bit-field, extension and byte-order helpers (R1, R6, R27). -/

namespace Sys2Proof.Machine

/-- `x` sign-extended to 64 bits (R6). -/
def sext {w : Nat} (x : BitVec w) : Dword := x.signExtend 64

/-- `x` zero-extended to 64 bits (R6). -/
def zext {w : Nat} (x : BitVec w) : Dword := x.setWidth 64

/-- Bits [hi:lo] of a number. -/
def nbits (x hi lo : Nat) : Nat := (x >>> lo) % 2 ^ (hi + 1 - lo)

/-- Bits [hi:lo] of a bit vector, as a number. -/
def field {w : Nat} (x : BitVec w) (hi lo : Nat) : Nat := nbits x.toNat hi lo

/-- Bit n of a bit vector. -/
def bit {w : Nat} (x : BitVec w) (n : Nat) : Bool := x.getLsbD n

/-- A Bool as a number. -/
def b2n (b : Bool) : Nat := if b then 1 else 0

/-- A Bool as the dword 1 or 0. -/
def b2d (b : Bool) : Dword := if b then 1#64 else 0#64

/-- The negative result code −n, sign-extended (R38). -/
def negCode (n : Nat) : Dword := 0#64 - BitVec.ofNat 64 n

/-- Join bytes, the first of the list the least significant (R1). -/
def leNat : List Byte → Nat
  | [] => 0
  | b :: bs => b.toNat + 256 * leNat bs

/-- The n low bytes of a number, least significant first (R1). -/
def leBytes : Nat → Nat → List Byte
  | 0, _ => []
  | n + 1, x => BitVec.ofNat 8 x :: leBytes n (x / 256)

/-- A number rounded up to a multiple of k. -/
def roundUp (x k : Nat) : Nat := (x + k - 1) / k * k

/-- Is `x` a multiple of `n` (R2)? -/
def aligned (x n : Nat) : Bool := x % n == 0

/-- Replace bits [8k+7:8k] of a wide value. -/
def setByte {w : Nat} (x : BitVec w) (k : Nat) (b : Byte) : BitVec w :=
  (x &&& ~~~(BitVec.ofNat w (0xFF <<< (8 * k)))) ||| BitVec.ofNat w (b.toNat <<< (8 * k))

/-- 32-bit lane i of a vector register (R22). -/
def lane (v : VReg) (i : Nat) : Word := v.extractLsb' (32 * i) 32

/-- 64-bit lane i of a vector register in the .D forms (R22). -/
def laneD (v : VReg) (i : Nat) : Dword := v.extractLsb' (64 * i) 64

/-- The vector register with the given 32-bit lanes, lane 0 first (R22). -/
def vregOfLanes (l : List Word) : VReg :=
  BitVec.ofNat 2048 (l.foldr (fun x acc => x.toNat + 2 ^ 32 * acc) 0)

/-- The vector register with the given 64-bit lanes (R22). -/
def vregOfLanesD (l : List Dword) : VReg :=
  BitVec.ofNat 2048 (l.foldr (fun x acc => x.toNat + 2 ^ 64 * acc) 0)

/-- A vector register lane by lane: lane i is `f i`. -/
def buildLanes (f : Nat → Word) : VReg := vregOfLanes ((List.range 64).map f)

/-- A vector register of 64-bit lanes, lane by lane. -/
def buildLanesD (f : Nat → Dword) : VReg := vregOfLanesD ((List.range 32).map f)

/-- A mask register bit by bit. -/
def buildMask (f : Nat → Bool) : Dword :=
  BitVec.ofNat 64 ((List.range 64).foldr (fun i acc => b2n (f i) + 2 * acc) 0)

/-- The number of ones of a value. -/
def popcount (x : Dword) : Nat := ((List.range 64).filter (fun i => x.getLsbD i)).length

/-- First element of a list with index i replaced. -/
def setAt {α : Type} : List α → Nat → α → List α
  | [], _, _ => []
  | _ :: l, 0, y => y :: l
  | x :: l, i + 1, y => x :: setAt l i y

/-- Element i of a list altered by f. -/
def modifyAt {α : Type} : List α → Nat → (α → α) → List α
  | [], _, _ => []
  | x :: l, 0, f => f x :: l
  | x :: l, i + 1, f => x :: modifyAt l i f

end Sys2Proof.Machine
end

