-- ==== Sys2Proof/Machine/Sparse.lean ====
section
/-! DEFINITION. Stores held as lists of key and value in one canonical form: keys strictly rising, and no entry equal to
what an unlisted key reads as. -/

namespace Sys2Proof.Machine

/-- Read a key; an unlisted key reads as the default. -/
def sget {α : Type} (dflt : α) : List (Nat × α) → Nat → α
  | [], _ => dflt
  | (k, v) :: l, a => if a = k then v else if a < k then dflt else sget dflt l a

/-- Add an entry unless it equals the default. -/
def scons {α : Type} [DecidableEq α] (dflt : α) (a : Nat) (x : α) (l : List (Nat × α)) : List (Nat × α) :=
  if x = dflt then l else (a, x) :: l

/-- Write a key, keeping the canonical form. -/
def sset {α : Type} [DecidableEq α] (dflt : α) : List (Nat × α) → Nat → α → List (Nat × α)
  | [], a, x => scons dflt a x []
  | (k, v) :: l, a, x =>
    if a < k then scons dflt a x ((k, v) :: l)
    else if a = k then scons dflt a x (l.dropWhile (fun p => decide (p.1 ≤ a)))
    else (k, v) :: sset dflt l a x

/-- The canonical form: keys above `lo` and strictly rising, no entry equal to the default. -/
def swfFrom {α : Type} [DecidableEq α] (dflt : α) : Nat → List (Nat × α) → Bool
  | _, [] => true
  | lo, (k, v) :: l => decide (lo ≤ k) && decide (v ≠ dflt) && swfFrom dflt (k + 1) l

/-- The canonical form of a whole store. -/
def swf {α : Type} [DecidableEq α] (dflt : α) (l : List (Nat × α)) : Bool := swfFrom dflt 0 l

/-- Memory by bytes. -/
abbrev Memory := List Host.Cell

/-- What a byte reads as that nothing has written: 0 (log 5, log 7; R70, R170, R269). -/
def unwritten : Byte := 0#8

/-- The canonical form of a memory. -/
def Memory.wf (m : Memory) : Bool := swf unwritten m

/-- One byte of a memory. -/
def readByte (m : Memory) (a : Nat) : Byte := sget unwritten m a

/-- Write one byte. -/
def writeByte (m : Memory) (a : Nat) (b : Byte) : Memory := sset unwritten m a b

/-- `n` bytes from `a` upwards, the byte at `a` first. -/
def readBytes (m : Memory) : Nat → Nat → List Byte
  | _, 0 => []
  | a, n + 1 => readByte m a :: readBytes m (a + 1) n

/-- Write bytes from `a` upwards. -/
def writeBytes (m : Memory) : Nat → List Byte → Memory
  | _, [] => m
  | a, b :: bs => writeBytes (writeByte m a b) (a + 1) bs

/-- The little-endian value of `n` bytes at `a` (R1). -/
def readLE (m : Memory) (a n : Nat) : Nat := leNat (readBytes m a n)

/-- Store the `n` low bytes of a value at `a`, little-endian (R1). -/
def writeLE (m : Memory) (a n : Nat) (x : Nat) : Memory := writeBytes m a (leBytes n x)

/-- Write `n` bytes with one value. -/
def fillBytes (m : Memory) : Nat → Nat → Byte → Memory
  | _, 0, _ => m
  | a, n + 1, b => fillBytes (writeByte m a b) (a + 1) n b

/-- Drop every entry with a key in [lo, hi): the range reads as the default again. -/
def sclear {α : Type} (l : List (Nat × α)) (lo hi : Nat) : List (Nat × α) :=
  l.filter (fun p => decide (p.1 < lo ∨ hi ≤ p.1))

end Sys2Proof.Machine
end

