-- ==== Sys2Proof/Syntax.lean ====
section
/-! DEFINITION. What the steps of the part carry (addresses, packets, flits, commands) and the instructions of the part:
one constructor of Instr per row of the opcode table. -/

namespace Sys2Proof

/-- The two ends of a packet (R308, R309): a core, a translation station, the hub, a core of a foreign device, or a site
beyond the part. -/
inductive Node where
  | core (n : Nat)
  | station (n : Nat)
  | hub
  | foreign (dev core : Nat)
deriving DecidableEq, Repr

/-- The virtual channels of R308. -/
inductive Vc where
  | req | rsp | hub
deriving DecidableEq, Repr

/-- The operation of an aggregated element (R188). -/
inductive ElemOp where
  | store | redAdd | redMin | redMax | redOr | redFadd | redBadd
deriving DecidableEq, Repr

/-- The operation of a returning atomic (R197). -/
inductive AmoOp where
  | add | min | max | minu | maxu | and | or | xor | swp | cas
deriving DecidableEq, Repr

/-- An element of an aggregation buffer or a packet (R188). `marks` holds the issuing slots, each with the tag of the
latest activation of that slot whose access the element holds. -/
structure Element where
  addr : Dword
  op : ElemOp
  width : Nat
  value : Dword
  marks : List (Nat × Nat)
  mult : Nat
  cdc : Nat
  entered : Nat
deriving DecidableEq, Repr

/-- What a block write does to the header of its block (R76). -/
inductive HdrEffect where
  | keep
  | raw
  | set (h : Header)
deriving DecidableEq, Repr

/-- Whose block write it is: a VST part, a VENC block, an engine's write (R71, R126). -/
inductive Writer where
  | vst | venc | engine
deriving DecidableEq, Repr

/-- What a reply or an acknowledgement belongs to at the core that issued the request (TAG of R309). -/
inductive Tag where
  /-- elements of a retained packet: its identity and the places of the elements in it -/
  | retained (uid : Nat) (idx : List Nat)
  /-- part `part` of an outstanding request -/
  | request (uid part : Nat)
  /-- a transfer of an engine command -/
  | engine (ticket unit : Nat)
  | none
deriving DecidableEq, Repr

/-- A message of a directory move (R248). -/
inductive MoveMsg where
  | openMove (key kmask rch len offset srcRank sent dent : Nat)
  | openReply (e : Nat)
  | commit (m dent : Nat)
  | forwardedClose (slot dent : Nat)
  | abort (dent : Nat)
deriving DecidableEq, Repr

/-- A message of the escapement or repeater tree (R245, R271 to R274). -/
inductive TreeMsg where
  | solicit (slot op key kmask arg : Nat)
  | close (slot : Nat)
  | closeAck (slot : Nat)
  | offer (bar ch : Nat)
  | arrival (bar rank : Nat) (drop : Bool)
  | completion (bar phase phases : Nat)
  | freeUp (bar : Nat)
  | freeDown (bar : Nat)
deriving DecidableEq, Repr

/-- A message of the hub channel (R266, R290). -/
inductive HubMsg where
  | notice (ch : Nat) (payload : Dword)
  | preempt (saveva : Dword)
  | exit (rank : Nat)
  | cancel (level : Nat)
deriving DecidableEq, Repr

/-- What became of an element at its destination: applied, with the bytes it credits, its 64 KiB page and that page's scope; or answered
with a cause, a NOPARK and an address (R195, R205). -/
inductive ElemResult where
  | applied (bytes page scope : Nat)
  | naked (cause : Nat) (noPark : Bool) (va : Dword)
deriving DecidableEq, Repr

/-- A vector access's share of one 64-byte block: physical address, virtual address, length, and the bytes to write (R156). -/
structure BlockPart where
  pa : Nat
  va : Dword
  len : Nat
  bytes : List Byte
deriving DecidableEq, Repr

/-- What a packet carries, by its kind (R309). -/
inductive Body where
  | elements (es : List Element) (cdc : Nat)
  /-- such a packet at its destination, of which the first elements have had their instant: those still to come, and what became of the
  others (R193, R346) -/
  | applying (es : List Element) (cdc : Nat) (done : List ElemResult)
  /-- a block write at its core, its bytes in place, of which the credit of its channel is still to come (R195, R348) -/
  | crediting (bytes ch : Nat)
  /-- a vector access at its station, translated: its 64-byte blocks still to be read or written, what it has read, the pages and scopes of
  its translations, and the first block it met in error (R63, R71, R156) -/
  | partway (write : Bool) (todo : List BlockPart) (data : List Byte) (scopes : List (Nat × Nat)) (bad : Option Dword)
  | load (addr : Dword) (len : Nat) (engine : Bool)
  | heldLoad (addr : Dword) (len : Nat)
  | heldWrite (addr : Dword) (bytes : List Byte)
  | held
  | release (apply : Bool)
  | amo (addr : Dword) (width : Nat) (op : AmoOp) (b c : Dword)
  | hdrRead (addr : Dword)
  | hdrWrite (addr : Dword) (h : Header)
  | block (addr : Dword) (bytes : List Byte) (eff : HdrEffect) (writer : Writer) (ch : Option Nat)
  | send (addr : Dword) (count : Bool) (value : Dword)
  | ack (scopes : List (Nat × Nat))
  | nak (cause : Nat) (noPark : Bool) (va : Dword)
  | reply (data : List Byte) (h : Header)
  | repair (asid page : Nat)
  | move (m : MoveMsg)
  | tree (gang : Nat) (m : TreeMsg)
  | hub (gang : Nat) (m : HubMsg)
  /-- a packet of a KIND, CLASS or DTYPE that the device never sends (R309) -/
  | reserved (kind cls dtype : Nat)
deriving DecidableEq, Repr

/-- A page of an ASID, by its first 64 KiB and the level of its leaf (R59). -/
structure PageRef where
  page : Nat
  level : Nat
deriving DecidableEq, Repr

/-- A packet in flight (R308, R309). `due`: the cycle of the core that sent it before which it arrives nowhere, for a crossing of the
mesh takes a cycle at least (R18). -/
structure Packet where
  src : Node
  dst : Node
  vc : Vc
  tenant : Nat
  asid : Nat
  gang : Nat
  slot : Nat
  tag : Tag
  body : Body
  due : Nat := 0
deriving DecidableEq, Repr

/-- A packet for a foreign device (R319). -/
structure FabPacket where
  route : Nat
  sdev : Nat
  ddev : Nat
  packet : Packet
deriving DecidableEq, Repr

/-- The header fields of a sealed flit (R322). -/
structure Flit where
  typ : Nat
  ks : Nat
  session : Nat
  len : Nat
  lseq : Nat
  ic : Nat
  payload : List Byte
  authentic : Bool
deriving DecidableEq, Repr

/-- A link of the part: a fabric port 0 to 36, or a session of the Prenor link (R317, R322, R325). -/
inductive Link where
  | port (n : Nat)
  | prenor (session : Nat)
deriving DecidableEq, Repr

/-- A firmware image with its signed manifest (R335): `function` 0 to 7 a hub core, 8 microcode, 9 boot; `formats` the hand-over record
formats it accepts, as TYPE, lowest and highest version, with TYPE 0 for FMTVER (R343); `content` the bytes of its code and data, and `sig`
the ECDSA P-384 signature over the digest of the image with its manifest. -/
structure FwImage where
  function : Nat
  version : Dword
  svn : Word
  formats : List (Nat × Nat × Nat)
  content : List Byte
  sig : BitVec 768
deriving DecidableEq, Repr

/-- The word of a register access on the mesh and its width in bytes (R331). -/
structure BusWord where
  width : Nat
  data : Dword
deriving DecidableEq, Repr

/-- A host command's session and its 16-byte header, byte 0 the least significant (R333). -/
structure CmdHdr where
  session : Nat
  header : BitVec 128
deriving DecidableEq, Repr

inductive Instr where
  /-- ADD: R128 Writes gd = ga + gb modulo 2^64. -/
  | add (d a b : BitVec 5)
  /-- SUB: R128 Writes gd = ga - gb modulo 2^64. -/
  | sub (d a b : BitVec 5)
  /-- AND: R128 Writes the bitwise AND of ga and gb to gd. -/
  | and (d a b : BitVec 5)
  /-- OR: R128 Writes the bitwise OR of ga and gb to gd. -/
  | or (d a b : BitVec 5)
  /-- XOR: R128 Writes the bitwise XOR of ga and gb to gd. -/
  | xor (d a b : BitVec 5)
  /-- ANDN: R128 Writes ga AND NOT gb to gd. -/
  | andn (d a b : BitVec 5)
  /-- SLL: R128 Shifts ga left by gb[5:0] into gd. -/
  | sll (d a b : BitVec 5)
  /-- SRL: R128 Shifts ga right with zero fill by gb[5:0] into gd. -/
  | srl (d a b : BitVec 5)
  /-- SRA: R128 Shifts ga right with sign fill by gb[5:0] into gd. -/
  | sra (d a b : BitVec 5)
  /-- SLT: R128 Writes 1 to gd if ga is less than gb as signed values, else 0. -/
  | slt (d a b : BitVec 5)
  /-- SLTU: R128 Writes 1 to gd if ga is less than gb as unsigned values, else 0. -/
  | sltu (d a b : BitVec 5)
  /-- MIN: R128 Writes the signed minimum of ga and gb to gd. -/
  | min (d a b : BitVec 5)
  /-- MAX: R128 Writes the signed maximum of ga and gb to gd. -/
  | max (d a b : BitVec 5)
  /-- MINU: R128 Writes the unsigned minimum of ga and gb to gd. -/
  | minu (d a b : BitVec 5)
  /-- MAXU: R128 Writes the unsigned maximum of ga and gb to gd. -/
  | maxu (d a b : BitVec 5)
  /-- SEL: R128 Writes ga to gd if the old gd is nonzero, else gb. -/
  | sel (d a b : BitVec 5)
  /-- CLZ: R128 Writes the count of leading zero bits of ga to gd. -/
  | clz (d a : BitVec 5)
  /-- CTZ: R128 Writes the count of trailing zero bits of ga to gd. -/
  | ctz (d a : BitVec 5)
  /-- POPC: R128 Writes the count of one bits of ga to gd. -/
  | popc (d a : BitVec 5)
  /-- BFX: R129 Extracts a bit field of ga, selected by gb, into gd, optionally sign-extended. -/
  | bfx (d a b : BitVec 5)
  /-- BFI: R129 Inserts the low bits of ga into a field of gd, selected by gb. -/
  | bfi (d a b : BitVec 5)
  /-- MUL: R130 Writes the low 64 bits of ga times gb to gd. -/
  | mul (d a b : BitVec 5)
  /-- MULH: R130 Writes the high 64 bits of the signed 128-bit product to gd. -/
  | mulh (d a b : BitVec 5)
  /-- MULHU: R130 Writes the high 64 bits of the unsigned product to gd. -/
  | mulhu (d a b : BitVec 5)
  /-- DIV: R130 Writes the signed quotient, truncated toward zero, to gd, without trapping. -/
  | div (d a b : BitVec 5)
  /-- DIVU: R130 Writes the unsigned quotient to gd, without trapping. -/
  | divu (d a b : BitVec 5)
  /-- REM: R130 Writes the signed remainder to gd. -/
  | rem (d a b : BitVec 5)
  /-- REMU: R130 Writes the unsigned remainder to gd. -/
  | remu (d a b : BitVec 5)
  /-- ADDI: R131 Writes ga plus the sign-extended immediate to gd. -/
  | addi (d a : BitVec 5) (i : BitVec 16)
  /-- ANDI: R131 Writes ga AND the sign-extended immediate to gd. -/
  | andi (d a : BitVec 5) (i : BitVec 16)
  /-- ORI: R131 Writes ga OR the zero-extended immediate to gd. -/
  | ori (d a : BitVec 5) (i : BitVec 16)
  /-- XORI: R131 Writes ga XOR the sign-extended immediate to gd. -/
  | xori (d a : BitVec 5) (i : BitVec 16)
  /-- SLTI: R131 Writes 1 to gd if ga is less than the immediate as signed values. -/
  | slti (d a : BitVec 5) (i : BitVec 16)
  /-- SLTIU: R131 Writes 1 to gd if ga is less than the sign-extended immediate compared unsigned. -/
  | sltiu (d a : BitVec 5) (i : BitVec 16)
  /-- SLLI: R131 Shifts ga left by an immediate amount into gd. -/
  | slli (d a : BitVec 5) (s : BitVec 6)
  /-- SRLI: R131 Shifts ga right with zero fill by an immediate amount into gd. -/
  | srli (d a : BitVec 5) (s : BitVec 6)
  /-- SRAI: R131 Shifts ga right with sign fill by an immediate amount into gd. -/
  | srai (d a : BitVec 5) (s : BitVec 6)
  /-- LIH: R132 Writes the sign-extended 21-bit immediate shifted left by 16 to gd. -/
  | lih (d : BitVec 5) (i : BitVec 21)
  /-- LIX: R132 Shifts gd left by 21 and ORs in the 21-bit immediate. -/
  | lix (d : BitVec 5) (i : BitVec 21)
  /-- ADDPC: R132 Writes pc plus the scaled sign-extended immediate to gd. -/
  | addpc (d : BitVec 5) (i : BitVec 21)
  /-- BEQ: R133 Branches if ga equals gb. -/
  | beq (a b : BitVec 5) (o : BitVec 16)
  /-- BNE: R133 Branches if ga differs from gb. -/
  | bne (a b : BitVec 5) (o : BitVec 16)
  /-- BLT: R133 Branches if ga is less than gb as signed values. -/
  | blt (a b : BitVec 5) (o : BitVec 16)
  /-- BGE: R133 Branches if ga is at least gb as signed values. -/
  | bge (a b : BitVec 5) (o : BitVec 16)
  /-- BLTU: R133 Branches if ga is less than gb as unsigned values. -/
  | bltu (a b : BitVec 5) (o : BitVec 16)
  /-- BGEU: R133 Branches if ga is at least gb as unsigned values. -/
  | bgeu (a b : BitVec 5) (o : BitVec 16)
  /-- JAL: R134 Jumps pc-relative and writes the return offset to gd. -/
  | jal (d : BitVec 5) (o : BitVec 21)
  /-- JALR: R134 Jumps to ga plus offset, trapping ALIGN if misaligned, and writes the return offset to gd. -/
  | jalr (d a : BitVec 5) (i : BitVec 16)
  /-- LDB: R135 Loads a sign-extended byte into gd, locally at retire or by a remote request. -/
  | ldb (d a : BitVec 5) (i : BitVec 16)
  /-- LDBU: R135 Loads a zero-extended byte into gd. -/
  | ldbu (d a : BitVec 5) (i : BitVec 16)
  /-- LDH: R135 Loads a sign-extended half into gd. -/
  | ldh (d a : BitVec 5) (i : BitVec 16)
  /-- LDHU: R135 Loads a zero-extended half into gd. -/
  | ldhu (d a : BitVec 5) (i : BitVec 16)
  /-- LDW: R135 Loads a sign-extended word into gd. -/
  | ldw (d a : BitVec 5) (i : BitVec 16)
  /-- LDWU: R135 Loads a zero-extended word into gd. -/
  | ldwu (d a : BitVec 5) (i : BitVec 16)
  /-- LDD: R135 Loads a dword into gd. -/
  | ldd (d a : BitVec 5) (i : BitVec 16)
  /-- STB: R135 Stores the low byte of gd, locally at retire or into an aggregation buffer. -/
  | stb (d a : BitVec 5) (i : BitVec 16)
  /-- STH: R135 Stores the low half of gd. -/
  | sth (d a : BitVec 5) (i : BitVec 16)
  /-- STW: R135 Stores the low word of gd. -/
  | stw (d a : BitVec 5) (i : BitVec 16)
  /-- STD: R135 Stores the dword in gd. -/
  | std (d a : BitVec 5) (i : BitVec 16)
  /-- AMOADD: R197 Atomically adds gb to the datum at ga and returns the old value in gd. -/
  | amoadd (d a b : BitVec 5) (w : BitVec 1)
  /-- AMOMIN: R197 Atomic signed minimum, returning the old value. -/
  | amomin (d a b : BitVec 5) (w : BitVec 1)
  /-- AMOMAX: R197 Atomic signed maximum, returning the old value. -/
  | amomax (d a b : BitVec 5) (w : BitVec 1)
  /-- AMOMINU: R197 Atomic unsigned minimum, returning the old value. -/
  | amominu (d a b : BitVec 5) (w : BitVec 1)
  /-- AMOMAXU: R197 Atomic unsigned maximum, returning the old value. -/
  | amomaxu (d a b : BitVec 5) (w : BitVec 1)
  /-- AMOAND: R197 Atomic AND, returning the old value. -/
  | amoand (d a b : BitVec 5) (w : BitVec 1)
  /-- AMOOR: R197 Atomic OR, returning the old value. -/
  | amoor (d a b : BitVec 5) (w : BitVec 1)
  /-- AMOXOR: R197 Atomic XOR, returning the old value. -/
  | amoxor (d a b : BitVec 5) (w : BitVec 1)
  /-- AMOSWP: R197 Atomic swap, returning the old value. -/
  | amoswp (d a b : BitVec 5) (w : BitVec 1)
  /-- AMOCAS: R197 Atomic compare-and-swap against gd, returning the old value. -/
  | amocas (d a b : BitVec 5) (w : BitVec 1)
  /-- RED_ADD: R197 Integer add reduction applied at the word's bank port, buffered when remote. -/
  | redAdd (a b : BitVec 5) (w : BitVec 1)
  /-- RED_MIN: R197 Signed minimum reduction. -/
  | redMin (a b : BitVec 5) (w : BitVec 1)
  /-- RED_MAX: R197 Signed maximum reduction. -/
  | redMax (a b : BitVec 5) (w : BitVec 1)
  /-- RED_OR: R197 OR reduction. -/
  | redOr (a b : BitVec 5) (w : BitVec 1)
  /-- RED_FADD: R96 FP32 add reduction, rounded RNE at each arrival, never merged. -/
  | redFadd (a b : BitVec 5)
  /-- RED_BADD: R96 Paired BF16 add reduction, rounded RNE per half at each arrival. -/
  | redBadd (a b : BitVec 5)
  /-- LDHDR: R139 Reads the 32-bit header of a 64-aligned block into gd. -/
  | ldhdr (d a : BitVec 5) (o : BitVec 15)
  /-- STHDR: R139 Writes gd[31:0] verbatim as a block header, flushing and leaving at once when remote. -/
  | sthdr (d a : BitVec 5) (o : BitVec 15)
  /-- VADD_F: R145 FP32 lane add under RMODE. -/
  | vaddF (d a b : BitVec 5) (m : BitVec 3)
  /-- VSUB_F: R145 FP32 lane subtract. -/
  | vsubF (d a b : BitVec 5) (m : BitVec 3)
  /-- VMUL_F: R145 FP32 lane multiply. -/
  | vmulF (d a b : BitVec 5) (m : BitVec 3)
  /-- VFMA_F: R145 FP32 lane fused multiply-add into vd. -/
  | vfmaF (d a b : BitVec 5) (m : BitVec 3)
  /-- VMIN_F: R145 FP32 lane minimum. -/
  | vminF (d a b : BitVec 5) (m : BitVec 3)
  /-- VMAX_F: R145 FP32 lane maximum. -/
  | vmaxF (d a b : BitVec 5) (m : BitVec 3)
  /-- VABS_F: R145 FP32 lane absolute value. -/
  | vabsF (d a : BitVec 5) (m : BitVec 3)
  /-- VNEG_F: R145 FP32 lane negation. -/
  | vnegF (d a : BitVec 5) (m : BitVec 3)
  /-- VRCP: R146 Correctly rounded FP32 reciprocal per lane. -/
  | vrcp (d a : BitVec 5) (m : BitVec 3)
  /-- VRSQ: R146 Correctly rounded FP32 reciprocal square root per lane. -/
  | vrsq (d a : BitVec 5) (m : BitVec 3)
  /-- VEXP2: R146 Correctly rounded FP32 power of two per lane. -/
  | vexp2 (d a : BitVec 5) (m : BitVec 3)
  /-- VLOG2: R146 Correctly rounded FP32 base-2 logarithm per lane. -/
  | vlog2 (d a : BitVec 5) (m : BitVec 3)
  /-- VADD_I: R147 32-bit integer lane add. -/
  | vaddI (d a b : BitVec 5) (m : BitVec 3)
  /-- VSUB_I: R147 32-bit integer lane subtract. -/
  | vsubI (d a b : BitVec 5) (m : BitVec 3)
  /-- VMUL_I: R147 32-bit integer lane multiply, low half. -/
  | vmulI (d a b : BitVec 5) (m : BitVec 3)
  /-- VAND: R147 Lane bitwise AND. -/
  | vand (d a b : BitVec 5) (m : BitVec 3)
  /-- VOR: R147 Lane bitwise OR. -/
  | vor (d a b : BitVec 5) (m : BitVec 3)
  /-- VXOR: R147 Lane bitwise XOR. -/
  | vxor (d a b : BitVec 5) (m : BitVec 3)
  /-- VSLL: R147 Lane shift left. -/
  | vsll (d a b : BitVec 5) (m : BitVec 3)
  /-- VSRL: R147 Lane shift right with zero fill. -/
  | vsrl (d a b : BitVec 5) (m : BitVec 3)
  /-- VSRA: R147 Lane shift right with sign fill. -/
  | vsra (d a b : BitVec 5) (m : BitVec 3)
  /-- VMIN_I: R147 Signed integer lane minimum. -/
  | vminI (d a b : BitVec 5) (m : BitVec 3)
  /-- VMAX_I: R147 Signed integer lane maximum. -/
  | vmaxI (d a b : BitVec 5) (m : BitVec 3)
  /-- VBCAST: R148 Broadcasts ga[31:0] to the active lanes of vd. -/
  | vbcast (d a : BitVec 5) (m : BitVec 3)
  /-- VEXT: R148 Extracts the lane of va selected by gb into gd. -/
  | vext (d a b : BitVec 5)
  /-- VREDSUM_F: R149 Pairwise-tree FP32 sum of the active lanes into gd. -/
  | vredsumF (d a : BitVec 5) (m : BitVec 3)
  /-- VREDMAX_F: R149 Largest active FP32 lane into gd. -/
  | vredmaxF (d a : BitVec 5) (m : BitVec 3)
  /-- VPERM: R148 Permutes lanes of va by the indices in vb. -/
  | vperm (d a b : BitVec 5) (m : BitVec 3)
  /-- VIOTA: R148 Writes every lane with the count of set mask bits below it. -/
  | viota (d : BitVec 5) (m : BitVec 3)
  /-- VSCAL: R148 Multiplies active lanes of va by the FP32 scalar in gb. -/
  | vscal (d a b : BitVec 5) (m : BitVec 3)
  /-- VADD_D: R150 FP64 lane add. -/
  | vaddD (d a b : BitVec 5) (m : BitVec 3)
  /-- VSUB_D: R150 FP64 lane subtract. -/
  | vsubD (d a b : BitVec 5) (m : BitVec 3)
  /-- VMUL_D: R150 FP64 lane multiply. -/
  | vmulD (d a b : BitVec 5) (m : BitVec 3)
  /-- VFMA_D: R150 FP64 lane fused multiply-add. -/
  | vfmaD (d a b : BitVec 5) (m : BitVec 3)
  /-- VCMPEQ_F: R152 Writes mask bits for FP32 lane equality. -/
  | vcmpeqF (d : BitVec 3) (a b : BitVec 5) (m : BitVec 3)
  /-- VCMPLT_F: R152 Writes mask bits for FP32 less-than. -/
  | vcmpltF (d : BitVec 3) (a b : BitVec 5) (m : BitVec 3)
  /-- VCMPLE_F: R152 Writes mask bits for FP32 less-or-equal. -/
  | vcmpleF (d : BitVec 3) (a b : BitVec 5) (m : BitVec 3)
  /-- VCMPUN_F: R152 Writes mask bits where either operand is a NaN. -/
  | vcmpunF (d : BitVec 3) (a b : BitVec 5) (m : BitVec 3)
  /-- VCMPEQ_I: R152 Writes mask bits for 32-bit word equality. -/
  | vcmpeqI (d : BitVec 3) (a b : BitVec 5) (m : BitVec 3)
  /-- VCMPLT_I: R152 Writes mask bits for signed less-than. -/
  | vcmpltI (d : BitVec 3) (a b : BitVec 5) (m : BitVec 3)
  /-- VCMPLTU_I: R152 Writes mask bits for unsigned less-than. -/
  | vcmpltuI (d : BitVec 3) (a b : BitVec 5) (m : BitVec 3)
  /-- VSEL: R152 Selects each lane from va or vb by the mask. -/
  | vsel (d a b : BitVec 5) (m : BitVec 3)
  /-- MAND: R152 Bitwise AND of two mask registers. -/
  | mand (d a b : BitVec 3)
  /-- MOR: R152 Bitwise OR of two mask registers. -/
  | mor (d a b : BitVec 3)
  /-- MXOR: R152 Bitwise XOR of two mask registers. -/
  | mxor (d a b : BitVec 3)
  /-- MNOT: R152 Bitwise NOT of a mask register. -/
  | mnot (d a : BitVec 3)
  /-- MPOP: R152 Writes the count of set bits of a mask to gd. -/
  | mpop (d : BitVec 5) (a : BitVec 3)
  /-- MSET: R152 Writes ga into a mask register. -/
  | mset (d : BitVec 3) (a : BitVec 5)
  /-- VLD: R153 Loads 256 bytes into vd, at retire locally or as one remote load. -/
  | vld (d a : BitVec 5) (i : BitVec 16)
  /-- VST: R153 Stores 256 bytes of vd, at retire locally or leaving at once block by block when remote. -/
  | vst (d a : BitVec 5) (i : BitVec 16)
  /-- VLDS: R154 Strided load of one word per active lane. -/
  | vlds (d a b : BitVec 5) (m : BitVec 3)
  /-- VSTS: R154 Strided store of one word per active lane. -/
  | vsts (d a b : BitVec 5) (m : BitVec 3)
  /-- VGATHER: R154 Indexed load of one word per active lane. -/
  | vgather (d a b : BitVec 5) (m : BitVec 3)
  /-- VSCATTER: R154 Indexed store of one word per active lane. -/
  | vscatter (d a b : BitVec 5) (m : BitVec 3)
  /-- VCOMPRESS: R155 Packs the active lanes of va into the low lanes of vd. -/
  | vcompress (d a : BitVec 5) (m : BitVec 3)
  /-- VEXPAND: R155 Spreads the low lanes of va to the active lanes of vd. -/
  | vexpand (d a : BitVec 5) (m : BitVec 3)
  /-- VDEC: R158 Decodes one self-describing block into 64 FP32 lanes. -/
  | vdec (d a : BitVec 5) (p : BitVec 2)
  /-- VENC: R159 Encodes lanes into one block with a header under a given scale. -/
  | venc (d a b : BitVec 5)
  /-- VENC_AUTO: R159 Encodes lanes into one block with an AUTO scale. -/
  | vencAuto (d a b : BitVec 5)
  /-- VCVT: R160 Converts lanes by the selector held in the b field. -/
  | vcvt (d a s : BitVec 5) (m : BitVec 3)
  /-- VCVTS: R161 Converts lanes with stochastic rounding, tag and conversion from gb. -/
  | vcvts (d a b : BitVec 5) (m : BitVec 3)
  /-- SEND: R215 Delivers gb as a message to a MSG channel door, with an optional release first. -/
  | send (a b : BitVec 5) (r : BitVec 1)
  /-- SENDC: R215 Adds gb[47:0] to a COUNT channel through its door, with an optional release first. -/
  | sendc (a b : BitVec 5) (r : BitVec 1)
  /-- PATSET: R220 Checks and installs a 32-byte pattern descriptor. -/
  | patset (d a : BitVec 5)
  /-- PATCLR: R221 Zeroes a pattern table entry. -/
  | patclr (a : BitVec 5)
  /-- CHCFG: R217 Reconfigures a channel's kind, arm level or ring. -/
  | chcfg (d a b : BitVec 5)
  /-- CHCNT: R218 Returns a snapshot of a channel. -/
  | chcnt (d a : BitVec 5)
  /-- FLUSH: R200 Sends every OPEN aggregation buffer. -/
  | flush
  /-- FLUSHD: R200 Sends the OPEN buffer of the destination named by ga. -/
  | flushd (a : BitVec 5)
  /-- FENCE_REL: R201 Sends all buffers and waits until every earlier remote and device access of the slot is settled. -/
  | fenceRel
  /-- FENCE_ACQ: R201 Holds later memory reads until every earlier remote load and returning atomic has written its register. -/
  | fenceAcq
  /-- FENCE_ALL: R201 Acts as FENCE.REL and FENCE.ACQ together. -/
  | fenceAll
  /-- AGGST: R202 Returns the aggregation summary. -/
  | aggst (d : BitVec 5)
  /-- AGGCFG: R203 Writes AGEMAX and AGGFILL in one step. -/
  | aggcfg (a b : BitVec 5)
  /-- STG: R98 Writes ga to a staging register. -/
  | stg (n : BitVec 2) (a : BitVec 5)
  /-- ENQ: R99 Checks the staged command word, takes locks and a ticket, and queues it to an engine. -/
  | enq (d e : BitVec 5)
  /-- TKST: R100 Reports the state of a ticket. -/
  | tkst (d a : BitVec 5)
  /-- ECANCEL: R101 Removes an unstarted command, returning its arm counts and freeing its locks. -/
  | ecancel (d a : BitVec 5)
  /-- LDSTG: R98 Loads st0 to st3 from 32 own-core bytes. -/
  | ldstg (a : BitVec 5)
  /-- SOLICIT: R237 Opens a census slot at rank 0 and sends the solicit to the hub root. -/
  | solicit (d a : BitVec 5)
  /-- RESPOND: R239 Releases, then enters a responder's value for a census token. -/
  | respond (a b : BitVec 5)
  /-- DIRADD: R240 Lists a tile in the lowest FREE directory entry. -/
  | diradd (d a : BitVec 5)
  /-- DIRDEL: R241 Frees an ACTIVE directory entry with nothing owed. -/
  | dirdel (d a : BitVec 5)
  /-- DIRMOVE: R242 Enqueues a DMOVE of a tile to another rank and sets the entry FORWARD. -/
  | dirmove (d a b : BitVec 5)
  /-- CENCLOSE: R243 Closes or marks close-pending a gang census slot at rank 0. -/
  | cenclose (a : BitVec 5)
  /-- CENST: R244 Reports the state or value of a census slot. -/
  | censt (d a : BitVec 5)
  /-- BARALLOC: R272 Offers a channel to the members and allocates a gang barrier at the root. -/
  | baralloc (d a : BitVec 5)
  /-- BARFREE: R273 Frees a gang barrier, discarding arrivals of the unfinished phase. -/
  | barfree (a : BitVec 5)
  /-- ARRIVE: R274 Releases, then sends this member's arrival for the current phase. -/
  | arrive (a : BitVec 5)
  /-- ARRIVED: R274 Arrives and marks the member to drop out after this phase. -/
  | arrived (a : BitVec 5)
  /-- BARST: R275 Returns the barrier fields at this core. -/
  | barst (d a : BitVec 5)
  /-- MFC: R140 Reads a control register into gd. -/
  | mfc (d : BitVec 5) (c : BitVec 12)
  /-- MTC: R140 Writes ga to a control register, limited to its fields and ranges. -/
  | mtc (a : BitVec 5) (c : BitVec 12)
  /-- TRAP: R280 Takes a user trap with cause TRAPI and the given code. -/
  | trap (k : BitVec 12)
  /-- RTE: R281 Returns from a user trap to EPC. -/
  | rte
  /-- END: R228 Retires the activation once no register is pending, freeing the slot. -/
  | endAct
  /-- END_EXIT: R228 Releases, retires the activation and counts the rank out of the gang. -/
  | endExit
  /-- BREAK: R282 Takes a BREAK user trap, or enters DEBUG when the tenant's DEBUG flag is set. -/
  | brk
  /-- RETRY: R284 Supervisor only: re-sends every parked request of the core. -/
  | retry
  /-- LAUNCH: R262 Releases, then copies a launch record into the tenant pool. -/
  | launch (d a : BitVec 5)
  /-- CANCEL: R270 Ends the issuing gang, its graph or its job. -/
  | cancel (l : BitVec 2)
  /-- NOP: R141 Changes nothing but pc. -/
  | nop
  /-- IFENCE: R141 Discards fetched, unissued words and refetches from pc + 4. -/
  | ifence
  /-- ILLEGAL: R29 A fetched word that matches no instruction (all-zero, unused major, absent fn, nonzero must-be-zero field) traps ILLEGAL and faults the gang. -/
  | illegal (word : BitVec 32)
  /-- FETCH_FAULT: R53 Fetch of an instruction outside 0x0_0100 up to LSBYTES faults LSBOUND, and fetch overlapping a DEST lock traps RANGE. -/
  | fetchFault
  /-- MMA: R175 Multiplies A by B into the accumulator region, committing one K-group at a time. -/
  | mma (core ticket pick : Nat)
  /-- MMAC: R178 MMA with A down-converted from an FP32 accumulator region. -/
  | mmac (core ticket pick : Nat)
  /-- ACCZ: R179 Zeroes an accumulator region and writes its headers. -/
  | accz (core ticket : Nat)
  /-- ACCST: R180 Encodes an accumulator region into blocks at DST. -/
  | accst (core ticket : Nat)
  /-- ACCLD: R181 Loads an accumulator region from blocks at SRC. -/
  | accld (core ticket : Nat)
  /-- COPY: R105 Moves a 2-D region, with headers when aligned. -/
  | copy (core ticket : Nat)
  /-- GATHER: R106 Copies indexed source elements into a packed destination. -/
  | gather (core ticket : Nat)
  /-- SCATTER: R106 Copies packed source elements to indexed destinations. -/
  | scatter (core ticket : Nat)
  /-- BCAST: R107 Copies a region to every core of a gang sub-rectangle. -/
  | bcast (core ticket : Nat)
  /-- DMOVE: R248 Moves a directory tile to another rank through open, bytes and commit. -/
  | dmove (core ticket : Nat)
  /-- FILT: R165 Copies records whose masked key passes a test, optionally with their indices. -/
  | filt (core ticket : Nat)
  /-- CONV: R167 Decodes a run of blocks and re-encodes it in a target format. -/
  | conv (core ticket : Nat)
  /-- COMMAND_ARMED: R104 When a queue head's arm channels reach their levels, the levels are subtracted and the command becomes startable. -/
  | commandArmed (core ticket : Nat)
  /-- PROGRESS_POINT_STOP: R290 A running engine command stops at its next progress point for pre-emption or gang end. -/
  | progressPointStop (core ticket : Nat)
  /-- MATCHER_FIRING: R223 The matcher consumes an eligible pattern's terms and starts its body in the lowest free slot. -/
  | matcherFiring (core : Nat)
  /-- HELD_MESSAGE_DELIVERY: R213 A device-generated message held for a full channel enters it when room appears, or is discarded. -/
  | heldMessageDelivery (core ch : Nat)
  /-- ASYNC_TRAP: R279 A pending asynchronous REFUSED trap is taken at the next boundary with INTRAP clear. -/
  | asyncTrap (core slot : Nat)
  /-- HOLD_BOUND_EXPIRY: R190 A buffer whose oldest element has been held AGEMAX NI cycles leaves. -/
  | holdBoundExpiry (core buf : Nat)
  /-- BUFFER_LEAVE: R190 A buffer kept OPEN by a full retention store or a drain hold leaves once both conditions clear. -/
  | bufferLeave (core buf : Nat)
  /-- ELEMENTS: R193 An element packet arrives and its elements are applied in buffer order, then acknowledged or NAKed. -/
  | elements (k : Nat)
  /-- LOAD: R136 A load request arrives at its target or station and is answered with a reply or NAK. -/
  | load (k : Nat)
  /-- AMO: R197 A returning atomic arrives and is applied as one read-modify-write. -/
  | amo (k : Nat)
  /-- HDR: R139 A remote header access arrives and is applied or refused. -/
  | hdr (k : Nat)
  /-- BLOCK: R126 An engine or VST block write arrives, is admitted or refused, and is applied. -/
  | block (k : Nat)
  /-- SEND_PACKET: R215 A SEND or SENDC arrives at a door and is delivered or refused. -/
  | sendPacket (k : Nat)
  /-- ACK: R205 An acknowledgement settles elements and frees retained packets when all are settled. -/
  | ack (k : Nat)
  /-- NAK: R205 A NAK records a refused element, parks an XLATE request, or faults the gang. -/
  | nak (k : Nat)
  /-- REPLY: R136 A load or atomic reply writes its register, clears the pending mark and lowers OUTSTAND. -/
  | reply (k : Nat)
  /-- REPAIR: R285 A repair message raises REPAIRS so the supervisor slot executes RETRY. -/
  | repair (k : Nat)
  /-- NOPARK_RETRY: R66 1,024 cycles after a NOPARK NAK the supervisor slot re-sends the access. -/
  | noparkRetry (core : Nat)
  /-- PAGE_RELEASE: R65 The station invalidates a repaired page, removes its park entries and sends repair messages. -/
  | pageRelease (asid page : Nat)
  /-- INVALIDATION: R62 A memory-manager invalidation drops cached translations and scope-table entries. -/
  | invalidation (asid : Nat) (page : Option PageRef)
  /-- SOLICIT_ARRIVAL: R238 A solicit reaches a core, spawning responder messages for matching entries. -/
  | solicitArrival (k : Nat)
  /-- NODE_REPORT: R246 A report reaches a tree node and is combined toward the root. -/
  | nodeReport (tenant slot k : Nat)
  /-- CLOSE: R243 A census close reaches a core, clearing the slot's bits and leaf state, and is acknowledged. -/
  | close (k : Nat)
  /-- CLOSE_ACK: R243 A close acknowledgement reaches rank 0, which frees the slot when all cores have acknowledged. -/
  | closeAck (k : Nat)
  /-- DMOVE_OPEN: R248 The open reaches the destination, making its entry PENDING and replying with E, or is refused. -/
  | dmoveOpen (k : Nat)
  /-- DMOVE_OPEN_REPLY: R248 The destination's reply carrying E reaches the source. -/
  | dmoveOpenReply (k : Nat)
  /-- COMMIT: R248 Once its conditions hold, the source sends the commit with M and frees its entry. -/
  | commit (core ticket : Nat)
  /-- ADOPTION: R248 The commit reaches the destination, which spawns withheld responders and becomes ACTIVE. -/
  | adoption (k : Nat)
  /-- ABORT: R248 An abort reaches the destination, which frees its PENDING entry. -/
  | abortMove (k : Nat)
  /-- BARRIER_OFFER: R272 A BARALLOC offer reaches a member leaf, which answers whether the channel is a declared MSG channel. -/
  | barrierOffer (k : Nat)
  /-- BARRIER_ARRIVAL: R274 Arrivals reach the root and complete the phase when all members have arrived. -/
  | barrierArrival (k : Nat)
  /-- BARRIER_COMPLETION: R274 A phase completion reaches a member leaf, updating its fields and delivering to CH. -/
  | barrierCompletion (k : Nat)
  /-- TREE: R245 A tree packet of the escapement or repeater network is received. -/
  | tree (k : Nat)
  /-- HUB: R308 A hub packet for launch, save, restore or foreign traffic is received. -/
  | hub (k : Nat)
  /-- PASS: R267 The scheduler re-tests, places and reserves for a tenant, on an event or every 65,536 hub cycles. -/
  | pass (tenant : Nat)
  /-- HEADER_READ: R260 The image header read completes, making the record READY, PAGE-WAIT, or freeing it. -/
  | headerRead (tenant index : Nat)
  /-- IMAGE_LOAD: R269 A placed record's tables, content, gang page, registers and leaves are loaded. -/
  | imageLoad (gang : Nat)
  /-- CLUSTER_RELEASE: R269 Release reaches a cluster and each of its cores starts its launch activation. -/
  | clusterRelease (gang : Nat)
  /-- GANG_END: R265 A gang stops its slots and engines and sends its buffers, waiting for them to settle. -/
  | gangEnd (gang : Nat)
  /-- GANG_END_SETTLED: R265 After settling, resources are freed, the completion record and counter written and the notice sent. -/
  | gangEndSettled (gang : Nat)
  /-- PREEMPT: R290 PREEMPT reaches a core, stopping its slots, matcher and engines. -/
  | preempt (k : Nat)
  /-- CORE_SEALED: R291 A draining core's accesses have settled and it reports SEALED. -/
  | coreSealed (core : Nat)
  /-- SAVE: R293 With every core sealed, the gang's state is written to the save area. -/
  | save (gang : Nat)
  /-- RESTORE: R294 A saved gang is written back onto a rectangle, re-sends parked requests, and is released. -/
  | restore (gang : Nat)
  /-- MODE_CHANGE: R17 All core-clocked units stop at a clock edge, change frequency and resume. -/
  | modeChange
  /-- PACKAGE_RESET: R335 Reset clears headers and state, and the root of trust verifies and starts the images. -/
  | packageReset (images : List FwImage) (strap : Option Nat)
  /-- ROUTER_GATE: R316 After two idle cycles without set-up a router gates itself off. -/
  | routerGate (router : Nat)
  /-- ROUTER_WAKE: R316 A gated router that saw set-up is on again after two cycles. -/
  | routerWake (router : Nat)
  /-- ROUTE_SWAP: R314 The fabric manager writes idle banks and sets HOLD for a tenant. -/
  | routeSwap (tenant : Nat) (entry : Dword)
  /-- BANK_FLIP: R314 With no packet of the tenant in flight, bank-select flips and HOLD clears. -/
  | bankFlip (tenant : Nat)
  /-- FABRIC_PACKET: R319 A fabric packet is delivered into the mesh or forwarded by its route rules. -/
  | fabricPacket (port : Nat) (p : FabPacket)
  /-- FLOW_ROUTE_CHANGE: R321 A flow's route changes once it has no packet unacknowledged end to end. -/
  | flowRouteChange (tenant ddev route : Nat)
  /-- FLIT_DATA: R322 A sealed DATA flit is authenticated and delivered in LSEQ order, or NAKed. -/
  | flitData (link : Link) (f : Flit)
  /-- FLIT_IDLE: R322 An IDLE flit is received. -/
  | flitIdle (link : Link) (f : Flit)
  /-- FLIT_MARKER: R323 A MARKER flit ends the sender's use of a key slot. -/
  | flitMarker (link : Link) (f : Flit)
  /-- FLIT_ACK: R324 A flit acknowledgement is received, allowing a drained key slot to retire. -/
  | flitAck (link : Link) (f : Flit)
  /-- FLIT_NAK: R324 A flit NAK causes go-back-N replay, or after three failed replays marks the link down. -/
  | flitNak (link : Link) (f : Flit)
  /-- KEY_SWITCH: R323 When IC reaches 2^62 the sender seals a MARKER and switches to the other key slot. -/
  | keySwitch (link : Link)
  /-- HOST_WINDOW_ACCESS: R326 A host read or write through a window is issued to its station and answered. -/
  | hostWindowAccess (session : Nat) (haddr : Dword) (write : Option (List Byte)) (len : Nat)
  /-- TENANTSET: R334 Creates or changes a tenant context. -/
  | tenantset (h : CmdHdr) (tenant x0 y0 w ht displim : Nat) (debug : Bool) (owner : BitVec 384)
  /-- TENANTCLOSE: R334 Cancels a tenant's jobs, closes its sessions and retires its key slots. -/
  | tenantclose (h : CmdHdr) (tenant : Nat)
  /-- SUBMIT: R264 Places a host launch record in the pool with its job word. -/
  | submit (h : CmdHdr) (rec : BitVec 512) (job : BitVec 128)
  /-- CANCEL_CMD: R334 Host cancel of a graph or job. -/
  | cancelCmd (h : CmdHdr) (level id : Nat)
  /-- PREEMPT_CMD: R334 Host request to pre-empt a named gang. -/
  | preemptCmd (h : CmdHdr) (gang : Nat)
  /-- MODE: R17 Requests a power-cap mode change. -/
  | mode (h : CmdHdr) (mode : Nat)
  /-- BYPASS: R18 Sets the mesh bypass length. -/
  | bypass (h : CmdHdr) (len : Nat)
  /-- STAGE: R340 Verifies and stages one signed firmware image. -/
  | stage (h : CmdHdr) (img : FwImage)
  /-- UPDATE: R341 Starts the hand-over of the staged image. -/
  | update (h : CmdHdr)
  /-- UPSTAT: R334 Returns the status of the update machinery. -/
  | upstat (h : CmdHdr)
  /-- ATTEST: R337 Returns a signed attestation report with the caller's nonce. -/
  | attest (h : CmdHdr) (nonce : BitVec 384)
  /-- SESSOPEN: R338 Starts a tenant session key exchange. -/
  | sessopen (h : CmdHdr) (tenant : Nat) (qt : BitVec 776) (nt : BitVec 256)
  /-- SESSCONF: R338 Confirms a session with the owner's signature and loads its keys. -/
  | sessconf (h : CmdHdr) (session : Nat) (sig : BitVec 768)
  /-- SESSCLOSE: R334 Erases a session's keys and closes its windows. -/
  | sessclose (h : CmdHdr) (session : Nat)
  /-- WINOPEN: R326 Opens a host window over HOST pages. -/
  | winopen (h : CmdHdr) (va : Dword) (len : Nat) (haddr : Dword) (procid : Nat)
  /-- WINCLOSE: R326 Closes a host window. -/
  | winclose (h : CmdHdr) (window : Nat)
  /-- LOGREAD: R334 Returns the device log or the tenant's fault entries. -/
  | logread (h : CmdHdr)
  /-- RESUME_CMD: R282 Returns a slot in DEBUG to ACTIVE at EPC. -/
  | resumeCmd (h : CmdHdr) (core slot : Nat)
  /-- TX_WRITE: R331 Appends a word to a mailbox, or discards it and sets the overflow bit. -/
  | txWrite (self j : Nat) (word : Dword)
  /-- RX_READ: R331 Takes the head word of a mailbox. -/
  | rxRead (self i : Nat)
  /-- MBOVF_CLEAR: R331 Writing 1 clears mailbox overflow bits. -/
  | mbovfClear (self : Nat) (bits : BitVec 8)
  /-- REGISTER_WRITE: R331 Writes a hub mailbox register without behaviour of its own, such as MBIE. -/
  | registerWrite (self offset : Nat) (value : BusWord)
  /-- QUIESCE: R341 Asks the target image to reach its quiescent point and write its hand-over record. -/
  | quiesce
  /-- HANDED: R341 The old image reports its record; the new image is loaded behind the closed gate and started. -/
  | handed (record : Dword)
  /-- RESUME: R341 Starts an image with the hand-over record address. -/
  | resume
  /-- ALIVE: R341 The started image reports running, committing or completing the rollback. -/
  | alive (version : Dword)
  /-- REJECT: R343 The new image refuses the record, starting a rollback. -/
  | reject (reason : Nat)
  /-- CONTINUE: R341 Tells a quiescing image to continue after a timeout. -/
  | continueImage
  /-- GATED_WRITE: R342 A write by the new image through the closed gate is discarded and starts a rollback. -/
  | gatedWrite
  /-- WATCHDOG_EXPIRY: R341 The hand-over watchdog of 2^27 cycles expires, timing out, rolling back or failing. -/
  | watchdogExpiry
  /-- MICROCODE_BANK_SWITCH: R344 A core switches microcode banks at its first idle supervisor cycle and reports. -/
  | microcodeBankSwitch (core : Nat)
  /-- MICROCODE_SWITCH_BACK: R344 After a failed replacement a switched core switches back at its next idle cycle. -/
  | microcodeSwitchBack (core : Nat)
  /-- UNCORRECTABLE_ERROR: R71 An uncorrectable ECC error strikes a block or sideband row, which then stays in error until a whole-block write with header. -/
  | uncorrectableError (pa : Nat)
  /-- XLATE_UNMAPPED_PROT: R64 The memory manager turns an XLATE_UNMAPPED fault into PROT for the gang instead of mapping the page, ending it. -/
  | xlateUnmappedProt (asid page : Nat)
  /-- KEY_SLOT_LOAD: R323 The security manager loads an idle link key slot, resetting its IC and releasing a sender paused for it. -/
  | keySlotLoad (link : Link) (salt : Word)
  /-- IMAGE_FAULT: R341 A fault of the new or resumed hub image during STARTING or RESUMING moves the hand-over to RESUMING or FAILED. -/
  | imageFault
  /-- MICROCODE_MULTICAST_DONE: R344 The multicast of staged microcode into the idle banks completes and the watchdog starts. -/
  | microcodeMulticastDone
  /-- OPERATOR_KEY_WRITE: R338 At first power-up the installation writes the operator key digest once into the security manager. -/
  | operatorKeyWrite (digest : BitVec 384)
  /-- UNKNOWN_OPCODE: R333 A host command with an unknown opcode is refused with BADCMD and nothing happens. -/
  | unknownOpcode (h : CmdHdr) (opcode : Nat)
deriving DecidableEq, Repr

end Sys2Proof
end

