-- ==== Sys2Proof/Machine/State.lean ====
section
/-! DEFINITION. The state of the part, as plain data: cores, mesh, device memory, hub, fabric, firmware; and its reset. -/

namespace Sys2Proof.Machine

/-- Why the machine stops with a fault. The faults of R276 end a gang and not the part: each is a next state. -/
inductive Fault where
  /-- The agenda names a core the part does not have (R10). Raised by `step` alone, no instruction; safe: the part has no
  such core, so no run of the part reaches it. -/
  | noSuchCore
deriving DecidableEq, Repr

/-- Why an instruction has no meaning. -/
inductive Refusal where
  /-- An arm of exec that has no meaning yet, by its mnemonic. Raised by exec alone; safe: nothing is claimed. -/
  | notModelled (mnemonic : String)
deriving DecidableEq, Repr

/-- The state of a user slot (R283, R288). -/
inductive SlotState where
  | free | active | parked | stopped | debug
deriving DecidableEq, Repr

/-- A slot: the registers of R21 to R26 and the state of R278, R283, R288. -/
structure Slot where
  state : SlotState
  pc : Dword
  g : Vector Dword 32
  v : Vector VReg 32
  m : Vector Dword 8
  st : Vector Dword 4
  prio : Nat
  intrap : Bool
  cause : BitVec 8
  epc : Dword
  tval : Dword
  cdc : BitVec 7
  rmode : BitVec 3
  /-- asynchronous traps that wait for INTRAP = 0, oldest first: cause and TVAL (R279) -/
  pendTraps : List (Nat × Dword)
  /-- the payload of a pending AGGF (R210) -/
  aggf : Option Dword
  /-- the tag of the activation (R188) -/
  act : Nat
  /-- remote lanes of a VSTS or VSCATTER already entered (R156) -/
  lanes : Nat
  /-- words fetched and not yet issued, by offset (R141) -/
  fetched : List (Nat × BitVec 32)
  /-- an acquire holds back the reads of memory that follow it (R201) -/
  acquire : Bool
  /-- the release that the slot waits at has sent the buffers (R190, R201) -/
  fencing : Bool
  /-- a CANCEL has retired in the activation: it issues nothing more (R270) -/
  cancelled : Bool
deriving DecidableEq, Repr

/-- A slot at reset: every register zero (R24, R34; log 3). -/
def Slot.reset : Slot where
  state := .free
  pc := 0
  g := Vector.replicate 32 0
  v := Vector.replicate 32 0
  m := Vector.replicate 8 0
  st := Vector.replicate 4 0
  prio := 0
  intrap := false
  cause := 0
  epc := 0
  tval := 0
  cdc := 0
  rmode := 0
  pendTraps := []
  aggf := none
  act := 0
  lanes := 0
  fetched := []
  acquire := false
  fencing := false
  cancelled := false

/-- The gang page and what the launch sequence records with it (R119). -/
structure GangPage where
  rank : Nat
  gangId : Word
  tenant : BitVec 8
  orgx : Nat
  orgy : Nat
  width : Nat
  height : Nat
  rootcore : Nat
  depth : Nat
  graph : Word
  job : Word
  lsbytes : Nat
  nchan : Nat
  npat : Nat
  nslot : Nat
  nbar : Nat
  ncen : Nat
  prio : Nat
  shape : BitVec 1024
deriving DecidableEq, Repr

/-- The gang page before any launch: zeros (log 4). -/
def GangPage.reset : GangPage := ⟨0, 0, 0, 0, 0, 0, 0, 0, 0, 0, 0, 0, 0, 0, 0, 0, 0, 0, 0⟩

/-- A channel (R211 to R214): a queue of messages or a count. `msgs` holds the hardware queue, payload and sender; `cnt` is COUNT of the
channel's state, of a MSG channel the messages held. -/
structure Channel where
  decl : Bool
  count : Bool
  arm : Nat
  cnt : Nat
  rent : Nat
  roff : Nat
  rhead : Nat
  spill : Nat
  msgs : List (Dword × BitVec 16)
deriving DecidableEq, Repr

def Channel.reset : Channel := ⟨false, false, 0, 0, 0, 0, 0, 0, []⟩

/-- The state of a directory entry (R233). -/
inductive EntryState where
  | free | active | forward | pending
deriving DecidableEq, Repr

/-- A tile directory entry (R233). -/
structure Entry where
  state : EntryState
  key : Nat
  rch : Nat
  kmask : Nat
  answered : BitVec 16
  owed : BitVec 16
  seen : BitVec 16
  addr : Nat
  len : Nat
  peer : Nat
  pent : Nat
deriving DecidableEq, Repr

def Entry.reset : Entry := ⟨.free, 0, 0, 0, 0, 0, 0, 0, 0, 0, 0⟩

/-- A range-lock entry (R110). -/
structure Lock where
  dest : Bool
  engine : Nat
  ticket : Nat
  base : Nat
  limit : Nat
deriving DecidableEq, Repr

/-- Where a directory move stands: its open, its commit awaits the answer (R248). -/
inductive Xfer where
  | idle | opening | committing
deriving DecidableEq, Repr

/-- A write of an engine: address, bytes, effect on the block's header, and whether DSTCH is credited (R114). -/
structure Write where
  addr : Dword
  bytes : List Byte
  eff : HdrEffect
  credit : Bool
deriving DecidableEq, Repr

/-- What an engine has read of one source block, in one read (R76): its key, bytes and header; for a CB2 block also its codebook table
as it stood then, none for the default one, and the first offset of the table past LSBYTES (R85). -/
structure Buf where
  key : Nat
  bytes : List Byte
  hdr : Header
  cb : Option (List Byte)
  bound : Option Nat
deriving DecidableEq, Repr

/-- A read of an engine command that awaits its reply; unsent while its page is under repair or the drain hold stands (R116, R314). -/
structure ReadOut where
  unit : Nat
  key : Nat
  addr : Dword
  len : Nat
  sent : Bool
deriving DecidableEq, Repr

/-- A write of an engine command that awaits its acknowledgement; unsent also while an earlier write to its destination awaits its own
(R114; log 11). `before`: bytes of the command ahead of it; `mark`: PROGRESS while it is the first unacknowledged (R100, R116). -/
structure WriteOut where
  unit : Nat
  before : Nat
  mark : Nat
  write : Write
  sent : Bool
deriving DecidableEq, Repr

/-- A write of an engine command to its own core: `placed` once its bytes are, its credit being still to come (R107, R114, R348). -/
structure OwnWrite where
  off : Nat
  before : Nat
  mark : Nat
  write : Write
  placed : Bool
deriving DecidableEq, Repr

/-- A tile command an engine holds (R34, R99 to R104). -/
structure Command where
  engine : Nat
  ticket : Nat
  word : BitVec 256
  seed : Dword
  slot : Nat
  pc : Dword
  /-- acceptance order -/
  order : Nat
  /-- amounts consumed by the arm test, once made (R104) -/
  armed : Option (List (Nat × Nat))
  running : Bool
  /-- PROGRESS of TKST once every write made so far is acknowledged (R100) -/
  progress : Nat
  /-- place of the writes: row, group, element or block, and the byte or block within it -/
  row : Nat
  pos : Nat
  /-- how far the source has been asked for -/
  rpos : Nat
  /-- FILT: records kept; ACCLD: elements of the block written; DMOVE: 1 once its open is accepted -/
  kept : Nat
  xfer : Xfer
  /-- 1 while an open or a commit awaits its answer -/
  wait : Nat
  /-- source blocks read and still needed -/
  bufs : List Buf
  /-- reads and writes on their way, oldest first -/
  reads : List ReadOut
  writes : List WriteOut
  /-- writes to this core that are still to be made or to be credited, oldest first (R107, R114) -/
  own : List OwnWrite
  /-- MMA: elements of the group not yet updated, as m × 128 + n; ACCLD: bits of the block's elements; GATHER, SCATTER: the index
  words read -/
  todo : List Nat
  /-- number of the last packet sent, so that each answer finds its own -/
  unit : Nat
  /-- waits for the repair of the page of an address; for 1,024 cycles from the given cycle when no park entry was free (R116,
  R66) -/
  parked : Option (Option Nat × Dword)
  /-- stopped at a progress point (R290) -/
  stopped : Bool
  /-- must stop at its next progress point -/
  stopping : Bool
  /-- refused: bytes before the first refused one; it ends when what was sent before is acknowledged (R116) -/
  halted : Option Nat
  /-- key and address of the first read refused: what has been read before it is still written, and then the command is refused (R116,
  R185) -/
  refusal : Option (Nat × Dword)
  /-- all writes done, locks freed, the completion message waits to enter its channel (R115) -/
  done : Option Dword
  /-- DMOVE: E of the open's reply, and the slots closed at the source since (R248) -/
  eset : Nat
  closed : Nat
deriving DecidableEq, Repr

/-- The engines of a core (R99 to R104, R183). -/
structure Engines where
  cmds : List Command
  ticket : Nat
  order : Nat
  mxeC : Nat
deriving DecidableEq, Repr

/-- An OPEN aggregation buffer (R188); `due` once a trigger has held (R190, R192). -/
structure Buffer where
  dest : Node
  elems : List Element
  due : Bool
deriving DecidableEq, Repr

/-- How a retained item stands (R205, R207). -/
inductive Settle where
  | sent
  /-- sent again after a repair: a slot that waits for it stays parked (R201, R283) -/
  | resent
  /-- NAKed XLATE: awaits the repair of the page of an address; from a NAK with NOPARK, the cycle of the NAK -/
  | repair (noPark : Option Nat) (va : Dword)
  /-- refused, not yet recorded (R209) -/
  | refused
  | settled
deriving DecidableEq, Repr

/-- What a retained item is (R192, R206). -/
inductive ItemKind where
  | elem
  | vst (bytes : List Byte)
  | venc (bytes : List Byte) (h : Header)
  | sthdr (h : Header)
  | send (count : Bool)
deriving DecidableEq, Repr

/-- An item of a retained packet: its element gives address, value, slots, CDC. `recorded` marks a refused element already
in the fault ring. -/
structure Item where
  kind : ItemKind
  el : Element
  st : Settle
deriving DecidableEq, Repr

/-- What a station has answered a part of R63 with: cause, the cycle of a NOPARK, address; and whether a RETRY has come since, which
re-sends the access as soon as both stations have answered (R284). -/
structure PartNak where
  cause : Nat
  noPark : Option Nat
  va : Dword
  retried : Bool
deriving DecidableEq, Repr

/-- A packet in the retention store (R192). The two parts of R63 name each other in `pair`; of each, whether its station has translated it
or what its station has answered instead. -/
structure Retained where
  uid : Nat
  dest : Node
  items : List Item
  pair : Option Nat
  translated : Bool
  nak : Option PartNak
deriving DecidableEq, Repr

/-- What a request that awaits a reply will do (R136, R156, R199). -/
inductive ReqKind where
  | load (d : BitVec 5) (width : Nat) (signed : Bool)
  | ldhdr (d : BitVec 5)
  | vload (d : BitVec 5)
  | vlanes (d : BitVec 5)
  | vdec (d : BitVec 5) (part : Nat)
  | amo (d : BitVec 5) (width : Nat) (op : AmoOp) (b c : Dword)
deriving DecidableEq, Repr

/-- How a part of a request stands. -/
inductive PartState where
  | sent
  | translated
  /-- awaits the repair of the page of an address -/
  | repair (noPark : Option Nat) (va : Dword)
  /-- a part of R63 that its station has faulted, the other part still unanswered -/
  | failed (n : PartNak)
  /-- answered with bytes and a header, which enter the register with those of the last part (R71, R156) -/
  | got (bytes : List Byte) (h : Header)
  /-- answered with REFUSED -/
  | refused
deriving DecidableEq, Repr

/-- One packet's share of a request: `off` its first byte of the register. -/
structure ReqPart where
  dest : Node
  addr : Dword
  len : Nat
  off : Nat
  st : PartState
deriving DecidableEq, Repr

/-- A request of OUTSTAND (R136). -/
structure Request where
  uid : Nat
  slot : Nat
  act : Nat
  kind : ReqKind
  parts : List ReqPart
  ea : Dword
  /-- refused parts so far: the address of the lowest lane NAKed -/
  refused : Option Dword
  /-- the reply is to be discarded (R265 step 3) -/
  discard : Bool
  /-- NAKed XLATE and not yet answered otherwise: its slot stays parked (R283) -/
  parked : Bool := false
deriving DecidableEq, Repr

/-- The network interface of a core (R187 to R210). -/
structure Ni where
  bufs : Vector (Option Buffer) 16
  retained : List Retained
  /-- scope table, most recently used first: ASID, 64 KiB page, scope (R194) -/
  scope : List (Nat × Nat × Nat)
  /-- drain and swap (R314) -/
  hold : Bool
  reqs : List Request
  /-- fault ring NEXT and SEQ (R208, R209) -/
  next : Nat
  seq : Nat
  uid : Nat
deriving DecidableEq, Repr

/-- Who generated a message held for a full channel (R213). -/
inductive Source where
  | engine (ticket : Nat)
  | fault
  | barrier
  | responder (entry slot : Nat)
  | notice
  | census (tslot : Nat)
deriving DecidableEq, Repr

/-- A device-generated message not yet in its channel (R213). -/
structure Held where
  ch : Nat
  payload : Dword
  sender : BitVec 16
  src : Source
deriving DecidableEq, Repr

/-- The state of a repeater leaf for one tenant slot (R236). -/
inductive LeafState where
  | idle | arrived | reported
deriving DecidableEq, Repr

/-- A repeater leaf for one tenant slot: its state, OP and ARG of the census, the responders' values by entry (R236, R246,
R248). -/
structure Leaf where
  state : LeafState
  op : Nat
  arg : Nat
  vals : List (Nat × Dword)
deriving DecidableEq, Repr

def Leaf.reset : Leaf := ⟨.idle, 0, 0, []⟩

/-- The state of a gang's census slot at rank 0 (R235). -/
inductive CenState where
  | free | opened | done | closing
deriving DecidableEq, Repr

/-- A gang's census slot at rank 0 (R235, R244). -/
structure CenSlot where
  state : CenState
  closePending : Bool
  op : Nat
  count : Nat
  value : Dword
  door : Nat
deriving DecidableEq, Repr

def CenSlot.reset : CenSlot := ⟨.free, false, 0, 0, 0, 0⟩

/-- A gang barrier at one core (R271). -/
structure Bar where
  alloc : Bool
  member : Bool
  arrived : Bool
  drop : Bool
  phase : Bool
  ch : Nat
  phases : Nat
deriving DecidableEq, Repr

def Bar.reset : Bar := ⟨false, false, false, false, false, 0, 0⟩

/-- A BARALLOC that waits for its members' answers (R272). -/
structure Offer where
  slot : Nat
  act : Nat
  ch : Nat
  members : List Nat
  answers : List (Nat × Bool)
  /-- the rank of the core that offers -/
  origin : Nat
deriving DecidableEq, Repr

/-- PRESTATE of R287. -/
inductive PreState where
  | none | stopping | draining | sealed | saved | restoring
deriving DecidableEq, Repr

/-- The supervisor's registers and the control registers that a launch writes (R25, R287, R344). -/
structure Control where
  trapvec : Dword
  faultch : BitVec 7
  faultring : Dword
  srseed : Dword
  cbtab : Dword
  agemax : Nat
  aggfill : Nat
  repairs : Nat
  pre : PreState
  saveva : Dword
  /-- microcode: the bank in use, whether it was switched for the replacement in progress (R344) -/
  bank : Nat
  switched : Bool
deriving DecidableEq, Repr

def Control.reset : Control := ⟨0, 0x40, 0, 0, 0, 256, 16, 0, .none, 0, 0, false⟩

/-- A core (R13). Its fifth slot, the supervisor's, has registers of its own of every kind that a user slot has (log 81). -/
structure Core where
  /-- the gang the core belongs to, the scheduler's own number for it -/
  gang : Option Nat
  cycle : Nat
  tenant : Nat
  asid : Nat
  page : GangPage
  slots : Vector Slot 5
  ls : Memory
  lsHdr : List (Nat × Header)
  acc : Memory
  accHdr : List (Nat × Header)
  /-- what an unlisted accumulator header reads as: 0 at package reset (R72), FP32 with scale +1.0 from a launch on (R170) -/
  accBase : Header
  ctl : Control
  windows : Vector Dword 8
  chans : Vector Channel 64
  pats : Vector (BitVec 256) 32
  ptr : Nat
  /-- the matcher has been started by a release (R226, R269) -/
  matching : Bool
  /-- the slot that last issued at each priority (R227) -/
  lastIssue : List (Nat × Nat)
  dir : Vector Entry 64
  locks : Vector (Option Lock) 16
  eng : Engines
  ni : Ni
  held : List Held
  leaves : Vector Leaf 16
  /-- the tenant slot of each gang slot (R235) -/
  cenMap : List Nat
  cens : Vector CenSlot 16
  bars : Vector Bar 64
  /-- channels offered to this core by BARALLOCs (R272): origin rank, slot, channel -/
  offered : List (Nat × Nat × Nat)
  /-- the BARALLOC of this core that waits -/
  offers : List Offer
  exited : Bool
  /-- entry and cycle of the last RESPOND, tenant slot and cycle of the last solicit: what R251 orders within one cycle -/
  responded : Option (Nat × Nat)
  solicited : Option (Nat × Nat)
deriving DecidableEq, Repr

/-- The header a launch gives every accumulator block: FP32 with scale +1.0 (R170); before the first launch they read 0 (R72; log 6). -/
def accHeader : Header := 0x03F80001#32

def Ni.reset : Ni := ⟨Vector.replicate 16 none, [], [], false, [], 0, 0, 0⟩

/-- A core at reset. -/
def Core.reset : Core where
  gang := none
  cycle := 0
  tenant := 0
  asid := 0
  page := GangPage.reset
  slots := Vector.replicate 5 Slot.reset
  ls := []
  lsHdr := []
  acc := []
  accHdr := []
  accBase := 0
  ctl := Control.reset
  windows := Vector.replicate 8 0
  chans := Vector.replicate 64 Channel.reset
  pats := Vector.replicate 32 0
  ptr := 0
  matching := false
  lastIssue := []
  dir := Vector.replicate 64 Entry.reset
  locks := Vector.replicate 16 none
  eng := ⟨[], 0, 0, 0⟩
  ni := Ni.reset
  held := []
  leaves := Vector.replicate 16 Leaf.reset
  cenMap := []
  cens := Vector.replicate 16 CenSlot.reset
  bars := Vector.replicate 64 Bar.reset
  offered := []
  offers := []
  exited := false
  responded := none
  solicited := none

/-- A router's gating (R316). -/
inductive Gating where
  | on (idle : Nat)
  | gated
  | waking (left : Nat)
deriving DecidableEq, Repr

/-- The mesh: the tables of R311, one copy for the routers the fabric manager writes alike (log 25), the bypass length
(R18), the power-cap mode (R17) and the gating of each router (R316). -/
structure Mesh where
  /-- tenants whose membership bit is set in the routers of their sub-mesh -/
  members : List (Nat × Nat)
  bankSel : List (Nat × Nat)
  bank0 : List (Nat × Dword)
  bank1 : List (Nat × Dword)
  bypass : Nat
  mode : Nat
  modeNext : Option Nat
  /-- a later request that waits behind the change in progress -/
  modeLater : Option Nat
  gating : List (Nat × Gating)
deriving DecidableEq, Repr

/-- A cached translation: station, ASID, level, VA divided by the page size, leaf entry (R62). -/
structure Tlb where
  station : Nat
  asid : Nat
  level : Nat
  page : Nat
  leaf : Dword
deriving DecidableEq, Repr

/-- A park entry of a station (R64): the page it stands for, by its first 64 KiB and the level of its leaf. -/
structure Park where
  station : Nat
  asid : Nat
  page : Nat
  level : Nat
  cores : List Nat
deriving DecidableEq, Repr

/-- A part held at its station until both stations have translated (R63). -/
structure HeldPart where
  station : Nat
  packet : Packet
  pa : Nat
  /-- page and scope of its translation (R194) -/
  scopes : List (Nat × Nat)
  /-- the leaf of its translation, which the other part shares where it lies in the same page (R62) -/
  level : Nat
  leaf : Dword
deriving DecidableEq, Repr

/-- Device memory and its stations (R54 to R71). -/
structure DevMem where
  bytes : Memory
  hdrs : List (Nat × Header)
  /-- blocks in uncorrectable error (R71), by block number -/
  bad : List Nat
  /-- root table: PA + 1 of the root of an ASID (R59) -/
  roots : List (Nat × Nat)
  tlb : List Tlb
  parks : List Park
  heldParts : List HeldPart
  /-- key slots: owner tenant + 1 (R61, R69) -/
  keys : List (Nat × Nat)
  /-- pages that the memory manager has refused to map, by ASID: the hub's own accesses to them are PROT (R64) -/
  denied : List (Nat × Nat)
  /-- the tenant that a 64 KiB frame belongs to, + 1: a frame that becomes another's reads as zeros (R70) -/
  frames : List (Nat × Nat)
deriving DecidableEq, Repr

/-- State of a pool record (R260). -/
inductive RecState where
  | waiting | pageWait | headerWait | ready | running
  /-- to be freed without having run: its completion record or its counter waits for its page (R265) -/
  | ending (status : Nat) (cancelled : Bool)
deriving DecidableEq, Repr

/-- A record of a tenant's pool (R259, R260). -/
structure PoolRec where
  index : Nat
  record : BitVec 512
  asid : Nat
  state : RecState
  /-- order of becoming READY; a pre-empted gang returns to the head -/
  order : Int
  header : BitVec 512
  depth : Nat
  job : Nat
  graph : Nat
  issuer : Option Nat
  host : Bool
  gang : Option Nat
deriving DecidableEq, Repr

/-- A reservation (R267). -/
structure Resv where
  owner : Nat
  x : Nat
  y : Nat
  w : Nat
  h : Nat
  age : Nat
deriving DecidableEq, Repr

/-- A graph or a job that has not ended (R263, R270): what is left of it. -/
structure Graph where
  id : Nat
  job : Nat
  left : Nat
  cancelling : Bool
deriving DecidableEq, Repr

/-- A tenant's context (R255). -/
structure Tenant where
  id : Nat
  x0 : Nat
  y0 : Nat
  w : Nat
  h : Nat
  displim : Nat
  debug : Bool
  owner : BitVec 384
  keySlot : Nat
  pool : List PoolRec
  res : Option Resv
  graphs : List Graph
  jobs : List Graph
  nextGraph : Nat
  nextJob : Nat
  order : Int
  /-- tenant slots granted to gangs, with the gang (R235) -/
  granted : List (Nat × Nat)
  /-- the event that a pass waits for has occurred (R267) -/
  passDue : Bool
deriving DecidableEq, Repr

/-- The root's view of a gang barrier (R274). -/
structure BarRoot where
  alloc : Bool
  members : List Nat
  arrived : List (Nat × Bool)
  phase : Bool
  phases : Nat
deriving DecidableEq, Repr

/-- The fault of a gang's completion record (R266, R286). -/
structure FaultRec where
  cause : Nat
  rank : Nat
  epc : Dword
  tval : Dword
deriving DecidableEq, Repr

/-- Where a gang stands. -/
inductive GangState where
  | loading | releasing | running | ending | preempting | saved
deriving DecidableEq, Repr

/-- A gang the scheduler has placed (R256 to R275, R290 to R295). -/
structure Gang where
  id : Nat
  tenant : Nat
  index : Nat
  x0 : Nat
  y0 : Nat
  w : Nat
  h : Nat
  state : GangState
  live : Nat
  fault : Option FaultRec
  cancelled : Bool
  dropped : Nat
  bars : List BarRoot
  cslots : List Nat
  /-- clusters still to be released, in order (R269 step 7) -/
  clusters : List Nat
  /-- a pre-emption asked for while loading or being restored (R295) -/
  preemptLater : Bool
  /-- the cores as saved, by rank (R293); a restore reads them -/
  saved : List Core
  /-- its save area, by address, in pages that no user ASID maps, and the KEY of those pages (R69, R293; log 23) -/
  area : Memory := []
  areaKey : Nat := 0
  restoring : Bool
  /-- its last END.EXIT has reached the scheduler, and is counted once the closes of the gang are over (R254, R270) -/
  leaving : Bool := false
deriving DecidableEq, Repr

/-- A leaf's report, on its way up the tree or at the root (R246; log 35). -/
structure Report where
  core : Nat
  count : Nat
  value : Dword
deriving DecidableEq, Repr

/-- A census in progress in a tenant slot (R237, R246). -/
structure Census where
  tenant : Nat
  slot : Nat
  op : Nat
  gang : Nat
  gslot : Nat
  /-- key, mask and argument of the solicit, which a restored core may still have to receive (R292) -/
  key : Nat
  kmask : Nat
  arg : Nat
  sent : List Report
  got : List Report
deriving DecidableEq, Repr

/-- A close in progress (R243): cores that have not acknowledged. -/
structure Closing where
  tenant : Nat
  slot : Nat
  gang : Nat
  gslot : Nat
  left : List Nat
deriving DecidableEq, Repr

/-- A cached dependence counter (R260); `dirty` once it has changed since its load (R343). -/
structure Counter where
  asid : Nat
  va : Nat
  value : Dword
  dirty : Bool
deriving DecidableEq, Repr

/-- An entry of the device log (R286, R330, R334); `tenant`: whose fault it is, none for an event of the device. -/
structure LogEntry where
  core : Nat
  slot : Nat
  cause : Nat
  tenant : Option Nat
deriving DecidableEq, Repr

/-- A message to the host: its session, the header of a reply (R333) and the body; a report that answers no command has opcode and SEQ
0 (log 32). -/
structure HostMsg where
  session : Nat
  header : BitVec 128
  body : List Dword
deriving DecidableEq, Repr

/-- The hub's scheduler, trees and logs. -/
structure Hub where
  tenants : List Tenant
  gangs : List Gang
  nextGang : Nat
  counters : List Counter
  census : List Census
  closings : List Closing
  log : List LogEntry
  /-- cycles of each hub core (R19) -/
  cycles : Vector Nat 8
  /-- cycle of the scheduler hub core at each tenant's last pass -/
  lastPass : List (Nat × Nat)
  /-- messages to the host so far, replies and reports; each goes out in its session (R325) -/
  host : List HostMsg
  /-- the last accepted SEQ of each session, 0 before the first (R333) -/
  seqs : List (Nat × Nat)
  operatorKey : Option (BitVec 384)
deriving DecidableEq, Repr

/-- A host window (R326). -/
structure Window where
  id : Nat
  va : Nat
  len : Nat
  haddr : Nat
  asid : Nat
deriving DecidableEq, Repr

/-- A 64-byte block's share of a host access, translated: VA, its station and physical address, where it stands in the access (R326). -/
structure HostBlock where
  va : Nat
  station : Nat
  pa : Nat
  off : Nat
  len : Nat
deriving DecidableEq, Repr

/-- A host access through a window (R326). -/
structure HostAccess where
  window : Window
  haddr : Nat
  /-- the bytes written; none for a read -/
  write : Option (List Byte)
  len : Nat
  /-- once translated, the blocks still to be read or written; and what has been read, by place -/
  todo : Option (List HostBlock)
  got : List (Nat × List Byte)
deriving DecidableEq, Repr

/-- A session (R325, R338). -/
structure Session where
  id : Nat
  tenant : Nat
  confirmed : Bool
  qt : BitVec 776
  nt : BitVec 256
  qd : BitVec 776
  nd : BitVec 256
  z : Option (BitVec 384)
  windows : List Window
  /-- host accesses not yet over, in the order received (R326) -/
  waiting : List HostAccess
deriving DecidableEq, Repr

/-- A key slot of one direction of a link (R323). -/
structure KeySlot where
  loaded : Bool
  ic : Nat
  salt : Word
  /-- a MARKER has ended its use; it retires when drained -/
  retiring : Bool
deriving DecidableEq, Repr

def KeySlot.reset : KeySlot := ⟨false, 0, 0, false⟩

/-- An unacknowledged flit with its replays (R324). -/
structure Sent where
  flit : Flit
  replays : Nat
deriving DecidableEq, Repr

/-- What a link carries whole: a fabric packet (R319), or a message of the Prenor link (R325, R333). -/
inductive Cargo where
  | packet (p : FabPacket)
  | message (bytes : List Byte)
deriving DecidableEq, Repr

/-- A link (R322 to R324). -/
structure LinkState where
  link : Link
  present : Bool
  up : Bool
  tx0 : KeySlot
  tx1 : KeySlot
  cur : Nat
  lseq : Nat
  unacked : List Sent
  /-- packets and messages not yet acknowledged whole, oldest first; bytes of theirs sealed into flits, and acknowledged -/
  queue : List Cargo
  sealed : Nat
  acked : Nat
  rx0 : KeySlot
  rx1 : KeySlot
  rxSeq : Nat
  nakSent : Bool
  rxBytes : List Byte
  /-- return flits to be sealed: TYPE and LSEQ -/
  owed : List (Nat × Nat)
  /-- key slots loaded so far in each direction (R338) -/
  txLoads : Nat
  rxLoads : Nat
deriving DecidableEq, Repr

def LinkState.reset (l : Link) : LinkState where
  link := l
  present := true
  up := true
  tx0 := KeySlot.reset
  tx1 := KeySlot.reset
  cur := 0
  lseq := 0
  unacked := []
  queue := []
  sealed := 0
  acked := 0
  rx0 := KeySlot.reset
  rx1 := KeySlot.reset
  rxSeq := 0
  nakSent := false
  rxBytes := []
  owed := []
  txLoads := 0
  rxLoads := 0

/-- Answers that a packet of a flow still expects: its source and tag (R321). -/
structure Asked where
  core : Nat
  tag : Tag
  left : Nat
deriving DecidableEq, Repr

/-- A flow (R321): the packets of one tenant for one device; what is unacknowledged end to end, and the port it left on. -/
structure Flow where
  tenant : Nat
  ddev : Nat
  route : Nat
  out : List Asked
  held : List Packet
  /-- the route the fabric manager wants next -/
  next : Option Nat
  port : Nat
deriving DecidableEq, Repr

/-- Answers that a flow still expects. -/
def Flow.unacked (fl : Flow) : Nat := (fl.out.map Asked.left).foldl (· + ·) 0

/-- The fabric (R317 to R321). -/
structure Fabric where
  device : Nat
  strapped : Bool
  routing : List (Nat × BitVec 128)
  links : List LinkState
  flows : List Flow
  sessions : List Session
  /-- the devices in each tenant's partition, as tenant and device (R52, R127) -/
  partition : List (Nat × Nat)
deriving DecidableEq, Repr

/-- The state of the hand-over machine (R341). -/
inductive Update where
  | idle | staged | quiescing | starting | resuming | failed
deriving DecidableEq, Repr

/-- A replacement of microcode (R344). -/
inductive Micro where
  | none | multicasting | switching | rollingBack
deriving DecidableEq, Repr

/-- A measurement entry (R336). -/
structure Measure where
  prov : Bool
  svn : Word
  version : Dword
  digest : BitVec 384
deriving DecidableEq, Repr

/-- The hub's firmware: mailboxes, the hand-over machine, measurements, microcode (R330 to R344). -/
structure Firmware where
  /-- mailbox (i, j) at 8 i + j: words oldest first -/
  boxes : Vector (List Dword) 64
  ovf : Vector (BitVec 8) 8
  ie : Vector (BitVec 8) 8
  /-- what each hub core's last read of a mailbox register gave (R331) -/
  reads : Vector Dword 8
  update : Update
  stagedImg : Option FwImage
  target : Nat
  oldMeasure : Option Measure
  record : Dword
  /-- the hand-over record in firmware memory, which no tenant page maps (R343) -/
  recordBytes : List Byte
  gate : Bool
  /-- session, opcode and SEQ of the UPDATE that awaits its reply -/
  asker : Option (Nat × Nat × Nat)
  /-- the watchdog has acted: a word of the target comes too late (R342) -/
  late : Bool
  watchdog : Option Nat
  measures : List Measure
  svnMin : List (Nat × Word)
  stopped : List Nat
  failedFns : List Nat
  handovers : List (Nat × Nat)
  micro : Micro
  reported : List Nat
deriving DecidableEq, Repr

/-- One turn of the agenda: which agent moves next (log 1). -/
inductive Turn where
  /-- a core's cycle: the slot R227 chooses issues -/
  | cycle (core : Nat)
  /-- n cycles of a core in which nothing issues -/
  | idle (core n : Nat)
  /-- a slot fetches a word ahead (R141; log 10) -/
  | prefetch (core slot offset : Nat)
  /-- the supervisor slot executes a word of its microcode (log 9) -/
  | micro (core : Nat) (word : BitVec 32)
  /-- a step of the part that no word encodes -/
  | event (i : Instr)
  /-- the memory manager writes a page-table dword, a root, a key owner (R59, R65) -/
  | mmWrite (pa : Nat) (x : Dword)
  | mmRoot (asid : Nat) (root : Option Nat)
  /-- a hub core's cycles pass (R19) -/
  | hubTick (core n : Nat)
  /-- a router cycle: did set-up reach it (R316)? -/
  | router (n : Nat) (setup : Bool)
  /-- the sender of a link seals the next flit of a type (R322) -/
  | seal (l : Link) (typ : Nat)
  /-- the fabric manager writes a routing entry (R318) -/
  | routing (point : Nat) (e : BitVec 128)
  /-- the scheduler evicts a counter, writing it back (R260) -/
  | evict (asid va : Nat)
  /-- the fabric manager writes a tenant's entry, membership included, before its first gang (R311) -/
  | partition (tenant : Nat) (e : Dword)
  /-- the hub translates a host access of a session, or tries to, and carries out a block of it (R326) -/
  | hostStep (session access block : Nat)
  /-- a base die corrects an error of a block (R71) -/
  | corrected (pa : Nat)
  /-- a mesh flit meets an uncorrectable soft error, is discarded and driven again (R313) -/
  | flitError (router : Nat)
  /-- a hub core reads a mailbox register (R331) -/
  | mailRead (self offset width : Nat)
  /-- the fabric manager places a device in a tenant's partition, or takes it out (R52, R127) -/
  | placeDevice (tenant dev : Nat) (placed : Bool)
deriving DecidableEq, Repr

/-- The part. -/
structure State where
  /-- whose instruction is executing: core and slot, 4 the supervisor slot -/
  issuer : Nat × Fin 5
  cores : List (Nat × Core)
  net : List Packet
  mesh : Mesh
  mem : DevMem
  hub : Hub
  fab : Fabric
  fw : Firmware
  agenda : List Turn
  fresh : Nat
deriving DecidableEq, Repr

def Mesh.reset : Mesh := ⟨[], [], [], [], 1, 0, none, none, []⟩

def DevMem.reset : DevMem := ⟨[], [], [], [], [], [], [], [], [], []⟩

def Hub.reset : Hub where
  tenants := []
  gangs := []
  nextGang := 1
  counters := []
  census := []
  closings := []
  log := []
  cycles := Vector.replicate 8 0
  lastPass := []
  host := []
  seqs := []
  operatorKey := none

/-- A package that stands alone: no fabric port reports a link; session 0 of the Prenor link (R317, R325). -/
def Fabric.reset : Fabric where
  device := 0
  strapped := false
  routing := []
  links := [LinkState.reset (.prenor 0)]
  flows := []
  sessions := []
  partition := []

def Measure.reset : Measure := ⟨false, 0, 0, 0⟩

def Firmware.reset : Firmware where
  boxes := Vector.replicate 64 []
  ovf := Vector.replicate 8 0
  ie := Vector.replicate 8 0
  reads := Vector.replicate 8 0
  update := .idle
  stagedImg := none
  target := 0
  oldMeasure := none
  record := 0
  recordBytes := []
  gate := false
  asker := none
  late := false
  watchdog := none
  measures := List.replicate 10 Measure.reset
  svnMin := []
  stopped := []
  failedFns := []
  handovers := []
  micro := .none
  reported := []

/-- The machine right after package reset. -/
def State.reset : State where
  issuer := (0, 0)
  cores := []
  net := []
  mesh := Mesh.reset
  mem := DevMem.reset
  hub := Hub.reset
  fab := Fabric.reset
  fw := Firmware.reset
  agenda := []
  fresh := 0

end Sys2Proof.Machine
end

