-- ==== Sys2Proof/Machine/Ops.lean ====
section
/-! DEFINITION. The named operations over cores, slots and registers; taking a trap (R278), returning from one (R281) and
the gang fault (R286). -/

namespace Sys2Proof.Machine

/-- Cause codes (R276). -/
def causeIllegal : Nat := 0x01
def causeAlign : Nat := 0x02
def causeLsbound : Nat := 0x03
def causeRange : Nat := 0x04
def causeRefused : Nat := 0x05
def causeRoute : Nat := 0x06
def causeXlate : Nat := 0x07
def causeProt : Nat := 0x08
def causeAddr : Nat := 0x09
def causeMemerr : Nat := 0x0A
def causeChovf : Nat := 0x0B
def causeTrapi : Nat := 0x0C
def causeBreak : Nat := 0x0D
def causePriv : Nat := 0x0E
def causeHdr : Nat := 0x0F
def causeAggf : Nat := 0x10

/-! Hub functions (R330) -/

/-- Is the image of hub function f absent: not started, stopped, or being replaced (R330, R335, R341)? -/
def Firmware.absent (w : Firmware) (f : Nat) : Bool :=
  w.failedFns.contains f || w.stopped.contains f
    || (decide (w.target = f) && (decide (w.update = .starting) || decide (w.update = .resuming) || decide (w.update = .failed)))

/-! Cores and slots -/

def State.core (s : State) (c : Nat) : Core := sget Core.reset s.cores c

def State.setCore (s : State) (c : Nat) (k : Core) : State := { s with cores := sset Core.reset s.cores c k }

def State.modCore (s : State) (c : Nat) (f : Core → Core) : State := s.setCore c (f (s.core c))

def Core.slot (k : Core) (i : Fin 5) : Slot := k.slots[i]

def Core.setSlot (k : Core) (i : Fin 5) (x : Slot) : Core := { k with slots := k.slots.set i x }

def Core.modSlot (k : Core) (i : Fin 5) (f : Slot → Slot) : Core := k.setSlot i (f (k.slot i))

def State.modSlot (s : State) (c : Nat) (i : Fin 5) (f : Slot → Slot) : State := s.modCore c (fun k => k.modSlot i f)

/-- A slot number as it stands in a mask or a request. -/
def slotNo (n : Nat) : Fin 5 := Fin.ofNat 5 n

/-- The core whose instruction is executing. -/
def State.here (s : State) : Core := s.core s.issuer.1

/-- The slot whose instruction is executing. -/
def State.me (s : State) : Slot := s.here.slot s.issuer.2

def State.modHere (s : State) (f : Core → Core) : State := s.modCore s.issuer.1 f

def State.modMe (s : State) (f : Slot → Slot) : State := s.modSlot s.issuer.1 s.issuer.2 f

/-- Is the issuing slot a user slot (R13)? -/
def State.user (s : State) : Bool := decide (s.issuer.2.val < 4)

/-! Registers (R21 to R23) -/

/-- The number of a general or vector register. -/
def regNo (r : BitVec 5) : Fin 32 := r.toFin

/-- The number of a mask register. -/
def maskNo (r : BitVec 3) : Fin 8 := r.toFin

/-- A general register; g0 reads zero (R21). -/
def Slot.reg (x : Slot) (r : BitVec 5) : Dword := if r = 0 then 0 else x.g[regNo r]

/-- Write a general register; a write to g0 is discarded (R21). -/
def Slot.setReg (x : Slot) (r : BitVec 5) (v : Dword) : Slot :=
  if r = 0 then x else { x with g := x.g.set (regNo r) v }

def Slot.vreg (x : Slot) (r : BitVec 5) : VReg := x.v[regNo r]

def Slot.setVreg (x : Slot) (r : BitVec 5) (v : VReg) : Slot := { x with v := x.v.set (regNo r) v }

/-- A mask register; m0 reads all ones (R22). -/
def Slot.mask (x : Slot) (r : BitVec 3) : Dword := if r = 0 then BitVec.allOnes 64 else x.m[maskNo r]

/-- Write a mask register; a write to m0 is discarded (R22). -/
def Slot.setMask (x : Slot) (r : BitVec 3) (v : Dword) : Slot :=
  if r = 0 then x else { x with m := x.m.set (maskNo r) v }

def State.reg (s : State) (r : BitVec 5) : Dword := s.me.reg r
def State.vreg (s : State) (r : BitVec 5) : VReg := s.me.vreg r
def State.mask (s : State) (r : BitVec 3) : Dword := s.me.mask r
def State.pc (s : State) : Dword := s.me.pc

def State.setReg (s : State) (r : BitVec 5) (v : Dword) : State := s.modMe (fun x => x.setReg r v)
def State.setVreg (s : State) (r : BitVec 5) (v : VReg) : State := s.modMe (fun x => x.setVreg r v)
def State.setMask (s : State) (r : BitVec 3) (v : Dword) : State := s.modMe (fun x => x.setMask r v)
def State.setPc (s : State) (a : Dword) : State := s.modMe (fun x => { x with pc := a })

/-- Retire: the next instruction of the slot is the one that follows. -/
def State.advance (s : State) : State := s.setPc (s.pc + 4)

/-- Retire with a result in a general register. -/
def State.retire (s : State) (d : BitVec 5) (v : Dword) : State := s.modMe (fun x => { x.setReg d v with pc := x.pc + 4 })

/-- Retire with a result in a vector register. -/
def State.retireV (s : State) (d : BitVec 5) (v : VReg) : State := s.modMe (fun x => { x.setVreg d v with pc := x.pc + 4 })

/-- Retire with a result in a mask register. -/
def State.retireM (s : State) (d : BitVec 3) (v : Dword) : State := s.modMe (fun x => { x.setMask d v with pc := x.pc + 4 })

/-! Pending registers (R136) -/

/-- A register an instruction reads or writes. -/
inductive RegRef where
  | g (r : BitVec 5)
  | v (r : BitVec 5)
deriving DecidableEq, Repr

/-- The register a request will write; a request to g0 writes none (R136). -/
def ReqKind.target : ReqKind → Option RegRef
  | .load d _ _ | .ldhdr d | .amo d _ _ _ _ => if d = 0 then none else some (.g d)
  | .vload d | .vlanes d | .vdec d _ => some (.v d)

/-- Is a register of a slot pending? -/
def Core.pending (k : Core) (i : Fin 5) (r : RegRef) : Bool :=
  k.ni.reqs.any (fun q => decide (q.slot = i.val) && decide (q.act = (k.slot i).act) && decide (q.kind.target = some r))

/-- Is some register of the issuing slot among these pending? -/
def State.pendingAny (s : State) (rs : List RegRef) : Bool := rs.any (fun r => s.here.pending s.issuer.2 r)

/-! Gangs -/

def Hub.gang (h : Hub) (id : Nat) : Option Gang := h.gangs.find? (fun g => decide (g.id = id))

def State.gang (s : State) (id : Nat) : Option Gang := s.hub.gang id

def State.modGang (s : State) (id : Nat) (f : Gang → Gang) : State :=
  { s with hub := { s.hub with gangs := s.hub.gangs.map (fun g => if g.id = id then f g else g) } }

def State.tenant (s : State) (id : Nat) : Option Tenant := s.hub.tenants.find? (fun t => decide (t.id = id))

def State.modTenant (s : State) (id : Nat) (f : Tenant → Tenant) : State :=
  { s with hub := { s.hub with tenants := s.hub.tenants.map (fun t => if t.id = id then f t else t) } }

/-- A core's number from its place in the grid (R10). -/
def coreAt (x y : Nat) : Nat := 72 * y + x

/-- The core of rank r of a rectangle of width w with its origin at (x0, y0) (R50). -/
def rankCore (x0 y0 w r : Nat) : Nat := coreAt (x0 + r % w) (y0 + r / w)

/-- The cores of a rectangle, rank by rank. -/
def rectCores (x0 y0 w h : Nat) : List Nat := (List.range (w * h)).map (rankCore x0 y0 w)

def Gang.cores (g : Gang) : List Nat := rectCores g.x0 g.y0 g.w g.h

/-- The device log keeps its last 4,096 entries: R330 says so of its buffer while the error handler's image is replaced, and of no other
time (log 94). -/
def Hub.note (h : Hub) (e : LogEntry) : Hub := { h with log := (if 4096 ≤ h.log.length then h.log.tail else h.log) ++ [e] }

/-- The error handler is told of an event of the device. -/
def reportLink (s : State) : State := { s with hub := s.hub.note ⟨0, 7, 0, none⟩ }

/-! Messages to the host (R325, R333; log 32) -/

/-- The header of a reply (R333). -/
def replyHeader (opcode status seq len : Nat) : BitVec 128 := BitVec.ofNat 128 (opcode % 65536 + status % 256 * 2 ^ 16 + seq % 2 ^ 32 * 2 ^ 64 + len % 2 ^ 32 * 2 ^ 96)

/-- The bytes of a message. -/
def HostMsg.bytes (m : HostMsg) : List Byte := leBytes 16 m.header.toNat ++ m.body.flatMap (fun x => leBytes 8 x.toNat)

/-- A message goes to a session: it is queued at the session's link. -/
def State.tellHost (s : State) (session opcode status seq : Nat) (words : List Dword) : State :=
  let m : HostMsg := ⟨session, replyHeader opcode status seq (8 * words.length), words⟩
  { s with hub := { s.hub with host := s.hub.host ++ [m] },
           fab := { s.fab with links := s.fab.links.map (fun l => if l.link = .prenor session then { l with queue := l.queue ++ [.message m.bytes] } else l) } }

/-- The confirmed sessions of a tenant (R338). -/
def State.sessionsOf (s : State) (tenant : Nat) : List Nat :=
  (s.fab.sessions.filter (fun x => x.confirmed && decide (x.id ≠ 0) && decide (x.tenant = tenant))).map Session.id

/-- A message to a tenant's confirmed sessions that answers no command. -/
def State.tellTenant (s : State) (tenant : Nat) (words : List Dword) : State :=
  (s.sessionsOf tenant).foldl (fun s n => s.tellHost n 0 0 0 words) s

/-- Every fault is logged by the error handler hub core (R286, R330). -/
def State.logFault (s : State) (c slot cause : Nat) : State := { s with hub := s.hub.note ⟨c, slot, cause, some (s.core c).tenant⟩ }

/-- Does a gang already end? -/
def Gang.ending (g : Gang) : Bool := decide (g.state = .ending)

/-- A gang begins to end with a fault: the fault that comes first is recorded (R265, R266, R286). A gang being saved, or
already saved, loses its save (R295); one whose last END.EXIT has reached the scheduler ends normally (R270). -/
def Gang.fail (g : Gang) (f : FaultRec) : Gang :=
  if g.ending || g.leaving then g else { g with state := .ending, fault := some f, saved := [], area := [] }

/-- Does the gang of a core already end (R265)? -/
def State.endingAt (s : State) (c : Nat) : Bool := ((s.core c).gang.bind s.gang).any Gang.ending

/-- A fault of the supervisor slot of a core that has switched to new microcode ends the replacement (R344). -/
def microFault (s : State) (c : Nat) (i : Fin 5) : State :=
  if i = 4 ∧ (s.core c).ctl.switched = true ∧ s.fw.micro = .switching then { s with fw := { s.fw with micro := .rollingBack } } else s

/-- The gang of core `c` ends with a fault that has been logged (R286). -/
def endFaulty (s : State) (c cause : Nat) (epc tval : Dword) : State :=
  let k := s.core c
  match k.gang with
  | none => s
  | some id => s.modGang id (fun g => g.fail ⟨cause, k.page.rank, epc, tval⟩)

/-- The same for one that a slot has raised, which issues no more. -/
def failGang (s : State) (c : Nat) (i : Fin 5) (cause : Nat) (epc tval : Dword) : State :=
  endFaulty ((microFault s c i).modSlot c i (fun x => if x.state = .free then x else { x with state := .stopped })) c cause epc tval

/-- A slot of core `c` raises a fault of its gang, which is logged. -/
def gangFault (s : State) (c : Nat) (i : Fin 5) (cause : Nat) (epc tval : Dword) : State := failGang (s.logFault c i.val cause) c i cause epc tval

/-- A fault of the gang that no slot raised: an engine's, or one a packet brings back. -/
def gangFaultAt (s : State) (c slot cause : Nat) (epc tval : Dword) : State := endFaulty (s.logFault c slot cause) c cause epc tval

/-- A fatal fault of the executing instruction: it applies nothing (R29, R277, R286). -/
def fatal (s : State) (cause : Nat) (tval : Dword) : State := gangFault s s.issuer.1 s.issuer.2 cause s.pc tval

/-! Traps -/

/-- The trap vector in use: [19:2] of TRAPVEC (R25, R278). -/
def Core.trapEntry (k : Core) : Dword := k.ctl.trapvec &&& 0xFFFFC#64

/-- Enter a user trap of a slot (R278): CAUSE, TVAL, EPC and INTRAP are set and the pc goes to the trap entry; without an
entry, inside a trap, or in the supervisor slot, which has no trap of its own (log 29), the gang faults instead. -/
def enterTrap (s : State) (c : Nat) (i : Fin 5) (cause : Nat) (tval epc : Dword) : State :=
  if (s.core c).trapEntry = 0 ∨ ((s.core c).slot i).intrap = true ∨ i = 4 then failGang s c i cause epc tval
  else
    s.modSlot c i (fun x =>
      { x with cause := BitVec.ofNat 8 cause, tval := tval, epc := epc, intrap := true, fencing := false, pc := (s.core c).trapEntry })

/-- Take a user trap in a slot; it is logged (R278, R286). -/
def takeUserTrap (s : State) (c : Nat) (i : Fin 5) (cause : Nat) (tval epc : Dword) : State := enterTrap (s.logFault c i.val cause) c i cause tval epc

/-- A synchronous user trap of the executing instruction, which changes nothing else: EPC is its own offset (R278). -/
def trapHere (s : State) (cause : Nat) (tval : Dword) : State :=
  takeUserTrap s s.issuer.1 s.issuer.2 cause tval s.pc

/-- Return from a user trap (R281). -/
def returnFromTrap (s : State) (word : BitVec 32) : State :=
  let x := s.me
  let t : Dword := x.epc &&& 0xFFFFF#64
  if s.user = false then s.advance
  else if x.intrap = false then fatal s causeIllegal (zext word)
  else if t.extractLsb' 0 2 ≠ 0#2 then fatal s causeAlign t
  else s.modMe (fun x => { x with intrap := false, pc := t })

/-! Packets -/

/-- Is a node a core of a foreign device? What goes to it or comes from it crosses the package on HUB (R308). -/
def isForeign : Node → Bool
  | .foreign _ _ => true
  | _ => false

/-- Is the packet an answer to a request? -/
def isAnswer (p : Packet) : Bool :=
  match p.body with
  | .ack _ | .nak _ _ _ | .reply _ _ | .held => true
  | _ => false

/-- The packet as it leaves: a core's crosses the mesh in the core's next cycle at the earliest (R18). -/
def State.stamp (s : State) (p : Packet) : Packet :=
  match p.src with
  | .core c => { p with due := (s.core c).cycle + 1 }
  | _ => p

/-- Put a packet on its way (R308). -/
def State.send (s : State) (p : Packet) : State := { s with net := s.net ++ [s.stamp p] }

/-- Has a packet had the time to cross? -/
def State.crossed (s : State) (p : Packet) : Bool :=
  match p.src with
  | .core c => decide (p.due ≤ (s.core c).cycle)
  | _ => true

/-- Draw the number a free value is applied to. -/
def State.draw (s : State) : State := { s with fresh := s.fresh + 1 }

end Sys2Proof.Machine
end

