-- ==== Sys2Proof/Machine/Operands.lean ====
section
/-! DEFINITION. Address forms (R49 to R52), the core window and its checks (R112, R117, R121), the gang page (R119), the
block headers of a core, and stations (R58). -/

namespace Sys2Proof.Machine

/-- What an address names (R49). -/
inductive Place where
  | own (off : Nat)
  | peer (core off : Nat)
  | foreign (dev core off : Nat)
  | va (a : Nat)
  | bad
deriving DecidableEq, Repr

/-- A peer core from its x and y (R10). -/
def gridPlace (foreignDev : Option Nat) (x y off : Nat) : Place :=
  if 72 ≤ x then .bad
  else match foreignDev with
    | none => .peer (coreAt x y) off
    | some d => .foreign d (coreAt x y) off

/-- A gang-relative peer address (R50). -/
def rankPlace (p : GangPage) (r off : Nat) : Place :=
  if r < p.width * p.height then .peer (rankCore p.orgx p.orgy p.width r) off else .bad

/-- Decode a 64-bit address (R49, R50, R52); `dev` is the issuing device's number. -/
def decodeAddr (p : GangPage) (dev : Nat) (a : Dword) : Place :=
  let x := a.toNat
  match nbits x 63 62 with
  | 0 => if nbits x 61 20 = 0 then .own (nbits x 19 0) else .bad
  | 1 =>
    let tag := nbits x 61 40
    if nbits x 39 33 ≠ 0 then .bad
    else if tag = 0x3FFFFE then rankPlace p (nbits x 32 20) (nbits x 19 0)
    else if tag = 0x3FFFFF ∨ tag = dev then gridPlace none (nbits x 32 26) (nbits x 25 20) (nbits x 19 0)
    else gridPlace (some tag) (nbits x 32 26) (nbits x 25 20) (nbits x 19 0)
  | _ => if nbits x 62 56 = 0 then .va (nbits x 55 0) else .bad

/-- The place an address names for the issuing core. -/
def State.place (s : State) (a : Dword) : Place := decodeAddr s.here.page s.fab.device a

/-- The translation station of a VA (R58). -/
def stationOf (va : Nat) : Nat := nbits va 21 16 ^^^ nbits va 27 22 ^^^ nbits va 29 28

/-- The destination an access to a place is sent to (R187). -/
def Place.dest : Place → Option Node
  | .peer c _ => some (.core c)
  | .foreign d c _ => some (.foreign d c)
  | .va a => some (.station (stationOf a))
  | _ => none

/-! The gang page (R119) -/

/-- The 256 bytes of the gang page. -/
def GangPage.bytes (p : GangPage) : List Byte :=
  leBytes 4 p.rank ++ leBytes 4 p.gangId.toNat ++ leBytes 4 p.tenant.toNat ++ leBytes 2 p.orgx ++ leBytes 2 p.orgy
    ++ leBytes 2 p.width ++ leBytes 2 p.height ++ leBytes 2 p.rootcore ++ leBytes 2 p.depth ++ leBytes 4 p.graph.toNat
    ++ leBytes 4 p.job.toNat ++ leBytes 4 p.lsbytes ++ leBytes 1 p.nchan ++ leBytes 1 p.npat ++ leBytes 1 p.nslot
    ++ leBytes 1 p.nbar ++ leBytes 1 p.ncen ++ leBytes 1 p.prio ++ leBytes 86 0 ++ leBytes 128 p.shape.toNat

/-- A byte of the window a load may read: gang page, local store, accumulator store (R117). -/
def Core.ownByte (k : Core) (off : Nat) : Byte :=
  if off < 0x100 then k.page.bytes.getD off 0
  else if off < 0x60000 then readByte k.ls off
  else readByte k.acc (off - 0x80000)

/-- Bytes of the window, the lowest offset first. -/
def Core.ownBytes (k : Core) (off n : Nat) : List Byte := (List.range n).map (fun i => k.ownByte (off + i))

/-- The little-endian value of n bytes of the window (R1). -/
def Core.ownLE (k : Core) (off n : Nat) : Nat := leNat (k.ownBytes off n)

/-- Write bytes into the local store. -/
def Core.writeLs (k : Core) (off : Nat) (bs : List Byte) : Core := { k with ls := writeBytes k.ls off bs }

/-- The header of the block that holds an offset (R72, R120, R170). -/
def Core.header (k : Core) (off : Nat) : Header :=
  if off < 0x100 then 0
  else if off < 0x60000 then sget 0 k.lsHdr (off / 64)
  else sget k.accBase k.accHdr ((off - 0x80000) / 64)

/-- Write the header of a local-store block. -/
def Core.setLsHdr (k : Core) (off : Nat) (h : Header) : Core := { k with lsHdr := sset 0 k.lsHdr (off / 64) h }

/-- The 64 bytes of a block of the window as one value (R77). -/
def Core.block (k : Core) (off : Nat) : Block := BitVec.ofNat 512 (k.ownLE off 64)

/-! Checks of an own-core access by a slot -/

/-- Is an offset in a reserved part of the window (R49, R117)? -/
def reservedOffset (off : Nat) : Bool :=
  (decide (0x60000 ≤ off) && decide (off < 0x80000)) || (decide (0x90000 ≤ off) && decide (off < 0xC0000))
    || (decide (0xC0400 ≤ off) && decide (off < 0xD0000)) || (decide (0xDC000 ≤ off) && decide (off < 0xE0000)) || decide (0xF0000 ≤ off)

/-- What an access of a user slot at one offset faults with (R117, R121). LDD and
STD reach the window registers apart; any other width faults ADDR there (R123). -/
def regionFault (lsbytes : Nat) (write : Bool) (off : Nat) : Option Nat :=
  if off < 0x100 then (if write then some causePriv else none)
  else if off < 0x60000 then (if off < lsbytes then none else some causeLsbound)
  else if off < 0x80000 then some causeAddr
  else if off < 0x90000 then (if write then some causeAddr else none)
  else if off < 0xD0000 then some causeAddr
  else if off < 0xDC000 then some causePriv
  else if off < 0xE0040 then some causeAddr
  else if off < 0xF0000 then some causePriv
  else some causeAddr

/-- The same for the supervisor slot, which no bound of the gang's code and no lock checks (R289): the windows are reached
by LDD and STD alone, apart. -/
def supervisorFault (write : Bool) (off : Nat) : Option Nat :=
  if off < 0x60000 then none
  else if off < 0x80000 then some causeAddr
  else if off < 0x90000 then (if write then some causeAddr else none)
  else some causeAddr

/-- Does a range lock refuse a user slot this byte (R112)? -/
def Core.lockHits (k : Core) (write : Bool) (off : Nat) : Bool :=
  k.locks.toList.any (fun o => match o with
    | some l => decide (l.base ≤ off) && decide (off < l.limit) && (write || l.dest)
    | none => false)

/-- The check of one byte: the cause it faults with, and TVAL for the causes that name an offset (R276). -/
def Core.byteFault (k : Core) (user write : Bool) (off : Nat) : Option Nat :=
  if user then
    match regionFault k.page.lsbytes write off with
    | some c => some c
    | none => if k.lockHits write off then some causeRange else none
  else supervisorFault write off

/-- The lowest byte of [off, off + n) that fails its check, with the cause (R135, R153). -/
def Core.firstFault (k : Core) (user write : Bool) (off : Nat) : Nat → Option (Nat × Nat)
  | 0 => none
  | n + 1 =>
    match k.byteFault user write off with
    | some c => some (c, off)
    | none => k.firstFault user write (off + 1) n

/-- Raise what a check found: RANGE is a user trap and the rest is fatal; LSBOUND and RANGE name the offset, the rest the
address as issued (R276; log 15). -/
def raise (s : State) (ea : Dword) (f : Nat × Nat) : State :=
  if f.1 = causeRange then trapHere s causeRange (BitVec.ofNat 64 f.2)
  else if f.1 = causeLsbound then fatal s causeLsbound (BitVec.ofNat 64 f.2)
  else fatal s f.1 ea

/-- A header access occupies its whole block (R112, R139). -/
def Core.hdrFault (k : Core) (user write : Bool) (off : Nat) : Option (Nat × Nat) := k.firstFault user write off 64

/-- Is [off, off + n) local store the gang's own code may name as an operand: from 0x100 to LSBYTES? -/
def Core.inStore (k : Core) (off n : Nat) : Bool := decide (0x100 ≤ off) && decide (off + n ≤ k.page.lsbytes)

end Sys2Proof.Machine
end

