-- ==== Sys2Proof/Machine/Channels.lean ====
section
/-! DEFINITION. Channels: queues with spill rings, counts, credits and device-generated messages (R211 to R214). -/

namespace Sys2Proof.Machine

/-- The number of a channel. -/
def chanNo (c : Nat) : Fin 64 := Fin.ofNat 64 c

def Core.chan (k : Core) (c : Nat) : Channel := k.chans[chanNo c]

def Core.setChan (k : Core) (c : Nat) (x : Channel) : Core := { k with chans := k.chans.set (chanNo c) x }

/-- Is c a declared MSG channel? -/
def Core.isMsg (k : Core) (c : Nat) : Bool := decide (c < 64) && (k.chan c).decl && !(k.chan c).count

/-- Is c a declared COUNT channel? -/
def Core.isCount (k : Core) (c : Nat) : Bool := decide (c < 64) && (k.chan c).decl && (k.chan c).count

/-- Messages a MSG channel holds, hardware queue and ring together (R214). -/
def Channel.held (x : Channel) : Nat := x.msgs.length + x.spill

/-- Is a MSG channel full (R213)? -/
def Channel.full (x : Channel) : Bool := decide (8 + x.rent ≤ x.held)

/-- A ring entry as bytes (R212). -/
def ringBytes (m : Dword × BitVec 16) : List Byte := leBytes 8 m.1.toNat ++ leBytes 2 m.2.toNat ++ leBytes 6 0

/-- Append a message: to the hardware queue while the ring is empty and the queue has room, else at the ring's tail
(R212). For a channel with room. -/
def Core.push (k : Core) (c : Nat) (m : Dword × BitVec 16) : Core :=
  let x := k.chan c
  if x.spill = 0 ∧ x.msgs.length < 8 then k.setChan c { x with msgs := x.msgs ++ [m], cnt := x.cnt + 1 }
  else (k.writeLs (x.roff + 16 * ((x.rhead + x.spill) % x.rent)) (ringBytes m)).setChan c { x with spill := x.spill + 1, cnt := x.cnt + 1 }

/-- Take the head message; the oldest ring entry moves into the hardware queue in the same instant (R212). -/
def Core.pop (k : Core) (c : Nat) : Core :=
  let x := k.chan c
  let rest := x.msgs.drop 1
  if x.spill = 0 then k.setChan c { x with msgs := rest, cnt := x.cnt - 1 }
  else
    let a := x.roff + 16 * x.rhead
    let m : Dword × BitVec 16 := (BitVec.ofNat 64 (readLE k.ls a 8), BitVec.ofNat 16 (readLE k.ls (a + 8) 2))
    k.setChan c { x with msgs := rest ++ [m], cnt := x.cnt - 1, spill := x.spill - 1, rhead := (x.rhead + 1) % x.rent }

/-- The largest count (R211). -/
def countMax : Nat := 2 ^ 48 - 1

/-- Add to a COUNT channel, unless the count would pass 2^48 − 1 (R213). -/
def Core.credit (k : Core) (c n : Nat) : Option Core :=
  let x := k.chan c
  if countMax < x.cnt + n then none else some (k.setChan c { x with cnt := x.cnt + n })

/-- The sender fields of R24. -/
def senderHub : BitVec 16 := 0x1FFF
def senderCount : BitVec 16 := 0x1FFE

/-- The error handler logs a discarded message (R213). -/
def State.logDiscard (s : State) (c : Nat) : State := s.logFault c 7 0

/-- A message the device generates for a channel of core c (R213): discarded when the channel is no declared MSG channel,
held while it is full or an earlier one waits. The Bool says whether it has entered or been discarded. -/
def deviceMessage (s : State) (c ch : Nat) (payload : Dword) (sender : BitVec 16) (src : Source) : State × Bool :=
  let k := s.core c
  if k.isMsg ch = false then (s.logDiscard c, true)
  else if (k.chan ch).full ∨ k.held.any (fun m => decide (m.ch = ch)) then
    (s.setCore c { k with held := k.held ++ [⟨ch, payload, sender, src⟩] }, false)
  else (s.setCore c (k.push ch (payload, sender)), true)

/-- The payload of an engine's completion message (R37). -/
def completionPayload (engine status ticket info : Nat) : Dword :=
  BitVec.ofNat 64 (min info (2 ^ 32 - 1) * 2 ^ 32 + engine % 16 * 2 ^ 24 + status % 256 * 2 ^ 16 + ticket % 65536)

/-- The sender field of a message from a core (R24): its rank for a core of the receiver's gang, else its core number. -/
def senderOf (target : Core) (srcCore : Nat) (src : Core) (foreign : Bool) : BitVec 16 :=
  if foreign then BitVec.ofNat 16 (0x8000 + srcCore % 8192)
  else if target.gang.isSome ∧ target.gang = src.gang then BitVec.ofNat 16 (src.page.rank % 8192)
  else BitVec.ofNat 16 (srcCore % 8192)

end Sys2Proof.Machine
end

