-- ==== Sys2Proof/Machine/Ni.lean ====
section
/-! DEFINITION. The network interface: routing a core's packets (R312), aggregation buffers (R187 to R191), retention (R192),
scope (R194), requests (R136), releases and acquires (R201), the fault ring (R208 to R210) and re-sending (R207, R284). -/

namespace Sys2Proof.Machine

def Core.modNi (k : Core) (f : Ni → Ni) : Core := { k with ni := f k.ni }

/-! Leaving the core -/

/-- The partition entry in use for a tenant (R311). -/
def Mesh.entry (m : Mesh) (t : Nat) : Dword := sget 0 (if sget 0 m.bankSel t = 0 then m.bank0 else m.bank1) t

/-- Does a core lie in the rectangle of a partition entry (R311)? -/
def inEntry (e : Dword) (c : Nat) : Bool :=
  decide (field e 44 38 ≤ c % 72) && decide (c % 72 ≤ field e 57 51) && decide (field e 37 32 ≤ c / 72) && decide (c / 72 ≤ field e 50 45)

/-- Does the sender's router admit a CLASS 0 packet of tenant t from core `src` to core `dst` (R312)? -/
def Mesh.admits (m : Mesh) (t src dst : Nat) : Bool :=
  inEntry (BitVec.ofNat 64 (sget 0 m.members t)) src && decide (sget 0 m.members t ≠ 0)
    && bit (m.entry t) 63 && inEntry (m.entry t) dst

/-- Does a foreign device number name a device (R52, R317)? -/
def Fabric.names (f : Fabric) (dev : Nat) : Bool := f.strapped && decide (dev % 2048 < 1057)

/-- Does a device lie in a tenant's partition (R52, R127)? -/
def Fabric.placed (f : Fabric) (tenant dev : Nat) : Bool := f.partition.contains (tenant, dev)

/-- Can the packet be routed from core c (R52, R312)? -/
def State.routable (s : State) (c : Nat) (p : Packet) : Bool :=
  match p.dst with
  | .core d => s.mesh.admits p.tenant c d
  | .foreign dev _ => s.fab.names dev && s.fab.placed p.tenant dev
  | _ => true

/-- The address a request names. -/
def Body.addr : Body → Dword
  | .elements es _ | .applying es _ _ => (es.head?.map Element.addr).getD 0
  | .partway _ todo _ _ _ => (todo.head?.map BlockPart.va).getD 0
  | .load a _ _ | .heldLoad a _ | .heldWrite a _ | .amo a _ _ _ _ | .hdrRead a | .hdrWrite a _ | .block a _ _ _ _ | .send a _ _ => a
  | _ => 0

/-- The packet that answers a refused one (R312). -/
def routeNak (c : Nat) (p : Packet) : Packet :=
  { src := .core c, dst := .core c, vc := .rsp, tenant := p.tenant, asid := p.asid, gang := p.gang, slot := p.slot, tag := p.tag, body := .nak causeRoute false (Body.addr p.body) }

/-- A core puts a packet on the mesh; its own router refuses what it cannot route with a NAK of cause ROUTE (R312). -/
def State.inject (s : State) (c : Nat) (p : Packet) : State :=
  if s.routable c p then s.send p else s.send (routeNak c p)

/-- A packet of core c in the name of its gang. -/
def Core.packet (k : Core) (c : Nat) (dst : Node) (slot : Nat) (tag : Tag) (b : Body) : Packet :=
  { src := .core c, dst := dst, vc := if isForeign dst then .hub else .req, tenant := k.tenant, asid := k.asid, gang := k.gang.getD 0, slot := slot, tag := tag, body := b }

/-! Buffers -/

/-- Is the destination a translation station? It carries no CDC (R195). -/
def isStationNode : Node → Bool
  | .station _ => true
  | _ => false

/-- Is the destination a core of this device, on CLASS 0 (R309)? -/
def isCoreNode : Node → Bool
  | .core _ => true
  | _ => false

/-- Can a packet for `dest` leave: room for `n` retained packets, and no HOLD on CLASS 0 (R190, R192, R314)? -/
def Ni.room (ni : Ni) (dest : Node) (n : Nat) : Bool :=
  !(ni.hold && isCoreNode dest) && decide (ni.retained.length + n ≤ 32)

/-- The buffer of a destination, with its number (R188). -/
def Ni.bufferOf (ni : Ni) (dest : Node) : Option (Fin 16 × Buffer) :=
  (List.finRange 16).findSome? (fun i => match ni.bufs[i] with
    | some b => if b.dest = dest then some (i, b) else none
    | none => none)

/-- Elements enter the retention store as sent items. -/
def sentItems (es : List Element) : List Item := es.map (fun e => ⟨.elem, e, .sent⟩)

/-- Buffer i leaves as one packet, in buffer order; where it cannot, it stays OPEN and due (R190, R192). -/
def leaveBuffer (s : State) (c : Nat) (i : Fin 16) : State :=
  let k := s.core c
  match k.ni.bufs[i] with
  | none => s
  | some b =>
    if k.ni.room b.dest 1 then
      let ni := k.ni
      let uid := ni.uid
      let ni := { ni with bufs := ni.bufs.set i none, uid := uid + 1,
                          retained := ni.retained ++ [⟨uid, b.dest, sentItems b.elems, none, false, none⟩] }
      let s := s.setCore c { k with ni := ni }
      s.inject c (k.packet c b.dest ((b.elems.head?.bind (fun e => e.marks.head?.map Prod.fst)).getD 4)
        (.retained uid (List.range b.elems.length)) (.elements b.elems ((b.elems.head?.map Element.cdc).getD 0)))
    else s.setCore c { k with ni := { k.ni with bufs := k.ni.bufs.set i (some { b with due := true }) } }

/-- Every OPEN buffer leaves (R190). -/
def leaveAll (s : State) (c : Nat) : State := (List.finRange 16).foldl (fun s i => leaveBuffer s c i) s

/-- The OPEN buffer of a destination leaves, if there is one (R187, R200). -/
def leaveDest (s : State) (c : Nat) (dest : Node) : State :=
  match (s.core c).ni.bufferOf dest with
  | some (i, _) => leaveBuffer s c i
  | none => s

/-- The entry cycle of a buffer's oldest element (R191). -/
def Buffer.oldest (b : Buffer) : Nat := b.elems.foldl (fun m e => min m e.entered) (b.elems.head?.map Element.entered |>.getD 0)

/-- Has a trigger of its own reached this buffer (R190, R204)? -/
def Buffer.triggered (b : Buffer) (k : Core) : Bool :=
  b.due || decide (k.ctl.aggfill ≤ b.elems.length) || decide (b.oldest + k.ctl.agemax ≤ k.cycle)

/-- The tests of one NI cycle (R190, R204). -/
def niCycle (s : State) (c : Nat) : State :=
  (List.finRange 16).foldl (fun s i =>
    match (s.core c).ni.bufs[i] with
    | some b => if b.triggered (s.core c) then leaveBuffer s c i else s
    | none => s) s

/-! Scope (R67, R194) -/

/-- What the scope of an element's address allows: held in a buffer, reductions merged. -/
structure Sharing where
  held : Bool
  merge : Bool
deriving DecidableEq, Repr

/-- The sharing of an element for a place (R67, R194). -/
def Core.sharing (k : Core) (p : Place) : Sharing :=
  match p with
  | .va a =>
    match k.ni.scope.find? (fun e => decide (e.1 = k.asid) && decide (e.2.1 = a / 65536)) with
    | some (_, _, sc) => if sc ≤ 1 then ⟨true, true⟩ else if sc = 2 then ⟨true, false⟩ else ⟨false, false⟩
    | none => ⟨false, false⟩
  | .foreign _ _ _ => ⟨true, false⟩
  | _ => ⟨true, true⟩

/-- A scope enters the table, the least recently used entry leaving (R194). -/
def Ni.learn (ni : Ni) (asid page scope : Nat) : Ni :=
  { ni with scope := ((asid, page, scope) :: ni.scope.filter (fun e => !(decide (e.1 = asid) && decide (e.2.1 = page)))).take 32 }

/-- A use of a scope-table entry makes it the most recently used (R194). -/
def Ni.touch (ni : Ni) (asid page : Nat) : Ni :=
  match ni.scope.find? (fun e => decide (e.1 = asid) && decide (e.2.1 = page)) with
  | some (_, _, sc) => ni.learn asid page sc
  | none => ni

/-! Entering a buffer -/

/-- The byte address of a place at its destination. -/
def Place.at : Place → Nat
  | .own o => o
  | .peer _ o => o
  | .foreign _ _ o => o
  | .va a => a
  | .bad => 0

/-- Where an element lies at its destination. -/
def Core.elemAt (k : Core) (dev : Nat) (e : Element) : Nat := (decodeAddr k.page dev e.addr).at

/-- Do two elements' bytes overlap? -/
def overlaps (a n b m : Nat) : Bool := decide (a < b + m) && decide (b < a + n)

/-- The merged value of R189, where the two operations merge. -/
def mergeValue (old new : Element) : Option Dword :=
  let w := 8 * new.width
  let sOld := signedOf w old.value.toNat
  let sNew := signedOf w new.value.toNat
  if old.op = new.op then
    match new.op with
    | .store => some new.value
    | .redAdd => some (BitVec.ofNat 64 ((old.value.toNat + new.value.toNat) % 2 ^ w))
    | .redOr => some (old.value ||| new.value)
    | .redMin => some (if sOld < sNew then old.value else new.value)
    | .redMax => some (if sNew < sOld then old.value else new.value)
    | _ => none
  else none
where
  /-- a value of w bits read as signed -/
  signedOf (w x : Nat) : Int :=
    let c := x % 2 ^ w
    if c < 2 ^ (w - 1) then c else (c : Int) - 2 ^ w

/-- The union of two slot masks, each slot with the tag of its latest activation (R188). -/
def mergeMarks (old new : List (Nat × Nat)) : List (Nat × Nat) :=
  old.filter (fun p => !new.any (fun q => decide (q.1 = p.1))) ++ new

/-- Merge into the youngest overlapping element, where R189 lets the element merge. -/
def Core.tryMerge (k : Core) (dev : Nat) (mergeReds : Bool) (es : List Element) (e : Element) : Option (List Element) :=
  let a := k.elemAt dev e
  match (es.reverse.findIdx? (fun x => overlaps (k.elemAt dev x) x.width a e.width)) with
  | none => none
  | some j =>
    let i := es.length - 1 - j
    match es[i]? with
    | none => none
    | some old =>
      if k.elemAt dev old = a ∧ old.width = e.width ∧ old.mult + e.mult ≤ 65535 ∧ (e.op = .store ∨ mergeReds = true) then
        (mergeValue old e).map (fun v => setAt es i { old with value := v, mult := old.mult + e.mult, marks := mergeMarks old.marks e.marks })
      else none

/-- The lowest FREE buffer (R191). -/
def Ni.freeBuffer (ni : Ni) : Option (Fin 16) := (List.finRange 16).find? (fun i => (ni.bufs[i]).isNone)

/-- The buffer an eviction takes: the one whose oldest element entered earliest, the lowest number on a tie (R191). -/
def Ni.victim (ni : Ni) : Option (Fin 16) :=
  ((List.finRange 16).foldl (fun (best : Option (Fin 16 × Nat)) i =>
    match ni.bufs[i] with
    | some b => match best with
      | some (_, o) => if b.oldest < o then some (i, b.oldest) else best
      | none => some (i, b.oldest)
    | none => best) none).map Prod.fst

/-- Must the buffer of the destination leave before this element: a different CDC for a core (R190, R195)? -/
def Buffer.cdcDiffers (b : Buffer) (e : Element) : Bool :=
  !isStationNode b.dest && decide ((b.elems.head?.map Element.cdc).getD 0 ≠ e.cdc)

/-- Does the element have to wait at issue (R188, R191, R192, R314)? -/
def Core.elementWaits (k : Core) (dev : Nat) (e : Element) : Bool :=
  let p := decodeAddr k.page dev e.addr
  match p.dest with
  | none => false
  | some dest =>
    let sh := k.sharing p
    match k.ni.bufferOf dest with
    | some (_, b) =>
      if sh.held = false then !k.ni.room dest 2
      else if b.due then true
      else if b.cdcDiffers e then !k.ni.room dest 1
      else false
    | none =>
      if sh.held = false then !k.ni.room dest 1
      else if k.ni.freeBuffer.isSome then decide (32 ≤ k.ni.retained.length)
      else match k.ni.victim with
        | some i => match k.ni.bufs[i] with
          | some b => !k.ni.room b.dest 1
          | none => true
        | none => true

/-- Open a buffer for an element: the lowest FREE one, else the one an eviction frees (R191). -/
def openBuffer (s : State) (c : Nat) (dest : Node) (e : Element) : State :=
  let s := match (s.core c).ni.freeBuffer with
    | some _ => s
    | none => match (s.core c).ni.victim with
      | some i => leaveBuffer s c i
      | none => s
  match (s.core c).ni.freeBuffer with
  | some i => s.modCore c (fun k => k.modNi (fun ni => { ni with bufs := ni.bufs.set i (some ⟨dest, [e], false⟩) }))
  | none => s

/-- A buffer that has just taken an element leaves if a trigger holds (R190). -/
def leaveIfTriggered (s : State) (c : Nat) (dest : Node) : State :=
  match (s.core c).ni.bufferOf dest with
  | some (i, b) => if b.triggered (s.core c) then leaveBuffer s c i else s
  | none => s

/-- An element that no scope lets be held leaves as a packet of its own, after the buffer of its station (R194). -/
def sendAlone (s : State) (c : Nat) (dest : Node) (e : Element) : State :=
  let s := leaveDest s c dest
  let k := s.core c
  let uid := k.ni.uid
  let s := s.setCore c (k.modNi (fun ni => { ni with uid := uid + 1, retained := ni.retained ++ [⟨uid, dest, sentItems [e], none, false, none⟩] }))
  s.inject c (k.packet c dest ((e.marks.head?.map Prod.fst).getD 4) (.retained uid [0]) (.elements [e] e.cdc))

/-- An element that need not wait enters the buffer of its destination (R187 to R191). -/
def enterElement (s : State) (c : Nat) (e : Element) : State :=
  let k := s.core c
  let dev := s.fab.device
  let p := decodeAddr k.page dev e.addr
  match p.dest with
  | none => s
  | some dest =>
    let sh := k.sharing p
    let s := match p with
      | .va a => s.modCore c (fun k => k.modNi (fun ni => ni.touch k.asid (a / 65536)))
      | _ => s
    if sh.held = false then sendAlone s c dest e
    else match k.ni.bufferOf dest with
      | some (i, b) =>
        if b.cdcDiffers e then leaveIfTriggered (openBuffer (leaveBuffer s c i) c dest e) c dest
        else
          let es := (k.tryMerge dev sh.merge b.elems e).getD (b.elems ++ [e])
          leaveIfTriggered (s.modCore c (fun k => k.modNi (fun ni => { ni with bufs := ni.bufs.set i (some { b with elems := es }) }))) c dest
      | none => leaveIfTriggered (openBuffer s c dest e) c dest

/-- The element of a store or a reduction of a slot (R188). -/
def Core.element (k : Core) (i : Fin 5) (addr : Dword) (op : ElemOp) (width : Nat) (value : Dword) : Element :=
  ⟨addr, op, width, BitVec.ofNat 64 (value.toNat % 2 ^ (8 * width)), [(i.val, (k.slot i).act)], 1, (k.slot i).cdc.toNat, k.cycle⟩

/-! Accesses of another kind (R187) -/

/-- Has a destination an OPEN buffer? -/
def Ni.isOpen (ni : Ni) (dest : Node) : Bool := (ni.bufferOf dest).isSome

/-- Must an access that first sends the buffers of its destinations, and needs `n` retained packets of its own, wait: the drain hold on
a core, or no room for all of them together (R187, R192, R314)? -/
def Core.othersWait (k : Core) (dests : List Node) (n : Nat) : Bool :=
  let open' := (dests.foldl (fun (l : List Node) d => if l.contains d then l else l ++ [d]) []).filter k.ni.isOpen
  (k.ni.hold && dests.any isCoreNode) || decide (32 < k.ni.retained.length + open'.length + n)

/-- The same for one destination. -/
def Core.otherWaits (k : Core) (dest : Node) (n : Nat) : Bool := k.othersWait [dest] n

/-- The OPEN buffers of some destinations are due: a trigger has come, and they cannot leave yet (R190). -/
def Ni.makeDue (ni : Ni) (dests : List Node) : Ni :=
  { ni with bufs := Vector.ofFn (fun i => (ni.bufs[i]).map (fun b => if dests.contains b.dest then { b with due := true } else b)) }

/-- The destinations whose buffers an element would send first: that of another CDC value, or the one an eviction takes (R190, R191). -/
def Core.sentFor (k : Core) (dev : Nat) (e : Element) : List Node :=
  let p := decodeAddr k.page dev e.addr
  match p.dest with
  | none => []
  | some dest => match k.ni.bufferOf dest with
    | some (_, b) => if (k.sharing p).held = false ∨ b.cdcDiffers e = true then [dest] else []
    | none =>
      if (k.sharing p).held = false ∨ k.ni.freeBuffer.isSome = true then []
      else (k.ni.victim.bind (fun i => (k.ni.bufs[i]).map Buffer.dest)).toList

/-- Send items of their own kind: the destination's buffer leaves first; one retained packet holds them, and each goes out
on its own at once, in order (R139, R156, R215; log 25). -/
def sendItem (s : State) (c : Nat) (dest : Node) (items : List (Item × Body)) : State :=
  let s := leaveDest s c dest
  let k := s.core c
  let uid := k.ni.uid
  let s := s.setCore c (k.modNi (fun ni => { ni with uid := uid + 1, retained := ni.retained ++ [⟨uid, dest, items.map Prod.fst, none, false, none⟩] }))
  items.zipIdx.foldl (fun s x =>
    s.inject c (k.packet c dest ((x.1.1.el.marks.head?.map Prod.fst).getD 4) (.retained uid [x.2]) x.1.2)) s

/-- Send the two parts of a VST that spans two pages, each to be held at its station until both have translated (R63). -/
def sendPair (s : State) (c : Nat) (p q : Node × Item) : State :=
  let s := leaveDest (leaveDest s c p.1) c q.1
  let k := s.core c
  let uid := k.ni.uid
  let s := s.setCore c (k.modNi (fun ni => { ni with
    uid := uid + 2
    retained := ni.retained ++ [⟨uid, p.1, [p.2], some (uid + 1), false, none⟩, ⟨uid + 1, q.1, [q.2], some uid, false, none⟩] }))
  [(uid, p), (uid + 1, q)].foldl (fun s x =>
    s.inject c (k.packet c x.2.1 ((x.2.2.el.marks.head?.map Prod.fst).getD 4) (.retained x.1 [0]) (heldBody x.2.2))) s
where
  heldBody (x : Item) : Body := match x.kind with
    | .vst bs => .heldWrite x.el.addr bs
    | _ => .held

/-- OUTSTAND (R136). -/
def Core.outstand (k : Core) : Nat := k.ni.reqs.length

/-- Issue a request with its parts (R136): the destination of each part that is sent sends its buffer first. -/
def issueRequest (s : State) (c : Nat) (q : Request) (bodies : List Body) : State :=
  let s := (q.parts.filter (fun p => decide (p.st = .sent))).foldl (fun s p => leaveDest s c p.dest) s
  let uid := (s.core c).ni.uid
  let s := s.modCore c (fun k => k.modNi (fun ni => { ni with uid := uid + 1, reqs := ni.reqs ++ [{ q with uid := uid }] }))
  (((q.parts.zip bodies).zipIdx).filter (fun x => decide (x.1.1.st = .sent))).foldl (fun s x =>
    s.inject c ((s.core c).packet c x.1.1.dest q.slot (.request uid x.2) x.1.2)) s

/-! Releases and acquires (R201) -/

/-- Is an item still to be settled for a slot? -/
def Item.holds (x : Item) (slot : Nat) : Bool := x.el.marks.any (fun m => decide (m.1 = slot)) && decide (x.st ≠ .settled)

/-- Every earlier remote and device access of the slot, its loads and atomics among them, is applied and acknowledged, or recorded
(R201). -/
def Core.released (k : Core) (slot : Nat) : Bool :=
  k.ni.reqs.all (fun q => decide (q.slot ≠ slot))
    && k.ni.retained.all (fun r => r.items.all (fun x => !x.holds slot))
    && k.ni.bufs.toList.all (fun o => match o with
      | some b => b.elems.all (fun e => !e.marks.any (fun m => decide (m.1 = slot)))
      | none => true)

/-- Every earlier load, LDHDR and returning atomic of the slot has written its register (R201). -/
def Core.acquired (k : Core) (slot : Nat) : Bool := k.ni.reqs.all (fun q => decide (q.slot ≠ slot))

/-- Does an item the slot waits for await repair, or, sent again, its acknowledgement (R201, R283)? -/
def Core.releaseParked (k : Core) (slot : Nat) : Bool :=
  k.ni.retained.any (fun r => r.items.any (fun x => x.holds slot && (match x.st with
    | .repair _ _ | .resent => true
    | _ => false)))

/-- Has the slot a request of its activation that was NAKed XLATE and has no other answer yet (R137, R199)? -/
def Core.requestParked (k : Core) (i : Fin 5) : Bool :=
  k.ni.reqs.any (fun q => decide (q.slot = i.val) && decide (q.act = (k.slot i).act) && q.parked)

/-- Does a release of the slot only wait: its buffers sent, its accesses not settled, no AGGF to take (R201, R227)? -/
def Core.releaseWaits (k : Core) (i : Fin 5) : Bool := (k.slot i).aggf.isNone && (k.slot i).fencing && !k.released i.val

/-- What a fence, an implied release or END does first: a pending AGGF traps; every OPEN buffer leaves; the instruction goes on when the
slot's accesses are settled, and waits at issue until then, counting as parked while an element awaits repair (R190, R201, R210). An AGGF that
comes while it waits it takes too, which the spec leaves open (log 102). -/
def withRelease (s : State) (go : State → State) : State :=
  match s.me.aggf with
  | some p => trapHere (s.modMe (fun x => { x with aggf := none })) causeAggf p
  | none =>
    let s := if s.me.fencing then s else leaveAll s s.issuer.1
    if s.here.released s.issuer.2.val then go (s.modMe (fun x => { x with fencing := false }))
    else s.modMe (fun x => { x with fencing := true, state := if s.here.releaseParked s.issuer.2.val then .parked else x.state })

/-! The fault ring (R208 to R210) -/

/-- OP of R208. -/
def ItemKind.code : ItemKind → ElemOp → Nat
  | .elem, .store => 0x1F
  | .elem, .redAdd => 0x10
  | .elem, .redMin => 0x11
  | .elem, .redMax => 0x12
  | .elem, .redOr => 0x13
  | .elem, .redFadd => 0x14
  | .elem, .redBadd => 0x15
  | .vst _, _ => 0x1D
  | .venc _ _, _ => 0x1D
  | .sthdr _, _ => 0x1E
  | .send _, _ => 0x1F

/-- The WIDTH code of R208 and R310. -/
def widthCode (w : Nat) : Nat := if w = 1 then 0 else if w = 2 then 1 else if w = 4 then 2 else 3

def Item.width (x : Item) : Nat :=
  match x.kind with
  | .vst _ | .venc _ _ => 3
  | .sthdr _ => 2
  | _ => widthCode x.el.width

/-- VALUE of R208. -/
def Item.recordValue (x : Item) : Nat :=
  match x.kind with
  | .vst bs | .venc bs _ => bs.length
  | .sthdr h => h.toNat
  | _ => x.el.value.toNat

/-- The slot mask of an item. -/
def slotMask (marks : List (Nat × Nat)) : Nat := ((List.range 4).filter (fun i => marks.any (fun m => decide (m.1 = i)))).foldl (fun a i => a + 2 ^ i) 0

/-- The INFO word of a refused item (R208). -/
def Core.infoWord (k : Core) (dev : Nat) (x : Item) : Nat :=
  slotMask x.el.marks * 2 ^ 28 + 2 ^ 27 + x.width * 2 ^ 25 + x.kind.code x.el.op * 2 ^ 20 + k.elemAt dev x.el % 2 ^ 20

/-- DEST of R208: the destination core with offset 0, gang-relative for a core of the gang. -/
def Core.destWord (k : Core) (dest : Node) : Nat :=
  match dest with
  | .core n =>
    let x := n % 72
    let y := n / 72
    let p := k.page
    if decide (p.orgx ≤ x) && decide (x < p.orgx + p.width) && decide (p.orgy ≤ y) && decide (y < p.orgy + p.height) then
      2 ^ 62 + 0x3FFFFE * 2 ^ 40 + ((y - p.orgy) * p.width + (x - p.orgx)) * 2 ^ 20
    else 2 ^ 62 + 0x3FFFFF * 2 ^ 40 + x * 2 ^ 26 + y * 2 ^ 20
  | .foreign d n => 2 ^ 62 + d * 2 ^ 40 + (n % 72) * 2 ^ 26 + (n / 72) * 2 ^ 20
  | _ => 0

/-- A fault record of 256 bytes (R208): `refused` the places of the refused items in the packet, NELEM the items of the packet, of
whatever kind it is (log 82). -/
def Core.recordBytes (k : Core) (dev : Nat) (r : Retained) (refused : List Nat) (nelem : Nat) : List Byte :=
  let mask := refused.foldl (fun a j => a + 2 ^ j) 0
  let at? (f : Item → Nat) (j : Nat) : Nat := if refused.contains j then ((r.items[j]?).map f).getD 0 else 0
  leBytes 8 (k.destWord r.dest)
    ++ leBytes 4 (nelem * 2 ^ 24 + causeRefused * 2 ^ 16 + mask)
    ++ leBytes 4 (k.ni.seq % 2 ^ 32) ++ leBytes 8 k.cycle ++ leBytes 4 1 ++ leBytes 36 0
    ++ ((List.range 16).map (fun j => leBytes 4 (at? (k.infoWord dev) j))).flatten
    ++ ((List.range 16).map (fun j => leBytes 8 (at? Item.recordValue j))).flatten

/-- Is record i of the ring VALID (R208)? -/
def Core.ringValid (k : Core) (i : Nat) : Bool := bit (BitVec.ofNat 8 (readLE k.ls (k.ctl.faultring.toNat + 256 * i + 0x18) 1)) 0

/-- Does the ring lie in the local store (R209)? -/
def Core.ringOk (k : Core) : Bool := decide (k.ctl.faultring ≠ 0) && decide (k.ctl.faultring.toNat + 2048 ≤ k.page.lsbytes)

/-- The first free record from NEXT upward (R209). -/
def Core.freeRecord (k : Core) : Option Nat :=
  ((List.range 8).map (fun j => (k.ni.next + j) % 8)).find? (fun i => !k.ringValid i)

/-- The lowest-numbered slot that still runs an activation a refused item holds (R210). -/
def Core.liveSlot (k : Core) (items : List Item) : Option (Fin 5) :=
  (List.finRange 5).find? (fun i => decide (i.val < 4) && decide ((k.slot i).state ≠ .free)
    && items.any (fun x => x.el.marks.any (fun m => decide (m.1 = i.val) && decide (m.2 = (k.slot i).act))))

/-- Deliver a record by the first rule of R210 that applies. -/
def deliverRecord (s : State) (c : Nat) (items : List Item) (payload : Dword) : State :=
  let k := s.core c
  if bit k.ctl.faultch 6 = false ∧ k.isMsg (field k.ctl.faultch 5 0) = true then
    (deviceMessage s c (field k.ctl.faultch 5 0) payload (BitVec.ofNat 16 k.page.rank) .fault).1
  else match k.liveSlot items with
    | some i => s.modSlot c i (fun x => if x.aggf.isSome then x else { x with aggf := some payload })
    | none => gangFaultAt s c 4 causeAggf 0 payload

/-- Settle the refused items of a retained packet without a record. -/
def Core.dropRefused (k : Core) (uid : Nat) : Core :=
  let settle (x : Item) : Item := if x.st = .refused then { x with st := .settled } else x
  let fix (q : Retained) : Retained := if q.uid = uid then { q with items := q.items.map settle } else q
  k.modNi (fun ni => { ni with retained := (ni.retained.map fix).filter (fun (q : Retained) => q.items.any (fun x => decide (x.st ≠ .settled))) })

/-- Record the refused items of one retained packet, if the ring has a free record (R205, R208, R209). A packet that finds
none stays retained when FAULTCH names a channel, and the gang faults otherwise. -/
def recordRefused (s : State) (c uid : Nat) : State :=
  let k := s.core c
  match k.ni.retained.find? (fun r => decide (r.uid = uid)) with
  | none => s
  | some r =>
    let refused := (List.range r.items.length).filter (fun j => ((r.items[j]?).map (fun x => decide (x.st = .refused))).getD false)
    if refused = [] then s
    else if s.endingAt c then s.setCore c (k.dropRefused uid)
    else if k.ringOk = false then gangFaultAt s c 4 causeAggf 0 0
    else match k.freeRecord with
      | none => if bit k.ctl.faultch 6 then gangFaultAt s c 4 causeAggf 0 0 else s
      | some i =>
        let bs := k.recordBytes s.fab.device r refused r.items.length
        let items := refused.filterMap (fun j => r.items[j]?)
        let payload := causeRefused * 2 ^ 32 + refused.foldl (fun a j => a + 2 ^ j) 0 * 2 ^ 16 + i
        let settle (x : Item) : Item := if x.st = .refused then { x with st := .settled } else x
        let ni := { k.ni with next := (i + 1) % 8, seq := k.ni.seq + 1,
                              retained := k.ni.retained.map (fun (q : Retained) => if q.uid = uid then { q with items := q.items.map settle } else q) }
        let ni := { ni with retained := ni.retained.filter (fun (q : Retained) => q.items.any (fun x => decide (x.st ≠ .settled))) }
        deliverRecord (s.setCore c (({ k with ni := ni }).writeLs (k.ctl.faultring.toNat + 256 * i) bs)) c items (BitVec.ofNat 64 payload)

/-- Record what waits for a free record, in retention order (R209). -/
def recordWaiting (s : State) (c : Nat) : State :=
  ((s.core c).ni.retained.filter (fun r => r.items.any (fun x => decide (x.st = .refused)))).foldl (fun s r => recordRefused s c r.uid) s

/-! Re-sending (R207, R284) -/

/-- The packet body that carries an item again. -/
def Item.body (x : Item) : Body :=
  match x.kind with
  | .elem => .elements [x.el] x.el.cdc
  | .vst bs => .block x.el.addr bs .keep .vst (if bit (BitVec.ofNat 7 x.el.cdc) 6 then some (x.el.cdc % 64) else none)
  | .venc bs h => .block x.el.addr bs (.set h) .venc (if bit (BitVec.ofNat 7 x.el.cdc) 6 then some (x.el.cdc % 64) else none)
  | .sthdr h => .hdrWrite x.el.addr h
  | .send cnt => .send x.el.addr cnt x.el.value

/-- The same for an item of a retained packet: the parts of a pair are held (R63). -/
def Retained.body (r : Retained) (x : Item) : Body :=
  match r.pair, x.kind with
  | some _, .vst bs => .heldWrite x.el.addr bs
  | _, _ => x.body

/-- Does a settlement await repair, with or without a park entry? -/
def Settle.parked : Settle → Bool
  | .repair _ _ => true
  | _ => false

def PartState.parked : PartState → Bool
  | .repair _ _ => true
  | _ => false

/-- Re-send the marked items of retained packets of the core, in retention order (R207, R284). The parts of a pair, marked together, go
out under a new identity: an answer to an earlier sending finds none. -/
def resendItems (s : State) (c : Nat) (which : Retained → Bool) : State :=
  let k := s.core c
  let marked := k.ni.retained.flatMap (fun r => ((List.range r.items.length).filterMap (fun j =>
    match r.items[j]? with
    | some x => if x.st.parked && which r then some (r, j, x) else none
    | none => none)))
  let clear (x : Item) : Item := if x.st.parked then { x with st := .resent } else x
  let shift := k.ni.uid
  let again (r : Retained) : Nat := if r.pair.isSome then shift + r.uid else r.uid
  let fresh (r : Retained) : Retained :=
    if which r && r.items.any (fun x => x.st.parked) then
      { r with uid := again r, pair := r.pair.map (fun q => shift + q), items := r.items.map clear, translated := false, nak := none }
    else r
  let s := s.setCore c (k.modNi (fun ni => { ni with uid := shift + shift, retained := ni.retained.map fresh }))
  marked.foldl (fun s m => s.inject c (k.packet c m.1.dest ((m.2.2.el.marks.head?.map Prod.fst).getD 4) (.retained (again m.1) [m.2.1]) (m.1.body m.2.2))) s

/-- Does [a, a + n) of device memory cross a 64 KiB boundary, so that two translations are needed (R58, R63)? -/
def spans (a : Dword) (n : Nat) : Bool := bit a 63 && decide (a.toNat % 65536 + n > 65536)

/-- The stations of the two parts of an access that crosses a 64 KiB boundary (R63). -/
def splitParts (ea : Dword) (n : Nat) : List (Node × Dword × Nat) :=
  let k := 65536 - ea.toNat % 65536
  let b := ea + BitVec.ofNat 64 k
  [(.station (stationOf (nbits ea.toNat 55 0)), ea, k), (.station (stationOf (nbits b.toNat 55 0)), b, n - k)]

/-- Do the two pages lie at two stations, so that the access is split and held (R63)? -/
def crosses (a : Dword) (n : Nat) : Bool :=
  spans a n && (match splitParts a n with
    | [p, q] => decide (p.1 ≠ q.1)
    | _ => false)

/-- Are the parts of a request held at their stations (R63)? -/
def Request.split (q : Request) : Bool :=
  match q.kind with
  | .vload _ => crosses q.ea 256
  | _ => false

/-- The body that asks for a part of a request. -/
def Request.body (q : Request) (p : ReqPart) : Body :=
  match q.kind with
  | .ldhdr _ => .hdrRead p.addr
  | .amo _ w op b c => .amo p.addr w op b c
  | _ => if q.split then .heldLoad p.addr p.len else .load p.addr p.len false

/-- Is part p of a request to be sent again: it is parked, or another part of a held pair is? -/
def Request.resends (q : Request) (p : ReqPart) : Bool :=
  p.st.parked || (q.split && q.parts.any (fun x => x.st.parked))

/-- Re-send parked requests of the core, each in its original order; a pair of R63 whole, under a new identity (R199, R284). -/
def resendRequests (s : State) (c : Nat) (which : Request → Bool) : State :=
  let k := s.core c
  let shift := k.ni.uid
  let again (q : Request) : Nat := if q.split && q.parts.any (fun x => x.st.parked) then shift + q.uid else q.uid
  let parked := k.ni.reqs.flatMap (fun q => ((List.range q.parts.length).filterMap (fun j =>
    match q.parts[j]? with
    | some p => if which q && q.resends p then some (q, j, p) else none
    | none => none)))
  let fix (q : Request) : Request :=
    if which q then { q with uid := again q, parts := q.parts.map (fun p => if q.resends p then { p with st := .sent } else p) } else q
  let s := s.setCore c (k.modNi (fun ni => { ni with uid := shift + shift, reqs := ni.reqs.map fix }))
  parked.foldl (fun s m => s.inject c (k.packet c m.2.2.dest m.1.slot (.request (again m.1) m.2.1) (m.1.body m.2.2))) s

/-- A part of R63 whose NAK waits for the other part's answer is marked: with that answer the access is sent again. -/
def Core.markRetried (k : Core) : Core :=
  let mark (n : PartNak) : PartNak := { n with retried := true }
  let part (p : ReqPart) : ReqPart := match p.st with
    | .failed n => { p with st := .failed (mark n) }
    | _ => p
  k.modNi (fun ni => { ni with reqs := ni.reqs.map (fun q => { q with parts := q.parts.map part }),
                               retained := ni.retained.map (fun r => { r with nak := r.nak.map mark }) })

/-- Re-send every parked request of the core, of every kind, and clear REPAIRS: RETRY (R284, R287). Loads and latches go first, then
retained items, in one fixed order of the kinds (log 90). An engine command resumes at its first unacknowledged byte (R116). -/
def retryCore (s : State) (c : Nat) : State :=
  let s := resendRequests (s.modCore c Core.markRetried) c (fun _ => true)
  let s := resendItems s c (fun _ => true)
  s.modCore c (fun k => { k with ctl := { k.ctl with repairs := 0 },
                                 eng := { k.eng with cmds := k.eng.cmds.map (fun m => if m.parked.isSome then { m with parked := none } else m) } })

/-- PARKED of R287: the parked requests of the core. -/
def Core.parkedCount (k : Core) : Nat :=
  (k.ni.reqs.filter (fun q => q.parts.any (fun p => p.st.parked))).length
    + ((k.ni.retained.map (fun r => (r.items.filter (fun x => x.st.parked)).length)).foldl (· + ·) 0)
    + (k.eng.cmds.filter (fun m => m.parked.isSome)).length

end Sys2Proof.Machine
end

