-- ==== Sys2Proof/Machine/Flags.lean ====
section
/-! DEFINITION. The status words a program or the supervisor slot reads: AGGST (R202), STATUS and PEND (R288), channel state
(R214, R218), directory entries (R233), locks (R110), barriers (R271). No instruction of the part sets a flag (R128, R144). -/

namespace Sys2Proof.Machine

/-- A word from the bits at which a condition holds. -/
def maskOf (n : Nat) (f : Nat → Bool) : Nat := ((List.range n).filter f).foldl (fun a i => a + 2 ^ i) 0

/-- The retry latch of a slot: its returning atomic (R199). -/
def Core.latch (k : Core) (slot : Nat) : Option Request :=
  k.ni.reqs.find? (fun q => decide (q.slot = slot) && (match q.kind with
    | .amo _ _ _ _ _ => true
    | _ => false))

/-- AGGST (R202); RINGUSED reads 0 where no ring is in use (log 83). -/
def Core.aggst (k : Core) : Dword :=
  let xwait := k.ni.retained.any (fun r => r.items.any (fun x => x.st.parked))
  let latch := maskOf 4 (fun i => match k.latch i with
    | some q => q.parts.any (fun p => p.st.parked)
    | none => false)
  let pend := maskOf 4 (fun i => (k.slot (slotNo i)).aggf.isSome)
  let ring := if k.ringOk then ((List.range 8).filter k.ringValid).length else 0
  let openm := maskOf 16 (fun i => (k.ni.bufs[(Fin.ofNat 16 i : Fin 16)]).isSome)
  BitVec.ofNat 64 (b2n xwait * 2 ^ 36 + latch * 2 ^ 32 + pend * 2 ^ 28 + ring * 2 ^ 24 + k.ni.retained.length % 256 * 2 ^ 16 + openm)

def SlotState.code : SlotState → Nat
  | .free => 0 | .active => 1 | .parked => 2 | .stopped => 3 | .debug => 4

/-- STATUS of a slot (R288). -/
def Slot.status (x : Slot) : Dword :=
  BitVec.ofNat 64 (x.prio % 256 * 2 ^ 56 + x.state.code * 2 ^ 53 + b2n x.intrap * 2 ^ 52 + b2n (!x.pendTraps.isEmpty) * 2 ^ 51
    + ((x.pendTraps.head?.map Prod.fst).getD 0) % 256 * 2 ^ 40 + x.pc.toNat % 2 ^ 20)

/-- PEND of a slot (R288). -/
def Core.pendWord (k : Core) (i : Fin 5) : Dword :=
  BitVec.ofNat 64 (maskOf 32 (fun r => k.pending i (.v (BitVec.ofNat 5 r))) * 2 ^ 32 + maskOf 32 (fun r => k.pending i (.g (BitVec.ofNat 5 r))))

/-- Dword 0 of a channel's state (R214). -/
def Channel.dword0 (x : Channel) : Dword :=
  BitVec.ofNat 64 (b2n x.decl * 2 ^ 63 + b2n x.count * 2 ^ 62 + x.spill % 4096 * 2 ^ 48 + x.cnt % 2 ^ 48)

/-- Dword 1 of a channel's state (R214). -/
def Channel.dword1 (x : Channel) : Dword :=
  BitVec.ofNat 64 (if x.count then x.arm % 2 ^ 48 else x.rent % 4096 * 2 ^ 52 + x.rhead % 4096 * 2 ^ 40 + x.roff % 2 ^ 20)

/-- CHCNT's snapshot (R218). -/
def Channel.snapshot (x : Channel) : Dword :=
  BitVec.ofNat 64 (b2n x.count * 2 ^ 63 + b2n x.decl * 2 ^ 62 + (if x.count then x.cnt % 2 ^ 48 else x.held % 2 ^ 48))

def EntryState.code : EntryState → Nat
  | .free => 0 | .active => 1 | .forward => 2 | .pending => 3

/-- A directory entry as the supervisor slot sees it, dword j (R233). -/
def Entry.dword (e : Entry) (j : Nat) : Dword :=
  match j with
  | 0 => BitVec.ofNat 64 (e.state.code * 2 ^ 62 + e.rch % 64 * 2 ^ 48 + e.key % 2 ^ 48)
  | 1 => BitVec.ofNat 64 (e.answered.toNat * 2 ^ 48 + e.kmask % 2 ^ 48)
  | 2 => BitVec.ofNat 64 (e.len % 2 ^ 20 * 2 ^ 20 + e.addr % 2 ^ 20)
  | _ => BitVec.ofNat 64 (e.owed.toNat * 2 ^ 48 + e.seen.toNat * 2 ^ 32 + e.peer % 2 ^ 13 * 2 ^ 19 + e.pent % 64 * 2 ^ 13)

/-- A lock entry as the supervisor slot sees it (R110). -/
def lockWord (o : Option Lock) : Dword :=
  match o with
  | none => 0
  | some l => BitVec.ofNat 64 (2 ^ 63 + b2n l.dest * 2 ^ 62 + l.engine % 4 * 2 ^ 56 + l.ticket % 2 ^ 16 * 2 ^ 40 + l.limit % 2 ^ 20 * 2 ^ 20 + l.base % 2 ^ 20)

/-- BARST's word (R271). -/
def Bar.word (b : Bar) : Dword :=
  BitVec.ofNat 64 (b2n b.alloc * 2 ^ 63 + b2n b.member * 2 ^ 62 + b2n b.arrived * 2 ^ 61 + b2n b.drop * 2 ^ 60 + b2n b.phase * 2 ^ 56
    + b.ch % 64 * 2 ^ 48 + b.phases % 2 ^ 32)

def PreState.code : PreState → Nat
  | .none => 0 | .stopping => 1 | .draining => 2 | .sealed => 3 | .saved => 4 | .restoring => 5

end Sys2Proof.Machine
end

