-- ==== Sys2Proof/Machine/Issue.lean ====
section
/-! DEFINITION. Issue: which registers an instruction names (R136), what makes it wait at issue (R136, R188, R192, R199,
R201, R227, R314), and issuing it. -/

namespace Sys2Proof.Machine

/-- The general and vector registers an instruction reads or writes (R136). -/
def regsOf : Instr → List RegRef
  | .add d a b => [.g d, .g a, .g b]
  | .sub d a b => [.g d, .g a, .g b]
  | .and d a b => [.g d, .g a, .g b]
  | .or d a b => [.g d, .g a, .g b]
  | .xor d a b => [.g d, .g a, .g b]
  | .andn d a b => [.g d, .g a, .g b]
  | .sll d a b => [.g d, .g a, .g b]
  | .srl d a b => [.g d, .g a, .g b]
  | .sra d a b => [.g d, .g a, .g b]
  | .slt d a b => [.g d, .g a, .g b]
  | .sltu d a b => [.g d, .g a, .g b]
  | .min d a b => [.g d, .g a, .g b]
  | .max d a b => [.g d, .g a, .g b]
  | .minu d a b => [.g d, .g a, .g b]
  | .maxu d a b => [.g d, .g a, .g b]
  | .sel d a b => [.g d, .g a, .g b]
  | .clz d a => [.g d, .g a]
  | .ctz d a => [.g d, .g a]
  | .popc d a => [.g d, .g a]
  | .bfx d a b => [.g d, .g a, .g b]
  | .bfi d a b => [.g d, .g a, .g b]
  | .mul d a b => [.g d, .g a, .g b]
  | .mulh d a b => [.g d, .g a, .g b]
  | .mulhu d a b => [.g d, .g a, .g b]
  | .div d a b => [.g d, .g a, .g b]
  | .divu d a b => [.g d, .g a, .g b]
  | .rem d a b => [.g d, .g a, .g b]
  | .remu d a b => [.g d, .g a, .g b]
  | .addi d a _ => [.g d, .g a]
  | .andi d a _ => [.g d, .g a]
  | .ori d a _ => [.g d, .g a]
  | .xori d a _ => [.g d, .g a]
  | .slti d a _ => [.g d, .g a]
  | .sltiu d a _ => [.g d, .g a]
  | .slli d a _ => [.g d, .g a]
  | .srli d a _ => [.g d, .g a]
  | .srai d a _ => [.g d, .g a]
  | .lih d _ => [.g d]
  | .lix d _ => [.g d]
  | .addpc d _ => [.g d]
  | .beq a b _ => [.g a, .g b]
  | .bne a b _ => [.g a, .g b]
  | .blt a b _ => [.g a, .g b]
  | .bge a b _ => [.g a, .g b]
  | .bltu a b _ => [.g a, .g b]
  | .bgeu a b _ => [.g a, .g b]
  | .jal d _ => [.g d]
  | .jalr d a _ => [.g d, .g a]
  | .ldb d a _ => [.g d, .g a]
  | .ldbu d a _ => [.g d, .g a]
  | .ldh d a _ => [.g d, .g a]
  | .ldhu d a _ => [.g d, .g a]
  | .ldw d a _ => [.g d, .g a]
  | .ldwu d a _ => [.g d, .g a]
  | .ldd d a _ => [.g d, .g a]
  | .stb d a _ => [.g d, .g a]
  | .sth d a _ => [.g d, .g a]
  | .stw d a _ => [.g d, .g a]
  | .std d a _ => [.g d, .g a]
  | .amoadd d a b _ => [.g d, .g a, .g b]
  | .amomin d a b _ => [.g d, .g a, .g b]
  | .amomax d a b _ => [.g d, .g a, .g b]
  | .amominu d a b _ => [.g d, .g a, .g b]
  | .amomaxu d a b _ => [.g d, .g a, .g b]
  | .amoand d a b _ => [.g d, .g a, .g b]
  | .amoor d a b _ => [.g d, .g a, .g b]
  | .amoxor d a b _ => [.g d, .g a, .g b]
  | .amoswp d a b _ => [.g d, .g a, .g b]
  | .amocas d a b _ => [.g d, .g a, .g b]
  | .redAdd a b _ => [.g a, .g b]
  | .redMin a b _ => [.g a, .g b]
  | .redMax a b _ => [.g a, .g b]
  | .redOr a b _ => [.g a, .g b]
  | .redFadd a b => [.g a, .g b]
  | .redBadd a b => [.g a, .g b]
  | .ldhdr d a _ => [.g d, .g a]
  | .sthdr d a _ => [.g d, .g a]
  | .vaddF d a b _ => [.v d, .v a, .v b]
  | .vsubF d a b _ => [.v d, .v a, .v b]
  | .vmulF d a b _ => [.v d, .v a, .v b]
  | .vfmaF d a b _ => [.v d, .v a, .v b]
  | .vminF d a b _ => [.v d, .v a, .v b]
  | .vmaxF d a b _ => [.v d, .v a, .v b]
  | .vabsF d a _ => [.v d, .v a]
  | .vnegF d a _ => [.v d, .v a]
  | .vrcp d a _ => [.v d, .v a]
  | .vrsq d a _ => [.v d, .v a]
  | .vexp2 d a _ => [.v d, .v a]
  | .vlog2 d a _ => [.v d, .v a]
  | .vaddI d a b _ => [.v d, .v a, .v b]
  | .vsubI d a b _ => [.v d, .v a, .v b]
  | .vmulI d a b _ => [.v d, .v a, .v b]
  | .vand d a b _ => [.v d, .v a, .v b]
  | .vor d a b _ => [.v d, .v a, .v b]
  | .vxor d a b _ => [.v d, .v a, .v b]
  | .vsll d a b _ => [.v d, .v a, .v b]
  | .vsrl d a b _ => [.v d, .v a, .v b]
  | .vsra d a b _ => [.v d, .v a, .v b]
  | .vminI d a b _ => [.v d, .v a, .v b]
  | .vmaxI d a b _ => [.v d, .v a, .v b]
  | .vbcast d a _ => [.v d, .g a]
  | .vext d a b => [.g d, .v a, .g b]
  | .vredsumF d a _ => [.g d, .v a]
  | .vredmaxF d a _ => [.g d, .v a]
  | .vperm d a b _ => [.v d, .v a, .v b]
  | .viota d _ => [.v d]
  | .vscal d a b _ => [.v d, .v a, .g b]
  | .vaddD d a b _ => [.v d, .v a, .v b]
  | .vsubD d a b _ => [.v d, .v a, .v b]
  | .vmulD d a b _ => [.v d, .v a, .v b]
  | .vfmaD d a b _ => [.v d, .v a, .v b]
  | .vcmpeqF _ a b _ => [.v a, .v b]
  | .vcmpltF _ a b _ => [.v a, .v b]
  | .vcmpleF _ a b _ => [.v a, .v b]
  | .vcmpunF _ a b _ => [.v a, .v b]
  | .vcmpeqI _ a b _ => [.v a, .v b]
  | .vcmpltI _ a b _ => [.v a, .v b]
  | .vcmpltuI _ a b _ => [.v a, .v b]
  | .vsel d a b _ => [.v d, .v a, .v b]
  | .mpop d _ => [.g d]
  | .mset _ a => [.g a]
  | .vld d a _ => [.v d, .g a]
  | .vst d a _ => [.v d, .g a]
  | .vlds d a b _ => [.v d, .g a, .g b]
  | .vsts d a b _ => [.v d, .g a, .g b]
  | .vgather d a b _ => [.v d, .g a, .v b]
  | .vscatter d a b _ => [.v d, .g a, .v b]
  | .vcompress d a _ => [.v d, .v a]
  | .vexpand d a _ => [.v d, .v a]
  | .vdec d a _ => [.v d, .g a]
  | .venc d a b => [.g d, .v a, .g b]
  | .vencAuto d a b => [.g d, .v a, .g b]
  | .vcvt d a _ _ => [.v d, .v a]
  | .vcvts d a b _ => [.v d, .v a, .g b]
  | .send a b _ => [.g a, .g b]
  | .sendc a b _ => [.g a, .g b]
  | .patset d a => [.g d, .g a]
  | .patclr a => [.g a]
  | .chcfg d a b => [.g d, .g a, .g b]
  | .chcnt d a => [.g d, .g a]
  | .flushd a => [.g a]
  | .aggst d => [.g d]
  | .aggcfg a b => [.g a, .g b]
  | .stg _ a => [.g a]
  | .enq d _ => [.g d]
  | .tkst d a => [.g d, .g a]
  | .ecancel d a => [.g d, .g a]
  | .ldstg a => [.g a]
  | .solicit d a => [.g d, .g a]
  | .respond a b => [.g a, .g b]
  | .diradd d a => [.g d, .g a]
  | .dirdel d a => [.g d, .g a]
  | .dirmove d a b => [.g d, .g a, .g b]
  | .cenclose a => [.g a]
  | .censt d a => [.g d, .g a]
  | .baralloc d a => [.g d, .g a]
  | .barfree a => [.g a]
  | .arrive a => [.g a]
  | .arrived a => [.g a]
  | .barst d a => [.g d, .g a]
  | .mfc d _ => [.g d]
  | .mtc a _ => [.g a]
  | .launch d a => [.g d, .g a]
  | _ => []

/-- The address of an F-I form: g a + sext(imm16) (R27). -/
def State.ea (s : State) (a : BitVec 5) (i : BitVec 16) : Dword := s.reg a + sext i

/-- Must a request to these destinations wait: OUTSTAND at 64, or a buffer that cannot leave first (R136, R187)? -/
def Core.reqWaits (k : Core) (dests : List Node) : Bool :=
  !dests.isEmpty && (decide (64 ≤ k.outstand) || k.othersWait dests 0)

/-- Does a load of this width wait? -/
def State.loadWaits (s : State) (ea : Dword) (width : Nat) : Bool :=
  aligned ea.toNat width && s.here.reqWaits (s.place ea).dest.toList

/-- Does a store or reduction of this width wait (R188)? -/
def State.storeWaits (s : State) (ea : Dword) (op : ElemOp) (width : Nat) (v : Dword) : Bool :=
  aligned ea.toNat width && s.here.elementWaits s.fab.device (s.here.element s.issuer.2 ea op width v)

/-- Does a returning atomic wait: the latch occupied, or as a load (R199)? -/
def State.amoWaits (s : State) (ea : Dword) (width : Nat) : Bool :=
  s.loadWaits ea width || (aligned ea.toNat width && (s.place ea).dest.isSome && (s.here.latch s.issuer.2.val).isSome)

/-- Does an access that leaves at once as `n` packets wait (R187, R192)? -/
def State.itemWaits (s : State) (ea : Dword) (align n : Nat) : Bool :=
  aligned ea.toNat align && (s.place ea).dest.any (fun d => s.here.otherWaits d n)

/-- The width of an ATOM: fn[10] = 1 is 4 bytes (R197). -/
def atomWidth (w : BitVec 1) : Nat := if w = 1 then 4 else 8

/-- Address and length of each 64-byte block's part of [ea, ea + n) (R156). -/
def blockParts (ea : Dword) (n : Nat) : List (Dword × Nat) :=
  let first := 64 - ea.toNat % 64
  if n ≤ first then [(ea, n)]
  else (ea, first) :: (List.range ((n - first + 63) / 64)).map (fun j =>
    (ea + BitVec.ofNat 64 (first + 64 * j), min 64 (n - first - 64 * j)))

/-- Does a VST wait: one retained packet, or two for the parts of R63? -/
def State.vstWaits (s : State) (ea : Dword) : Bool :=
  if crosses ea 256 then aligned ea.toNat 4 && s.here.othersWait ((splitParts ea 256).map Prod.fst) 2
  else s.itemWaits ea 4 1

/-- Does a VLD wait? -/
def State.vldWaits (s : State) (ea : Dword) : Bool :=
  if crosses ea 256 then aligned ea.toNat 4 && s.here.reqWaits ((splitParts ea 256).map Prod.fst) else s.loadWaits ea 4

/-- VENC to a 4-bit target (E2M1, INT4) reads v (a + 1) as well (R159). -/
def State.pairPending (s : State) (a b : BitVec 5) : Bool :=
  (decide (field (s.reg b) 7 0 = 7) || decide (field (s.reg b) 7 0 = 9)) && s.here.pending s.issuer.2 (.v (a + 1))

/-- The active lanes of a mask, ascending. -/
def activeLanes (m : Dword) : List Nat := (List.range 64).filter (fun i => m.getLsbD i)

/-- Lane i's address in the strided forms (R154). -/
def State.stridedAddr (s : State) (a b : BitVec 5) (i : Nat) : Dword := s.reg a + BitVec.ofNat 64 i * s.reg b

/-- Lane i's address in the indexed forms (R154). -/
def State.indexedAddr (s : State) (a b : BitVec 5) (i : Nat) : Dword := s.reg a + zext (lane (s.vreg b) i)

/-- The lanes of a vector memory access: number and address. -/
def lanesAt (m : Dword) (f : Nat → Dword) : List (Nat × Dword) := (activeLanes m).map (fun i => (i, f i))

/-- Does a strided or indexed load wait? -/
def State.lanesWait (s : State) (ls : List (Nat × Dword)) : Bool :=
  ls.all (fun p => aligned p.2.toNat 4) && s.here.reqWaits (ls.filterMap (fun p => (s.place p.2).dest))

/-- The remote lanes of a VSTS or VSCATTER not entered yet (R156). -/
def State.lanesLeft (s : State) (ls : List (Nat × Dword)) : List (Nat × Dword) :=
  (ls.filter (fun p => (s.place p.2).dest.isSome)).drop s.me.lanes

/-- Does a VSTS or VSCATTER wait at its next remote lane (R156, R188)? -/
def State.lanesStoreWait (s : State) (d : BitVec 5) (ls : List (Nat × Dword)) : Bool :=
  ls.all (fun p => aligned p.2.toNat 4) && (match s.lanesLeft ls with
    | [] => false
    | p :: _ => s.here.elementWaits s.fab.device (s.here.element s.issuer.2 p.2 .store 4 (zext (lane (s.vreg d) p.1))))

/-- Does a release of the issuing slot only wait? -/
def State.releaseWaits (s : State) : Bool := s.here.releaseWaits s.issuer.2

/-- Is a register of the slot pending, or its retry latch occupied (R228)? -/
def State.endWaits (s : State) : Bool :=
  s.me.aggf.isNone && s.here.ni.reqs.any (fun q => decide (q.slot = s.issuer.2.val) && decide (q.act = s.me.act)
    && (q.kind.target.isSome || (match q.kind with
      | .amo _ _ _ _ _ => true
      | _ => false)))

/-- Has an instruction of slot i begun that is not over: lanes of a VSTS or VSCATTER have entered, or the offers of a BARALLOC are
out (R156, R272)? The slot is at no instruction boundary. -/
def Core.midway (k : Core) (i : Fin 5) : Bool :=
  decide ((k.slot i).lanes ≠ 0) || k.offers.any (fun o => decide (o.slot = i.val) && decide (o.act = (k.slot i).act))

/-- The BARALLOC of the issuing slot that waits for answers (R272). -/
def State.offer (s : State) : Option Offer :=
  s.here.offers.find? (fun o => decide (o.slot = s.issuer.2.val) && decide (o.act = s.me.act))

/-- Is something the root has sent down to the barriers of the issuing gang still on its way: what a BARALLOC's commit would
follow (R272, R273)? -/
def State.barrierTraffic (s : State) : Bool :=
  s.net.any (fun p => match p.body with
    | .tree g (.completion _ _ _) | .tree g (.freeDown _) => decide (some g = s.here.gang)
    | _ => false)

/-- Does an instruction read memory in the sense of FENCE.ACQ (R201)? -/
def readsMemory : Instr → Bool
  | .ldb _ _ _ | .ldbu _ _ _ | .ldh _ _ _ | .ldhu _ _ _ | .ldw _ _ _ | .ldwu _ _ _ | .ldd _ _ _ => true
  | .ldhdr _ _ _ | .vld _ _ _ | .vlds _ _ _ _ | .vgather _ _ _ _ | .vdec _ _ _ | .ldstg _ => true
  | .amoadd _ _ _ _ | .amomin _ _ _ _ | .amomax _ _ _ _ | .amominu _ _ _ _ | .amomaxu _ _ _ _ => true
  | .amoand _ _ _ _ | .amoor _ _ _ _ | .amoxor _ _ _ _ | .amoswp _ _ _ _ | .amocas _ _ _ _ => true
  | .patset _ _ | .solicit _ _ | .diradd _ _ | .baralloc _ _ | .launch _ _ => true
  | _ => false

/-- What an instruction waits for beside its registers. -/
def specialWait (i : Instr) (s : State) : Bool :=
  match i with
  | .ldb _ a i | .ldbu _ a i => s.loadWaits (s.ea a i) 1
  | .ldh _ a i | .ldhu _ a i => s.loadWaits (s.ea a i) 2
  | .ldw _ a i | .ldwu _ a i => s.loadWaits (s.ea a i) 4
  | .ldd _ a i => s.loadWaits (s.ea a i) 8
  | .stb d a i => s.storeWaits (s.ea a i) .store 1 (s.reg d)
  | .sth d a i => s.storeWaits (s.ea a i) .store 2 (s.reg d)
  | .stw d a i => s.storeWaits (s.ea a i) .store 4 (s.reg d)
  | .std d a i => s.storeWaits (s.ea a i) .store 8 (s.reg d)
  | .ldhdr _ a o => s.loadWaits (s.reg a + zext o) 64
  | .sthdr _ a o => s.itemWaits (s.reg a + zext o) 64 1
  | .vld _ a i => s.vldWaits (s.ea a i)
  | .vst _ a i => s.vstWaits (s.ea a i)
  | .vdec _ a _ => s.loadWaits (s.reg a) 64
  | .venc d a b | .vencAuto d a b => s.pairPending a b || s.itemWaits (s.reg d) 64 1
  | .vlds _ a b m => s.lanesWait (lanesAt (s.mask m) (s.stridedAddr a b))
  | .vgather _ a b m => s.lanesWait (lanesAt (s.mask m) (s.indexedAddr a b))
  | .vsts d a b m => s.lanesStoreWait d (lanesAt (s.mask m) (s.stridedAddr a b))
  | .vscatter d a b m => s.lanesStoreWait d (lanesAt (s.mask m) (s.indexedAddr a b))
  | .amoadd _ a _ w | .amomin _ a _ w | .amomax _ a _ w | .amominu _ a _ w | .amomaxu _ a _ w | .amoand _ a _ w
  | .amoor _ a _ w | .amoxor _ a _ w | .amoswp _ a _ w | .amocas _ a _ w => s.amoWaits (s.reg a) (atomWidth w)
  | .redAdd a b w => s.storeWaits (s.reg a) .redAdd (atomWidth w) (s.reg b)
  | .redMin a b w => s.storeWaits (s.reg a) .redMin (atomWidth w) (s.reg b)
  | .redMax a b w => s.storeWaits (s.reg a) .redMax (atomWidth w) (s.reg b)
  | .redOr a b w => s.storeWaits (s.reg a) .redOr (atomWidth w) (s.reg b)
  | .redFadd a b => s.storeWaits (s.reg a) .redFadd 4 (s.reg b)
  | .redBadd a b => s.storeWaits (s.reg a) .redBadd 4 (s.reg b)
  | .send a _ r | .sendc a _ r =>
    (decide (r = 1) && s.releaseWaits) || ((decide (r = 0) || (s.me.aggf.isNone && s.me.fencing)) && s.itemWaits (s.reg a) 16 1)
  | .fenceRel | .fenceAll | .respond _ _ | .arrive _ | .arrived _ | .launch _ _ => s.releaseWaits
  | .enq _ _ => bit (s.me.st[0]) 8 && s.releaseWaits
  | .endAct => s.endWaits
  | .endExit => s.releaseWaits
  | .baralloc _ _ => match s.offer with
    | some o => decide (o.answers.length < o.members.length) || s.barrierTraffic
    | none => false
  | _ => false

/-! The buffers that a waiting access sends (R187, R190) -/

/-- The destinations whose buffers a load sends, where only their leaving keeps it waiting. -/
def State.loadSends (s : State) (ea : Dword) (width : Nat) : List Node :=
  if aligned ea.toNat width && decide (s.here.outstand < 64) then (s.place ea).dest.toList else []

/-- The same for a store or reduction. -/
def State.storeSends (s : State) (ea : Dword) (op : ElemOp) (width : Nat) (v : Dword) : List Node :=
  if aligned ea.toNat width then s.here.sentFor s.fab.device (s.here.element s.issuer.2 ea op width v) else []

/-- The same for a returning atomic. -/
def State.amoSends (s : State) (ea : Dword) (width : Nat) : List Node :=
  if (s.here.latch s.issuer.2.val).isSome then [] else s.loadSends ea width

/-- The same for an access that leaves at once. -/
def State.itemSends (s : State) (ea : Dword) (align : Nat) : List Node := if aligned ea.toNat align then (s.place ea).dest.toList else []

/-- The same for a VLD or a VST. -/
def State.vldSends (s : State) (ea : Dword) : List Node :=
  if crosses ea 256 then (if aligned ea.toNat 4 && decide (s.here.outstand < 64) then (splitParts ea 256).map Prod.fst else []) else s.loadSends ea 4

def State.vstSends (s : State) (ea : Dword) : List Node :=
  if crosses ea 256 then (if aligned ea.toNat 4 then (splitParts ea 256).map Prod.fst else []) else s.itemSends ea 4

/-- The same for a strided or indexed load, and for the next lane of a store. -/
def State.lanesSends (s : State) (ls : List (Nat × Dword)) : List Node :=
  if ls.all (fun p => aligned p.2.toNat 4) && decide (s.here.outstand < 64) then ls.filterMap (fun p => (s.place p.2).dest) else []

def State.lanesStoreSends (s : State) (d : BitVec 5) (ls : List (Nat × Dword)) : List Node :=
  match s.lanesLeft ls with
  | [] => []
  | p :: _ => s.storeSends p.2 .store 4 (zext (lane (s.vreg d) p.1))

/-- Is the release of a message over, which then waits for room alone (R190, R215)? -/
def State.releaseOver (s : State) : Bool := s.me.aggf.isNone && s.me.fencing && s.here.released s.issuer.2.val

/-- The destinations whose buffers an instruction of the issuing slot sends before its own access. -/
def sendsFirst (i : Instr) (s : State) : List Node :=
  match i with
  | .ldb _ a i | .ldbu _ a i => s.loadSends (s.ea a i) 1
  | .ldh _ a i | .ldhu _ a i => s.loadSends (s.ea a i) 2
  | .ldw _ a i | .ldwu _ a i => s.loadSends (s.ea a i) 4
  | .ldd _ a i => s.loadSends (s.ea a i) 8
  | .stb d a i => s.storeSends (s.ea a i) .store 1 (s.reg d)
  | .sth d a i => s.storeSends (s.ea a i) .store 2 (s.reg d)
  | .stw d a i => s.storeSends (s.ea a i) .store 4 (s.reg d)
  | .std d a i => s.storeSends (s.ea a i) .store 8 (s.reg d)
  | .ldhdr _ a o => s.loadSends (s.reg a + zext o) 64
  | .sthdr _ a o => s.itemSends (s.reg a + zext o) 64
  | .vld _ a i => s.vldSends (s.ea a i)
  | .vst _ a i => s.vstSends (s.ea a i)
  | .vdec _ a _ => s.loadSends (s.reg a) 64
  | .venc d a b | .vencAuto d a b => if s.pairPending a b then [] else s.itemSends (s.reg d) 64
  | .vlds _ a b m => s.lanesSends (lanesAt (s.mask m) (s.stridedAddr a b))
  | .vgather _ a b m => s.lanesSends (lanesAt (s.mask m) (s.indexedAddr a b))
  | .vsts d a b m => s.lanesStoreSends d (lanesAt (s.mask m) (s.stridedAddr a b))
  | .vscatter d a b m => s.lanesStoreSends d (lanesAt (s.mask m) (s.indexedAddr a b))
  | .amoadd _ a _ w | .amomin _ a _ w | .amomax _ a _ w | .amominu _ a _ w | .amomaxu _ a _ w | .amoand _ a _ w
  | .amoor _ a _ w | .amoxor _ a _ w | .amoswp _ a _ w | .amocas _ a _ w => s.amoSends (s.reg a) (atomWidth w)
  | .redAdd a b w => s.storeSends (s.reg a) .redAdd (atomWidth w) (s.reg b)
  | .redMin a b w => s.storeSends (s.reg a) .redMin (atomWidth w) (s.reg b)
  | .redMax a b w => s.storeSends (s.reg a) .redMax (atomWidth w) (s.reg b)
  | .redOr a b w => s.storeSends (s.reg a) .redOr (atomWidth w) (s.reg b)
  | .redFadd a b => s.storeSends (s.reg a) .redFadd 4 (s.reg b)
  | .redBadd a b => s.storeSends (s.reg a) .redBadd 4 (s.reg b)
  | .send a _ r | .sendc a _ r => if r = 1 ∧ s.releaseOver = false then [] else s.itemSends (s.reg a) 16
  | _ => []

/-- Is the instruction held at issue by its registers or by an acquire (R136, R201)? -/
def operandsWait (i : Instr) (s : State) : Bool :=
  s.pendingAny (regsOf i) || (s.me.acquire && readsMemory i && !s.here.acquired s.issuer.2.val)

/-- Does the instruction wait at issue (R136, R227)? -/
def waitsAt (i : Instr) (s : State) : Bool :=
  operandsWait i s || specialWait i s

/-- Issue an instruction: it waits, changing nothing, or takes effect. -/
def issue (i : Instr) (s : State) (effect : State → State) : Host.Outcome State Fault Refusal :=
  .next (if waitsAt i s then s else effect s)

end Sys2Proof.Machine
end

