-- ==== Sys2Proof/Machine/Alu.lean ====
section
/-! DEFINITION. Register operations, multiplication and division, immediates and constants (R128 to R132). -/

namespace Sys2Proof.Machine

/-- An instruction that computes g d from two general registers. -/
def alu (i : Instr) (d a b : BitVec 5) (f : Dword → Dword → Dword) (s : State) : Host.Outcome State Fault Refusal :=
  issue i s (fun s => s.retire d (f (s.reg a) (s.reg b)))

/-- An instruction that computes g d from one general register. -/
def alu1 (i : Instr) (d a : BitVec 5) (f : Dword → Dword) (s : State) : Host.Outcome State Fault Refusal :=
  issue i s (fun s => s.retire d (f (s.reg a)))

/-- A shift amount: bits [5:0] (R128). -/
def shamt (b : Dword) : Nat := field b 5 0

def sltOf (x y : Dword) : Dword := b2d (x.slt y)
def sltuOf (x y : Dword) : Dword := b2d (x.ult y)
def minOf (x y : Dword) : Dword := if x.slt y then x else y
def maxOf (x y : Dword) : Dword := if y.slt x then x else y
def minuOf (x y : Dword) : Dword := if x.ult y then x else y
def maxuOf (x y : Dword) : Dword := if y.ult x then x else y
def clzOf (x : Dword) : Dword := if x = 0 then 64 else BitVec.ofNat 64 (63 - x.toNat.log2)
/-- Trailing zeros by the lowest bit set. -/
def ctzOf (x : Dword) : Dword := BitVec.ofNat 64 (((List.range 64).find? (fun i => x.getLsbD i)).getD 64)
def popcOf (x : Dword) : Dword := BitVec.ofNat 64 (popcount x)

/-- BFX (R129). -/
def bfxOf (x b : Dword) : Dword :=
  let pos := field b 5 0
  let len := min (field b 14 8) 64
  let f := x.toNat / 2 ^ pos % 2 ^ len
  if len = 0 then 0
  else if bit b 15 ∧ pos + len ≤ 64 ∧ 2 ^ (len - 1) ≤ f then BitVec.ofNat 64 (f + (2 ^ 64 - 2 ^ len))
  else BitVec.ofNat 64 f

/-- BFI (R129): the field of `old` at pos, len replaced by the low bits of `x`. -/
def bfiOf (old x b : Dword) : Dword :=
  let pos := field b 5 0
  let len := min (field b 14 8) 64
  let m := BitVec.ofNat 64 ((2 ^ len - 1) * 2 ^ pos)
  (old &&& ~~~m) ||| ((x <<< pos) &&& m)

def mulhOf (x y : Dword) : Dword := BitVec.ofInt 64 (x.toInt * y.toInt / 2 ^ 64)
def mulhuOf (x y : Dword) : Dword := BitVec.ofNat 64 (x.toNat * y.toNat / 2 ^ 64)
/-- DIV: truncated, −1 on division by zero, −2^63 on overflow (R130). -/
def divOf (x y : Dword) : Dword := if y = 0 then BitVec.allOnes 64 else BitVec.ofInt 64 (x.toInt.tdiv y.toInt)
def divuOf (x y : Dword) : Dword := if y = 0 then BitVec.allOnes 64 else BitVec.ofNat 64 (x.toNat / y.toNat)
/-- REM: the dividend on division by zero, else with the dividend's sign (R130). -/
def remOf (x y : Dword) : Dword := if y = 0 then x else BitVec.ofInt 64 (x.toInt.tmod y.toInt)
def remuOf (x y : Dword) : Dword := if y = 0 then x else BitVec.ofNat 64 (x.toNat % y.toNat)

def execAdd (d a b : BitVec 5) (s : State) := alu (.add d a b) d a b (fun x y => x + y) s
def execSub (d a b : BitVec 5) (s : State) := alu (.sub d a b) d a b (fun x y => x - y) s
def execAnd (d a b : BitVec 5) (s : State) := alu (.and d a b) d a b (fun x y => x &&& y) s
def execOr (d a b : BitVec 5) (s : State) := alu (.or d a b) d a b (fun x y => x ||| y) s
def execXor (d a b : BitVec 5) (s : State) := alu (.xor d a b) d a b (fun x y => x ^^^ y) s
def execAndn (d a b : BitVec 5) (s : State) := alu (.andn d a b) d a b (fun x y => x &&& ~~~y) s
def execSll (d a b : BitVec 5) (s : State) := alu (.sll d a b) d a b (fun x y => x <<< shamt y) s
def execSrl (d a b : BitVec 5) (s : State) := alu (.srl d a b) d a b (fun x y => x >>> shamt y) s
def execSra (d a b : BitVec 5) (s : State) := alu (.sra d a b) d a b (fun x y => x.sshiftRight (shamt y)) s
def execSlt (d a b : BitVec 5) (s : State) := alu (.slt d a b) d a b sltOf s
def execSltu (d a b : BitVec 5) (s : State) := alu (.sltu d a b) d a b sltuOf s
def execMin (d a b : BitVec 5) (s : State) := alu (.min d a b) d a b minOf s
def execMax (d a b : BitVec 5) (s : State) := alu (.max d a b) d a b maxOf s
def execMinu (d a b : BitVec 5) (s : State) := alu (.minu d a b) d a b minuOf s
def execMaxu (d a b : BitVec 5) (s : State) := alu (.maxu d a b) d a b maxuOf s
/-- SEL chooses by the old g d (R128). -/
def execSel (d a b : BitVec 5) (s : State) := alu (.sel d a b) d a b (fun x y => if s.reg d ≠ 0 then x else y) s
def execClz (d a : BitVec 5) (s : State) := alu1 (.clz d a) d a clzOf s
def execCtz (d a : BitVec 5) (s : State) := alu1 (.ctz d a) d a ctzOf s
def execPopc (d a : BitVec 5) (s : State) := alu1 (.popc d a) d a popcOf s
def execBfx (d a b : BitVec 5) (s : State) := alu (.bfx d a b) d a b bfxOf s
def execBfi (d a b : BitVec 5) (s : State) := alu (.bfi d a b) d a b (bfiOf (s.reg d)) s

def execMul (d a b : BitVec 5) (s : State) := alu (.mul d a b) d a b (fun x y => x * y) s
def execMulh (d a b : BitVec 5) (s : State) := alu (.mulh d a b) d a b mulhOf s
def execMulhu (d a b : BitVec 5) (s : State) := alu (.mulhu d a b) d a b mulhuOf s
def execDiv (d a b : BitVec 5) (s : State) := alu (.div d a b) d a b divOf s
def execDivu (d a b : BitVec 5) (s : State) := alu (.divu d a b) d a b divuOf s
def execRem (d a b : BitVec 5) (s : State) := alu (.rem d a b) d a b remOf s
def execRemu (d a b : BitVec 5) (s : State) := alu (.remu d a b) d a b remuOf s

def execAddi (d a : BitVec 5) (i : BitVec 16) (s : State) := alu1 (.addi d a i) d a (fun x => x + sext i) s
def execAndi (d a : BitVec 5) (i : BitVec 16) (s : State) := alu1 (.andi d a i) d a (fun x => x &&& sext i) s
def execOri (d a : BitVec 5) (i : BitVec 16) (s : State) := alu1 (.ori d a i) d a (fun x => x ||| zext i) s
def execXori (d a : BitVec 5) (i : BitVec 16) (s : State) := alu1 (.xori d a i) d a (fun x => x ^^^ sext i) s
def execSlti (d a : BitVec 5) (i : BitVec 16) (s : State) := alu1 (.slti d a i) d a (fun x => sltOf x (sext i)) s
def execSltiu (d a : BitVec 5) (i : BitVec 16) (s : State) := alu1 (.sltiu d a i) d a (fun x => sltuOf x (sext i)) s
def execSlli (d a : BitVec 5) (sh : BitVec 6) (s : State) := alu1 (.slli d a sh) d a (fun x => x <<< sh.toNat) s
def execSrli (d a : BitVec 5) (sh : BitVec 6) (s : State) := alu1 (.srli d a sh) d a (fun x => x >>> sh.toNat) s
def execSrai (d a : BitVec 5) (sh : BitVec 6) (s : State) := alu1 (.srai d a sh) d a (fun x => x.sshiftRight sh.toNat) s

/-- LIH: sext(imm21) << 16 (R132). -/
def execLih (d : BitVec 5) (i : BitVec 21) (s : State) := issue (.lih d i) s (fun s => s.retire d (sext i <<< 16))
/-- LIX: the old g d shifted left by 21, the immediate in its low bits (R132). -/
def execLix (d : BitVec 5) (i : BitVec 21) (s : State) := issue (.lix d i) s (fun s => s.retire d ((s.reg d <<< 21) ||| zext i))
/-- ADDPC: pc + (sext(imm21) << 2) (R132). -/
def execAddpc (d : BitVec 5) (i : BitVec 21) (s : State) := issue (.addpc d i) s (fun s => s.retire d (s.pc + (sext i <<< 2)))

end Sys2Proof.Machine
end

