-- ==== Sys2Proof/WellFormed.lean ====
section
/-! DEFINITION. The checks an instruction must pass beyond the widths of its fields (R31 to R33). -/

namespace Sys2Proof

/-- ENQ names the MXE, the copy engine or the stream engine (R31). -/
def Instr.engineLegal : Instr → Bool
  | .enq _ e => decide (e.toNat ≤ 2)
  | _ => true

/-- VCVT names one of the conversions of R160. -/
def Instr.selectorLegal : Instr → Bool
  | .vcvt _ _ s _ => decide ((s.extractLsb' 3 2).toNat ≠ 3)
  | _ => true

/-- CANCEL names level 1, 2 or 3 (R33). -/
def Instr.levelLegal : Instr → Bool
  | .cancel l => decide (l.toNat ≠ 0)
  | _ => true

/-- Every check of the encoding tables. -/
def Instr.wellFormed (i : Instr) : Bool :=
  i.engineLegal && i.selectorLegal && i.levelLegal

end Sys2Proof
end

