-- ==== Sys2Proof/Decode.lean ====
section
/-! DEFINITION. The decoder, total on any bytes and rejecting by name, and after it the encoder, both from the encoding
tables of R26 to R33. -/

namespace Sys2Proof

/-- Why a word is no instruction (R29). -/
inductive DecodeError where
  /-- fewer than four bytes -/
  | shortInput
  /-- the all-zero word, major 0x00 or an unused major -/
  | unusedMajor
  /-- an fn, fn8 or sel code absent from the tables -/
  | absentCode
  /-- a field listed as must be zero is nonzero -/
  | mustBeZero
  /-- an engine, selector or level field holds an illegal value -/
  | illegalField
deriving DecidableEq, Repr

/-- Admit `i` only where the word's bits under `mask` are `pattern`: a must-be-zero field is nonzero otherwise (R29). -/
def fixedBits (w mask pattern : BitVec 32) (i : Instr) : Except DecodeError Instr :=
  if w &&& mask = pattern then .ok i else .error .mustBeZero

/-- Refuse where an operand field holds a value the tables call illegal (R31 to R33). -/
def illegalField (legal : Bool) (r : Except DecodeError Instr) : Except DecodeError Instr :=
  if legal then r else .error .illegalField

/-- The words of major 0x01 (Alu): R29 to R33. -/
def decodeAlu (w : BitVec 32) : Except DecodeError Instr :=
  match (w.extractLsb' 0 11).toNat with
  | 0 => fixedBits w 0xFC0007FF#32 0x04000000#32 (.add (w.extractLsb' 21 5) (w.extractLsb' 16 5) (w.extractLsb' 11 5))
  | 1 => fixedBits w 0xFC0007FF#32 0x04000001#32 (.sub (w.extractLsb' 21 5) (w.extractLsb' 16 5) (w.extractLsb' 11 5))
  | 2 => fixedBits w 0xFC0007FF#32 0x04000002#32 (.and (w.extractLsb' 21 5) (w.extractLsb' 16 5) (w.extractLsb' 11 5))
  | 3 => fixedBits w 0xFC0007FF#32 0x04000003#32 (.or (w.extractLsb' 21 5) (w.extractLsb' 16 5) (w.extractLsb' 11 5))
  | 4 => fixedBits w 0xFC0007FF#32 0x04000004#32 (.xor (w.extractLsb' 21 5) (w.extractLsb' 16 5) (w.extractLsb' 11 5))
  | 5 => fixedBits w 0xFC0007FF#32 0x04000005#32 (.andn (w.extractLsb' 21 5) (w.extractLsb' 16 5) (w.extractLsb' 11 5))
  | 6 => fixedBits w 0xFC0007FF#32 0x04000006#32 (.sll (w.extractLsb' 21 5) (w.extractLsb' 16 5) (w.extractLsb' 11 5))
  | 7 => fixedBits w 0xFC0007FF#32 0x04000007#32 (.srl (w.extractLsb' 21 5) (w.extractLsb' 16 5) (w.extractLsb' 11 5))
  | 8 => fixedBits w 0xFC0007FF#32 0x04000008#32 (.sra (w.extractLsb' 21 5) (w.extractLsb' 16 5) (w.extractLsb' 11 5))
  | 9 => fixedBits w 0xFC0007FF#32 0x04000009#32 (.slt (w.extractLsb' 21 5) (w.extractLsb' 16 5) (w.extractLsb' 11 5))
  | 10 => fixedBits w 0xFC0007FF#32 0x0400000A#32 (.sltu (w.extractLsb' 21 5) (w.extractLsb' 16 5) (w.extractLsb' 11 5))
  | 11 => fixedBits w 0xFC0007FF#32 0x0400000B#32 (.min (w.extractLsb' 21 5) (w.extractLsb' 16 5) (w.extractLsb' 11 5))
  | 12 => fixedBits w 0xFC0007FF#32 0x0400000C#32 (.max (w.extractLsb' 21 5) (w.extractLsb' 16 5) (w.extractLsb' 11 5))
  | 13 => fixedBits w 0xFC0007FF#32 0x0400000D#32 (.minu (w.extractLsb' 21 5) (w.extractLsb' 16 5) (w.extractLsb' 11 5))
  | 14 => fixedBits w 0xFC0007FF#32 0x0400000E#32 (.maxu (w.extractLsb' 21 5) (w.extractLsb' 16 5) (w.extractLsb' 11 5))
  | 15 => fixedBits w 0xFC0007FF#32 0x0400000F#32 (.sel (w.extractLsb' 21 5) (w.extractLsb' 16 5) (w.extractLsb' 11 5))
  | 16 => fixedBits w 0xFC00FFFF#32 0x04000010#32 (.clz (w.extractLsb' 21 5) (w.extractLsb' 16 5))
  | 17 => fixedBits w 0xFC00FFFF#32 0x04000011#32 (.ctz (w.extractLsb' 21 5) (w.extractLsb' 16 5))
  | 18 => fixedBits w 0xFC00FFFF#32 0x04000012#32 (.popc (w.extractLsb' 21 5) (w.extractLsb' 16 5))
  | 19 => fixedBits w 0xFC0007FF#32 0x04000013#32 (.bfx (w.extractLsb' 21 5) (w.extractLsb' 16 5) (w.extractLsb' 11 5))
  | 20 => fixedBits w 0xFC0007FF#32 0x04000014#32 (.bfi (w.extractLsb' 21 5) (w.extractLsb' 16 5) (w.extractLsb' 11 5))
  | _ => .error .absentCode

/-- The words of major 0x02 (MulDiv): R29 to R33. -/
def decodeMulDiv (w : BitVec 32) : Except DecodeError Instr :=
  match (w.extractLsb' 0 11).toNat with
  | 0 => fixedBits w 0xFC0007FF#32 0x08000000#32 (.mul (w.extractLsb' 21 5) (w.extractLsb' 16 5) (w.extractLsb' 11 5))
  | 1 => fixedBits w 0xFC0007FF#32 0x08000001#32 (.mulh (w.extractLsb' 21 5) (w.extractLsb' 16 5) (w.extractLsb' 11 5))
  | 2 => fixedBits w 0xFC0007FF#32 0x08000002#32 (.mulhu (w.extractLsb' 21 5) (w.extractLsb' 16 5) (w.extractLsb' 11 5))
  | 3 => fixedBits w 0xFC0007FF#32 0x08000003#32 (.div (w.extractLsb' 21 5) (w.extractLsb' 16 5) (w.extractLsb' 11 5))
  | 4 => fixedBits w 0xFC0007FF#32 0x08000004#32 (.divu (w.extractLsb' 21 5) (w.extractLsb' 16 5) (w.extractLsb' 11 5))
  | 5 => fixedBits w 0xFC0007FF#32 0x08000005#32 (.rem (w.extractLsb' 21 5) (w.extractLsb' 16 5) (w.extractLsb' 11 5))
  | 6 => fixedBits w 0xFC0007FF#32 0x08000006#32 (.remu (w.extractLsb' 21 5) (w.extractLsb' 16 5) (w.extractLsb' 11 5))
  | _ => .error .absentCode

/-- The words of major 0x09 (Shi): R29 to R33. -/
def decodeShi (w : BitVec 32) : Except DecodeError Instr :=
  match (w.extractLsb' 14 2).toNat with
  | 0 => fixedBits w 0xFC00FFC0#32 0x24000000#32 (.slli (w.extractLsb' 21 5) (w.extractLsb' 16 5) (w.extractLsb' 0 6))
  | 1 => fixedBits w 0xFC00FFC0#32 0x24004000#32 (.srli (w.extractLsb' 21 5) (w.extractLsb' 16 5) (w.extractLsb' 0 6))
  | 2 => fixedBits w 0xFC00FFC0#32 0x24008000#32 (.srai (w.extractLsb' 21 5) (w.extractLsb' 16 5) (w.extractLsb' 0 6))
  | _ => .error .absentCode

/-- The words of major 0x23 (Atom): R29 to R33. -/
def decodeAtom (w : BitVec 32) : Except DecodeError Instr :=
  match (w.extractLsb' 0 10).toNat with
  | 0 => fixedBits w 0xFC0003FF#32 0x8C000000#32 (.amoadd (w.extractLsb' 21 5) (w.extractLsb' 16 5) (w.extractLsb' 11 5) (w.extractLsb' 10 1))
  | 1 => fixedBits w 0xFC0003FF#32 0x8C000001#32 (.amomin (w.extractLsb' 21 5) (w.extractLsb' 16 5) (w.extractLsb' 11 5) (w.extractLsb' 10 1))
  | 2 => fixedBits w 0xFC0003FF#32 0x8C000002#32 (.amomax (w.extractLsb' 21 5) (w.extractLsb' 16 5) (w.extractLsb' 11 5) (w.extractLsb' 10 1))
  | 3 => fixedBits w 0xFC0003FF#32 0x8C000003#32 (.amominu (w.extractLsb' 21 5) (w.extractLsb' 16 5) (w.extractLsb' 11 5) (w.extractLsb' 10 1))
  | 4 => fixedBits w 0xFC0003FF#32 0x8C000004#32 (.amomaxu (w.extractLsb' 21 5) (w.extractLsb' 16 5) (w.extractLsb' 11 5) (w.extractLsb' 10 1))
  | 5 => fixedBits w 0xFC0003FF#32 0x8C000005#32 (.amoand (w.extractLsb' 21 5) (w.extractLsb' 16 5) (w.extractLsb' 11 5) (w.extractLsb' 10 1))
  | 6 => fixedBits w 0xFC0003FF#32 0x8C000006#32 (.amoor (w.extractLsb' 21 5) (w.extractLsb' 16 5) (w.extractLsb' 11 5) (w.extractLsb' 10 1))
  | 7 => fixedBits w 0xFC0003FF#32 0x8C000007#32 (.amoxor (w.extractLsb' 21 5) (w.extractLsb' 16 5) (w.extractLsb' 11 5) (w.extractLsb' 10 1))
  | 8 => fixedBits w 0xFC0003FF#32 0x8C000008#32 (.amoswp (w.extractLsb' 21 5) (w.extractLsb' 16 5) (w.extractLsb' 11 5) (w.extractLsb' 10 1))
  | 9 => fixedBits w 0xFC0003FF#32 0x8C000009#32 (.amocas (w.extractLsb' 21 5) (w.extractLsb' 16 5) (w.extractLsb' 11 5) (w.extractLsb' 10 1))
  | 16 => fixedBits w 0xFFE003FF#32 0x8C000010#32 (.redAdd (w.extractLsb' 16 5) (w.extractLsb' 11 5) (w.extractLsb' 10 1))
  | 17 => fixedBits w 0xFFE003FF#32 0x8C000011#32 (.redMin (w.extractLsb' 16 5) (w.extractLsb' 11 5) (w.extractLsb' 10 1))
  | 18 => fixedBits w 0xFFE003FF#32 0x8C000012#32 (.redMax (w.extractLsb' 16 5) (w.extractLsb' 11 5) (w.extractLsb' 10 1))
  | 19 => fixedBits w 0xFFE003FF#32 0x8C000013#32 (.redOr (w.extractLsb' 16 5) (w.extractLsb' 11 5) (w.extractLsb' 10 1))
  | 20 => fixedBits w 0xFFE007FF#32 0x8C000414#32 (.redFadd (w.extractLsb' 16 5) (w.extractLsb' 11 5))
  | 21 => fixedBits w 0xFFE007FF#32 0x8C000415#32 (.redBadd (w.extractLsb' 16 5) (w.extractLsb' 11 5))
  | _ => .error .absentCode

/-- The words of major 0x24 (Hdr): R29 to R33. -/
def decodeHdr (w : BitVec 32) : Except DecodeError Instr :=
  match (w.extractLsb' 15 1).toNat with
  | 0 => fixedBits w 0xFC008000#32 0x90000000#32 (.ldhdr (w.extractLsb' 21 5) (w.extractLsb' 16 5) (w.extractLsb' 0 15))
  | _ => fixedBits w 0xFC008000#32 0x90008000#32 (.sthdr (w.extractLsb' 21 5) (w.extractLsb' 16 5) (w.extractLsb' 0 15))

/-- The words of major 0x28 (Varith): R29 to R33. -/
def decodeVarith (w : BitVec 32) : Except DecodeError Instr :=
  match (w.extractLsb' 0 8).toNat with
  | 0 => fixedBits w 0xFC0000FF#32 0xA0000000#32 (.vaddF (w.extractLsb' 21 5) (w.extractLsb' 16 5) (w.extractLsb' 11 5) (w.extractLsb' 8 3))
  | 1 => fixedBits w 0xFC0000FF#32 0xA0000001#32 (.vsubF (w.extractLsb' 21 5) (w.extractLsb' 16 5) (w.extractLsb' 11 5) (w.extractLsb' 8 3))
  | 2 => fixedBits w 0xFC0000FF#32 0xA0000002#32 (.vmulF (w.extractLsb' 21 5) (w.extractLsb' 16 5) (w.extractLsb' 11 5) (w.extractLsb' 8 3))
  | 3 => fixedBits w 0xFC0000FF#32 0xA0000003#32 (.vfmaF (w.extractLsb' 21 5) (w.extractLsb' 16 5) (w.extractLsb' 11 5) (w.extractLsb' 8 3))
  | 4 => fixedBits w 0xFC0000FF#32 0xA0000004#32 (.vminF (w.extractLsb' 21 5) (w.extractLsb' 16 5) (w.extractLsb' 11 5) (w.extractLsb' 8 3))
  | 5 => fixedBits w 0xFC0000FF#32 0xA0000005#32 (.vmaxF (w.extractLsb' 21 5) (w.extractLsb' 16 5) (w.extractLsb' 11 5) (w.extractLsb' 8 3))
  | 6 => fixedBits w 0xFC00F8FF#32 0xA0000006#32 (.vabsF (w.extractLsb' 21 5) (w.extractLsb' 16 5) (w.extractLsb' 8 3))
  | 7 => fixedBits w 0xFC00F8FF#32 0xA0000007#32 (.vnegF (w.extractLsb' 21 5) (w.extractLsb' 16 5) (w.extractLsb' 8 3))
  | 8 => fixedBits w 0xFC00F8FF#32 0xA0000008#32 (.vrcp (w.extractLsb' 21 5) (w.extractLsb' 16 5) (w.extractLsb' 8 3))
  | 9 => fixedBits w 0xFC00F8FF#32 0xA0000009#32 (.vrsq (w.extractLsb' 21 5) (w.extractLsb' 16 5) (w.extractLsb' 8 3))
  | 10 => fixedBits w 0xFC00F8FF#32 0xA000000A#32 (.vexp2 (w.extractLsb' 21 5) (w.extractLsb' 16 5) (w.extractLsb' 8 3))
  | 11 => fixedBits w 0xFC00F8FF#32 0xA000000B#32 (.vlog2 (w.extractLsb' 21 5) (w.extractLsb' 16 5) (w.extractLsb' 8 3))
  | 12 => fixedBits w 0xFC0000FF#32 0xA000000C#32 (.vaddI (w.extractLsb' 21 5) (w.extractLsb' 16 5) (w.extractLsb' 11 5) (w.extractLsb' 8 3))
  | 13 => fixedBits w 0xFC0000FF#32 0xA000000D#32 (.vsubI (w.extractLsb' 21 5) (w.extractLsb' 16 5) (w.extractLsb' 11 5) (w.extractLsb' 8 3))
  | 14 => fixedBits w 0xFC0000FF#32 0xA000000E#32 (.vmulI (w.extractLsb' 21 5) (w.extractLsb' 16 5) (w.extractLsb' 11 5) (w.extractLsb' 8 3))
  | 15 => fixedBits w 0xFC0000FF#32 0xA000000F#32 (.vand (w.extractLsb' 21 5) (w.extractLsb' 16 5) (w.extractLsb' 11 5) (w.extractLsb' 8 3))
  | 16 => fixedBits w 0xFC0000FF#32 0xA0000010#32 (.vor (w.extractLsb' 21 5) (w.extractLsb' 16 5) (w.extractLsb' 11 5) (w.extractLsb' 8 3))
  | 17 => fixedBits w 0xFC0000FF#32 0xA0000011#32 (.vxor (w.extractLsb' 21 5) (w.extractLsb' 16 5) (w.extractLsb' 11 5) (w.extractLsb' 8 3))
  | 18 => fixedBits w 0xFC0000FF#32 0xA0000012#32 (.vsll (w.extractLsb' 21 5) (w.extractLsb' 16 5) (w.extractLsb' 11 5) (w.extractLsb' 8 3))
  | 19 => fixedBits w 0xFC0000FF#32 0xA0000013#32 (.vsrl (w.extractLsb' 21 5) (w.extractLsb' 16 5) (w.extractLsb' 11 5) (w.extractLsb' 8 3))
  | 20 => fixedBits w 0xFC0000FF#32 0xA0000014#32 (.vsra (w.extractLsb' 21 5) (w.extractLsb' 16 5) (w.extractLsb' 11 5) (w.extractLsb' 8 3))
  | 21 => fixedBits w 0xFC0000FF#32 0xA0000015#32 (.vminI (w.extractLsb' 21 5) (w.extractLsb' 16 5) (w.extractLsb' 11 5) (w.extractLsb' 8 3))
  | 22 => fixedBits w 0xFC0000FF#32 0xA0000016#32 (.vmaxI (w.extractLsb' 21 5) (w.extractLsb' 16 5) (w.extractLsb' 11 5) (w.extractLsb' 8 3))
  | 24 => fixedBits w 0xFC00F8FF#32 0xA0000018#32 (.vbcast (w.extractLsb' 21 5) (w.extractLsb' 16 5) (w.extractLsb' 8 3))
  | 25 => fixedBits w 0xFC0007FF#32 0xA0000019#32 (.vext (w.extractLsb' 21 5) (w.extractLsb' 16 5) (w.extractLsb' 11 5))
  | 26 => fixedBits w 0xFC00F8FF#32 0xA000001A#32 (.vredsumF (w.extractLsb' 21 5) (w.extractLsb' 16 5) (w.extractLsb' 8 3))
  | 27 => fixedBits w 0xFC00F8FF#32 0xA000001B#32 (.vredmaxF (w.extractLsb' 21 5) (w.extractLsb' 16 5) (w.extractLsb' 8 3))
  | 28 => fixedBits w 0xFC0000FF#32 0xA000001C#32 (.vperm (w.extractLsb' 21 5) (w.extractLsb' 16 5) (w.extractLsb' 11 5) (w.extractLsb' 8 3))
  | 29 => fixedBits w 0xFC1FF8FF#32 0xA000001D#32 (.viota (w.extractLsb' 21 5) (w.extractLsb' 8 3))
  | 30 => fixedBits w 0xFC0000FF#32 0xA000001E#32 (.vscal (w.extractLsb' 21 5) (w.extractLsb' 16 5) (w.extractLsb' 11 5) (w.extractLsb' 8 3))
  | 64 => fixedBits w 0xFC0000FF#32 0xA0000040#32 (.vaddD (w.extractLsb' 21 5) (w.extractLsb' 16 5) (w.extractLsb' 11 5) (w.extractLsb' 8 3))
  | 65 => fixedBits w 0xFC0000FF#32 0xA0000041#32 (.vsubD (w.extractLsb' 21 5) (w.extractLsb' 16 5) (w.extractLsb' 11 5) (w.extractLsb' 8 3))
  | 66 => fixedBits w 0xFC0000FF#32 0xA0000042#32 (.vmulD (w.extractLsb' 21 5) (w.extractLsb' 16 5) (w.extractLsb' 11 5) (w.extractLsb' 8 3))
  | 67 => fixedBits w 0xFC0000FF#32 0xA0000043#32 (.vfmaD (w.extractLsb' 21 5) (w.extractLsb' 16 5) (w.extractLsb' 11 5) (w.extractLsb' 8 3))
  | _ => .error .absentCode

/-- The words of major 0x29 (Vcmp): R29 to R33. -/
def decodeVcmp (w : BitVec 32) : Except DecodeError Instr :=
  match (w.extractLsb' 0 8).toNat with
  | 0 => fixedBits w 0xFF0000FF#32 0xA4000000#32 (.vcmpeqF (w.extractLsb' 21 3) (w.extractLsb' 16 5) (w.extractLsb' 11 5) (w.extractLsb' 8 3))
  | 1 => fixedBits w 0xFF0000FF#32 0xA4000001#32 (.vcmpltF (w.extractLsb' 21 3) (w.extractLsb' 16 5) (w.extractLsb' 11 5) (w.extractLsb' 8 3))
  | 2 => fixedBits w 0xFF0000FF#32 0xA4000002#32 (.vcmpleF (w.extractLsb' 21 3) (w.extractLsb' 16 5) (w.extractLsb' 11 5) (w.extractLsb' 8 3))
  | 3 => fixedBits w 0xFF0000FF#32 0xA4000003#32 (.vcmpunF (w.extractLsb' 21 3) (w.extractLsb' 16 5) (w.extractLsb' 11 5) (w.extractLsb' 8 3))
  | 4 => fixedBits w 0xFF0000FF#32 0xA4000004#32 (.vcmpeqI (w.extractLsb' 21 3) (w.extractLsb' 16 5) (w.extractLsb' 11 5) (w.extractLsb' 8 3))
  | 5 => fixedBits w 0xFF0000FF#32 0xA4000005#32 (.vcmpltI (w.extractLsb' 21 3) (w.extractLsb' 16 5) (w.extractLsb' 11 5) (w.extractLsb' 8 3))
  | 6 => fixedBits w 0xFF0000FF#32 0xA4000006#32 (.vcmpltuI (w.extractLsb' 21 3) (w.extractLsb' 16 5) (w.extractLsb' 11 5) (w.extractLsb' 8 3))
  | 16 => fixedBits w 0xFC0000FF#32 0xA4000010#32 (.vsel (w.extractLsb' 21 5) (w.extractLsb' 16 5) (w.extractLsb' 11 5) (w.extractLsb' 8 3))
  | 32 => fixedBits w 0xFF18C7FF#32 0xA4000020#32 (.mand (w.extractLsb' 21 3) (w.extractLsb' 16 3) (w.extractLsb' 11 3))
  | 33 => fixedBits w 0xFF18C7FF#32 0xA4000021#32 (.mor (w.extractLsb' 21 3) (w.extractLsb' 16 3) (w.extractLsb' 11 3))
  | 34 => fixedBits w 0xFF18C7FF#32 0xA4000022#32 (.mxor (w.extractLsb' 21 3) (w.extractLsb' 16 3) (w.extractLsb' 11 3))
  | 35 => fixedBits w 0xFF18FFFF#32 0xA4000023#32 (.mnot (w.extractLsb' 21 3) (w.extractLsb' 16 3))
  | 36 => fixedBits w 0xFC18FFFF#32 0xA4000024#32 (.mpop (w.extractLsb' 21 5) (w.extractLsb' 16 3))
  | 37 => fixedBits w 0xFF00FFFF#32 0xA4000025#32 (.mset (w.extractLsb' 21 3) (w.extractLsb' 16 5))
  | _ => .error .absentCode

/-- The words of major 0x2C (Vmemx): R29 to R33. -/
def decodeVmemx (w : BitVec 32) : Except DecodeError Instr :=
  match (w.extractLsb' 0 8).toNat with
  | 0 => fixedBits w 0xFC0000FF#32 0xB0000000#32 (.vlds (w.extractLsb' 21 5) (w.extractLsb' 16 5) (w.extractLsb' 11 5) (w.extractLsb' 8 3))
  | 1 => fixedBits w 0xFC0000FF#32 0xB0000001#32 (.vsts (w.extractLsb' 21 5) (w.extractLsb' 16 5) (w.extractLsb' 11 5) (w.extractLsb' 8 3))
  | 2 => fixedBits w 0xFC0000FF#32 0xB0000002#32 (.vgather (w.extractLsb' 21 5) (w.extractLsb' 16 5) (w.extractLsb' 11 5) (w.extractLsb' 8 3))
  | 3 => fixedBits w 0xFC0000FF#32 0xB0000003#32 (.vscatter (w.extractLsb' 21 5) (w.extractLsb' 16 5) (w.extractLsb' 11 5) (w.extractLsb' 8 3))
  | 4 => fixedBits w 0xFC00F8FF#32 0xB0000004#32 (.vcompress (w.extractLsb' 21 5) (w.extractLsb' 16 5) (w.extractLsb' 8 3))
  | 5 => fixedBits w 0xFC00F8FF#32 0xB0000005#32 (.vexpand (w.extractLsb' 21 5) (w.extractLsb' 16 5) (w.extractLsb' 8 3))
  | _ => .error .absentCode

/-- The words of major 0x2D (Vconv): R29 to R33. -/
def decodeVconv (w : BitVec 32) : Except DecodeError Instr :=
  match (w.extractLsb' 0 8).toNat with
  | 0 => fixedBits w 0xFC00E7FF#32 0xB4000000#32 (.vdec (w.extractLsb' 21 5) (w.extractLsb' 16 5) (w.extractLsb' 11 2))
  | 1 => fixedBits w 0xFC0007FF#32 0xB4000001#32 (.venc (w.extractLsb' 21 5) (w.extractLsb' 16 5) (w.extractLsb' 11 5))
  | 2 => illegalField ((w.extractLsb' 14 2).toNat ≠ 3) (fixedBits w 0xFC0000FF#32 0xB4000002#32 (.vcvt (w.extractLsb' 21 5) (w.extractLsb' 16 5) (w.extractLsb' 11 5) (w.extractLsb' 8 3)))
  | 3 => fixedBits w 0xFC0000FF#32 0xB4000003#32 (.vcvts (w.extractLsb' 21 5) (w.extractLsb' 16 5) (w.extractLsb' 11 5) (w.extractLsb' 8 3))
  | 129 => fixedBits w 0xFC0007FF#32 0xB4000081#32 (.vencAuto (w.extractLsb' 21 5) (w.extractLsb' 16 5) (w.extractLsb' 11 5))
  | _ => .error .absentCode

/-- The words of major 0x30 (Msg): R29 to R33. -/
def decodeMsg (w : BitVec 32) : Except DecodeError Instr :=
  match (w.extractLsb' 0 10).toNat with
  | 0 => fixedBits w 0xFFE003FF#32 0xC0000000#32 (.send (w.extractLsb' 16 5) (w.extractLsb' 11 5) (w.extractLsb' 10 1))
  | 1 => fixedBits w 0xFFE003FF#32 0xC0000001#32 (.sendc (w.extractLsb' 16 5) (w.extractLsb' 11 5) (w.extractLsb' 10 1))
  | _ => .error .absentCode

/-- The words of major 0x31 (Pat): R29 to R33. -/
def decodePat (w : BitVec 32) : Except DecodeError Instr :=
  match (w.extractLsb' 0 11).toNat with
  | 0 => fixedBits w 0xFC00FFFF#32 0xC4000000#32 (.patset (w.extractLsb' 21 5) (w.extractLsb' 16 5))
  | 1 => fixedBits w 0xFFE0FFFF#32 0xC4000001#32 (.patclr (w.extractLsb' 16 5))
  | 2 => fixedBits w 0xFC0007FF#32 0xC4000002#32 (.chcfg (w.extractLsb' 21 5) (w.extractLsb' 16 5) (w.extractLsb' 11 5))
  | 3 => fixedBits w 0xFC00FFFF#32 0xC4000003#32 (.chcnt (w.extractLsb' 21 5) (w.extractLsb' 16 5))
  | _ => .error .absentCode

/-- The words of major 0x32 (Fab): R29 to R33. -/
def decodeFab (w : BitVec 32) : Except DecodeError Instr :=
  match (w.extractLsb' 0 11).toNat with
  | 0 => fixedBits w 0xFFFFFFFF#32 0xC8000000#32 (.flush)
  | 1 => fixedBits w 0xFFE0FFFF#32 0xC8000001#32 (.flushd (w.extractLsb' 16 5))
  | 2 => fixedBits w 0xFFFFFFFF#32 0xC8000002#32 (.fenceRel)
  | 3 => fixedBits w 0xFFFFFFFF#32 0xC8000003#32 (.fenceAcq)
  | 4 => fixedBits w 0xFFFFFFFF#32 0xC8000004#32 (.fenceAll)
  | 5 => fixedBits w 0xFC1FFFFF#32 0xC8000005#32 (.aggst (w.extractLsb' 21 5))
  | 6 => fixedBits w 0xFFE007FF#32 0xC8000006#32 (.aggcfg (w.extractLsb' 16 5) (w.extractLsb' 11 5))
  | _ => .error .absentCode

/-- The words of major 0x33 (Eng): R29 to R33. -/
def decodeEng (w : BitVec 32) : Except DecodeError Instr :=
  match (w.extractLsb' 0 11).toNat with
  | 0 => fixedBits w 0xFF80FFFF#32 0xCC000000#32 (.stg (w.extractLsb' 21 2) (w.extractLsb' 16 5))
  | 1 => illegalField ((w.extractLsb' 11 5).toNat ≤ 2) (fixedBits w 0xFC1F07FF#32 0xCC000001#32 (.enq (w.extractLsb' 21 5) (w.extractLsb' 11 5)))
  | 2 => fixedBits w 0xFC00FFFF#32 0xCC000002#32 (.tkst (w.extractLsb' 21 5) (w.extractLsb' 16 5))
  | 3 => fixedBits w 0xFC00FFFF#32 0xCC000003#32 (.ecancel (w.extractLsb' 21 5) (w.extractLsb' 16 5))
  | 4 => fixedBits w 0xFFE0FFFF#32 0xCC000004#32 (.ldstg (w.extractLsb' 16 5))
  | _ => .error .absentCode

/-- The words of major 0x34 (Cen): R29 to R33. -/
def decodeCen (w : BitVec 32) : Except DecodeError Instr :=
  match (w.extractLsb' 0 11).toNat with
  | 0 => fixedBits w 0xFC00FFFF#32 0xD0000000#32 (.solicit (w.extractLsb' 21 5) (w.extractLsb' 16 5))
  | 1 => fixedBits w 0xFFE007FF#32 0xD0000001#32 (.respond (w.extractLsb' 16 5) (w.extractLsb' 11 5))
  | 2 => fixedBits w 0xFC00FFFF#32 0xD0000002#32 (.diradd (w.extractLsb' 21 5) (w.extractLsb' 16 5))
  | 3 => fixedBits w 0xFC00FFFF#32 0xD0000003#32 (.dirdel (w.extractLsb' 21 5) (w.extractLsb' 16 5))
  | 4 => fixedBits w 0xFC0007FF#32 0xD0000004#32 (.dirmove (w.extractLsb' 21 5) (w.extractLsb' 16 5) (w.extractLsb' 11 5))
  | 5 => fixedBits w 0xFFE0FFFF#32 0xD0000005#32 (.cenclose (w.extractLsb' 16 5))
  | 6 => fixedBits w 0xFC00FFFF#32 0xD0000006#32 (.censt (w.extractLsb' 21 5) (w.extractLsb' 16 5))
  | _ => .error .absentCode

/-- The words of major 0x35 (Bar): R29 to R33. -/
def decodeBar (w : BitVec 32) : Except DecodeError Instr :=
  match (w.extractLsb' 0 11).toNat with
  | 0 => fixedBits w 0xFC00FFFF#32 0xD4000000#32 (.baralloc (w.extractLsb' 21 5) (w.extractLsb' 16 5))
  | 1 => fixedBits w 0xFFE0FFFF#32 0xD4000001#32 (.barfree (w.extractLsb' 16 5))
  | 2 => fixedBits w 0xFFE0FFFF#32 0xD4000002#32 (.arrive (w.extractLsb' 16 5))
  | 3 => fixedBits w 0xFFE0FFFF#32 0xD4000003#32 (.arrived (w.extractLsb' 16 5))
  | 4 => fixedBits w 0xFC00FFFF#32 0xD4000004#32 (.barst (w.extractLsb' 21 5) (w.extractLsb' 16 5))
  | _ => .error .absentCode

/-- The words of major 0x38 (Sys): R29 to R33. -/
def decodeSys (w : BitVec 32) : Except DecodeError Instr :=
  match (w.extractLsb' 12 4).toNat with
  | 0 => fixedBits w 0xFC1FF000#32 0xE0000000#32 (.mfc (w.extractLsb' 21 5) (w.extractLsb' 0 12))
  | 1 => fixedBits w 0xFFE0F000#32 0xE0001000#32 (.mtc (w.extractLsb' 16 5) (w.extractLsb' 0 12))
  | 2 => fixedBits w 0xFFFFF000#32 0xE0002000#32 (.trap (w.extractLsb' 0 12))
  | 3 => fixedBits w 0xFFFFFFFF#32 0xE0003000#32 (.rte)
  | 4 =>
    match (w.extractLsb' 0 1).toNat with
    | 0 => fixedBits w 0xFFFFFFFF#32 0xE0004000#32 (.endAct)
    | _ => fixedBits w 0xFFFFFFFF#32 0xE0004001#32 (.endExit)
  | 5 => fixedBits w 0xFFFFFFFF#32 0xE0005000#32 (.brk)
  | 6 => fixedBits w 0xFFFFFFFF#32 0xE0006000#32 (.retry)
  | 7 => fixedBits w 0xFC00FFFF#32 0xE0007000#32 (.launch (w.extractLsb' 21 5) (w.extractLsb' 16 5))
  | 8 => illegalField ((w.extractLsb' 0 2).toNat ≠ 0) (fixedBits w 0xFFFFFFFC#32 0xE0008000#32 (.cancel (w.extractLsb' 0 2)))
  | 9 => fixedBits w 0xFFFFFFFF#32 0xE0009000#32 (.nop)
  | 10 => fixedBits w 0xFFFFFFFF#32 0xE000A000#32 (.ifence)
  | _ => .error .absentCode

/-- One instruction word (R28 to R33): the instruction, or the name of what makes it illegal. -/
def decodeWord (w : BitVec 32) : Except DecodeError Instr :=
  match (w.extractLsb' 26 6).toNat with
  | 0x01 => decodeAlu w
  | 0x02 => decodeMulDiv w
  | 0x03 => fixedBits w 0xFC000000#32 0x0C000000#32 (.addi (w.extractLsb' 21 5) (w.extractLsb' 16 5) (w.extractLsb' 0 16))
  | 0x04 => fixedBits w 0xFC000000#32 0x10000000#32 (.andi (w.extractLsb' 21 5) (w.extractLsb' 16 5) (w.extractLsb' 0 16))
  | 0x05 => fixedBits w 0xFC000000#32 0x14000000#32 (.ori (w.extractLsb' 21 5) (w.extractLsb' 16 5) (w.extractLsb' 0 16))
  | 0x06 => fixedBits w 0xFC000000#32 0x18000000#32 (.xori (w.extractLsb' 21 5) (w.extractLsb' 16 5) (w.extractLsb' 0 16))
  | 0x07 => fixedBits w 0xFC000000#32 0x1C000000#32 (.slti (w.extractLsb' 21 5) (w.extractLsb' 16 5) (w.extractLsb' 0 16))
  | 0x08 => fixedBits w 0xFC000000#32 0x20000000#32 (.sltiu (w.extractLsb' 21 5) (w.extractLsb' 16 5) (w.extractLsb' 0 16))
  | 0x09 => decodeShi w
  | 0x0A => fixedBits w 0xFC000000#32 0x28000000#32 (.lih (w.extractLsb' 21 5) (w.extractLsb' 0 21))
  | 0x0B => fixedBits w 0xFC000000#32 0x2C000000#32 (.lix (w.extractLsb' 21 5) (w.extractLsb' 0 21))
  | 0x0C => fixedBits w 0xFC000000#32 0x30000000#32 (.addpc (w.extractLsb' 21 5) (w.extractLsb' 0 21))
  | 0x10 => fixedBits w 0xFC000000#32 0x40000000#32 (.beq (w.extractLsb' 21 5) (w.extractLsb' 16 5) (w.extractLsb' 0 16))
  | 0x11 => fixedBits w 0xFC000000#32 0x44000000#32 (.bne (w.extractLsb' 21 5) (w.extractLsb' 16 5) (w.extractLsb' 0 16))
  | 0x12 => fixedBits w 0xFC000000#32 0x48000000#32 (.blt (w.extractLsb' 21 5) (w.extractLsb' 16 5) (w.extractLsb' 0 16))
  | 0x13 => fixedBits w 0xFC000000#32 0x4C000000#32 (.bge (w.extractLsb' 21 5) (w.extractLsb' 16 5) (w.extractLsb' 0 16))
  | 0x14 => fixedBits w 0xFC000000#32 0x50000000#32 (.bltu (w.extractLsb' 21 5) (w.extractLsb' 16 5) (w.extractLsb' 0 16))
  | 0x15 => fixedBits w 0xFC000000#32 0x54000000#32 (.bgeu (w.extractLsb' 21 5) (w.extractLsb' 16 5) (w.extractLsb' 0 16))
  | 0x16 => fixedBits w 0xFC000000#32 0x58000000#32 (.jal (w.extractLsb' 21 5) (w.extractLsb' 0 21))
  | 0x17 => fixedBits w 0xFC000000#32 0x5C000000#32 (.jalr (w.extractLsb' 21 5) (w.extractLsb' 16 5) (w.extractLsb' 0 16))
  | 0x18 => fixedBits w 0xFC000000#32 0x60000000#32 (.ldb (w.extractLsb' 21 5) (w.extractLsb' 16 5) (w.extractLsb' 0 16))
  | 0x19 => fixedBits w 0xFC000000#32 0x64000000#32 (.ldbu (w.extractLsb' 21 5) (w.extractLsb' 16 5) (w.extractLsb' 0 16))
  | 0x1A => fixedBits w 0xFC000000#32 0x68000000#32 (.ldh (w.extractLsb' 21 5) (w.extractLsb' 16 5) (w.extractLsb' 0 16))
  | 0x1B => fixedBits w 0xFC000000#32 0x6C000000#32 (.ldhu (w.extractLsb' 21 5) (w.extractLsb' 16 5) (w.extractLsb' 0 16))
  | 0x1C => fixedBits w 0xFC000000#32 0x70000000#32 (.ldw (w.extractLsb' 21 5) (w.extractLsb' 16 5) (w.extractLsb' 0 16))
  | 0x1D => fixedBits w 0xFC000000#32 0x74000000#32 (.ldwu (w.extractLsb' 21 5) (w.extractLsb' 16 5) (w.extractLsb' 0 16))
  | 0x1E => fixedBits w 0xFC000000#32 0x78000000#32 (.ldd (w.extractLsb' 21 5) (w.extractLsb' 16 5) (w.extractLsb' 0 16))
  | 0x1F => fixedBits w 0xFC000000#32 0x7C000000#32 (.stb (w.extractLsb' 21 5) (w.extractLsb' 16 5) (w.extractLsb' 0 16))
  | 0x20 => fixedBits w 0xFC000000#32 0x80000000#32 (.sth (w.extractLsb' 21 5) (w.extractLsb' 16 5) (w.extractLsb' 0 16))
  | 0x21 => fixedBits w 0xFC000000#32 0x84000000#32 (.stw (w.extractLsb' 21 5) (w.extractLsb' 16 5) (w.extractLsb' 0 16))
  | 0x22 => fixedBits w 0xFC000000#32 0x88000000#32 (.std (w.extractLsb' 21 5) (w.extractLsb' 16 5) (w.extractLsb' 0 16))
  | 0x23 => decodeAtom w
  | 0x24 => decodeHdr w
  | 0x28 => decodeVarith w
  | 0x29 => decodeVcmp w
  | 0x2A => fixedBits w 0xFC000000#32 0xA8000000#32 (.vld (w.extractLsb' 21 5) (w.extractLsb' 16 5) (w.extractLsb' 0 16))
  | 0x2B => fixedBits w 0xFC000000#32 0xAC000000#32 (.vst (w.extractLsb' 21 5) (w.extractLsb' 16 5) (w.extractLsb' 0 16))
  | 0x2C => decodeVmemx w
  | 0x2D => decodeVconv w
  | 0x30 => decodeMsg w
  | 0x31 => decodePat w
  | 0x32 => decodeFab w
  | 0x33 => decodeEng w
  | 0x34 => decodeCen w
  | 0x35 => decodeBar w
  | 0x38 => decodeSys w
  | _ => .error .unusedMajor

/-- The word whose bytes are given in the order of rising addresses (R1). -/
def wordOfBytes (b0 b1 b2 b3 : Byte) : BitVec 32 := b3 ++ b2 ++ b1 ++ b0

/-- Read one instruction from bytes, with the bytes that follow it. -/
def decodeBytes : List Byte → Except DecodeError (Instr × List Byte)
  | b0 :: b1 :: b2 :: b3 :: rest =>
    match decodeWord (wordOfBytes b0 b1 b2 b3) with
    | .ok i => .ok (i, rest)
    | .error e => .error e
  | _ => .error .shortInput

/-- The word of an instruction, written from the same tables (R26, R28 to R33); none for a step that no word encodes. -/
def encode : Instr → Option (BitVec 32)
  | .add d a b => some (0x1#6 ++ d ++ a ++ b ++ 0x0#11)
  | .sub d a b => some (0x1#6 ++ d ++ a ++ b ++ 0x1#11)
  | .and d a b => some (0x1#6 ++ d ++ a ++ b ++ 0x2#11)
  | .or d a b => some (0x1#6 ++ d ++ a ++ b ++ 0x3#11)
  | .xor d a b => some (0x1#6 ++ d ++ a ++ b ++ 0x4#11)
  | .andn d a b => some (0x1#6 ++ d ++ a ++ b ++ 0x5#11)
  | .sll d a b => some (0x1#6 ++ d ++ a ++ b ++ 0x6#11)
  | .srl d a b => some (0x1#6 ++ d ++ a ++ b ++ 0x7#11)
  | .sra d a b => some (0x1#6 ++ d ++ a ++ b ++ 0x8#11)
  | .slt d a b => some (0x1#6 ++ d ++ a ++ b ++ 0x9#11)
  | .sltu d a b => some (0x1#6 ++ d ++ a ++ b ++ 0xA#11)
  | .min d a b => some (0x1#6 ++ d ++ a ++ b ++ 0xB#11)
  | .max d a b => some (0x1#6 ++ d ++ a ++ b ++ 0xC#11)
  | .minu d a b => some (0x1#6 ++ d ++ a ++ b ++ 0xD#11)
  | .maxu d a b => some (0x1#6 ++ d ++ a ++ b ++ 0xE#11)
  | .sel d a b => some (0x1#6 ++ d ++ a ++ b ++ 0xF#11)
  | .clz d a => some (0x1#6 ++ d ++ a ++ 0x10#16)
  | .ctz d a => some (0x1#6 ++ d ++ a ++ 0x11#16)
  | .popc d a => some (0x1#6 ++ d ++ a ++ 0x12#16)
  | .bfx d a b => some (0x1#6 ++ d ++ a ++ b ++ 0x13#11)
  | .bfi d a b => some (0x1#6 ++ d ++ a ++ b ++ 0x14#11)
  | .mul d a b => some (0x2#6 ++ d ++ a ++ b ++ 0x0#11)
  | .mulh d a b => some (0x2#6 ++ d ++ a ++ b ++ 0x1#11)
  | .mulhu d a b => some (0x2#6 ++ d ++ a ++ b ++ 0x2#11)
  | .div d a b => some (0x2#6 ++ d ++ a ++ b ++ 0x3#11)
  | .divu d a b => some (0x2#6 ++ d ++ a ++ b ++ 0x4#11)
  | .rem d a b => some (0x2#6 ++ d ++ a ++ b ++ 0x5#11)
  | .remu d a b => some (0x2#6 ++ d ++ a ++ b ++ 0x6#11)
  | .addi d a i => some (0x3#6 ++ d ++ a ++ i)
  | .andi d a i => some (0x4#6 ++ d ++ a ++ i)
  | .ori d a i => some (0x5#6 ++ d ++ a ++ i)
  | .xori d a i => some (0x6#6 ++ d ++ a ++ i)
  | .slti d a i => some (0x7#6 ++ d ++ a ++ i)
  | .sltiu d a i => some (0x8#6 ++ d ++ a ++ i)
  | .slli d a s => some (0x9#6 ++ d ++ a ++ 0x0#10 ++ s)
  | .srli d a s => some (0x9#6 ++ d ++ a ++ 0x100#10 ++ s)
  | .srai d a s => some (0x9#6 ++ d ++ a ++ 0x200#10 ++ s)
  | .lih d i => some (0xA#6 ++ d ++ i)
  | .lix d i => some (0xB#6 ++ d ++ i)
  | .addpc d i => some (0xC#6 ++ d ++ i)
  | .beq a b o => some (0x10#6 ++ a ++ b ++ o)
  | .bne a b o => some (0x11#6 ++ a ++ b ++ o)
  | .blt a b o => some (0x12#6 ++ a ++ b ++ o)
  | .bge a b o => some (0x13#6 ++ a ++ b ++ o)
  | .bltu a b o => some (0x14#6 ++ a ++ b ++ o)
  | .bgeu a b o => some (0x15#6 ++ a ++ b ++ o)
  | .jal d o => some (0x16#6 ++ d ++ o)
  | .jalr d a i => some (0x17#6 ++ d ++ a ++ i)
  | .ldb d a i => some (0x18#6 ++ d ++ a ++ i)
  | .ldbu d a i => some (0x19#6 ++ d ++ a ++ i)
  | .ldh d a i => some (0x1A#6 ++ d ++ a ++ i)
  | .ldhu d a i => some (0x1B#6 ++ d ++ a ++ i)
  | .ldw d a i => some (0x1C#6 ++ d ++ a ++ i)
  | .ldwu d a i => some (0x1D#6 ++ d ++ a ++ i)
  | .ldd d a i => some (0x1E#6 ++ d ++ a ++ i)
  | .stb d a i => some (0x1F#6 ++ d ++ a ++ i)
  | .sth d a i => some (0x20#6 ++ d ++ a ++ i)
  | .stw d a i => some (0x21#6 ++ d ++ a ++ i)
  | .std d a i => some (0x22#6 ++ d ++ a ++ i)
  | .amoadd d a b w => some (0x23#6 ++ d ++ a ++ b ++ w ++ 0x0#10)
  | .amomin d a b w => some (0x23#6 ++ d ++ a ++ b ++ w ++ 0x1#10)
  | .amomax d a b w => some (0x23#6 ++ d ++ a ++ b ++ w ++ 0x2#10)
  | .amominu d a b w => some (0x23#6 ++ d ++ a ++ b ++ w ++ 0x3#10)
  | .amomaxu d a b w => some (0x23#6 ++ d ++ a ++ b ++ w ++ 0x4#10)
  | .amoand d a b w => some (0x23#6 ++ d ++ a ++ b ++ w ++ 0x5#10)
  | .amoor d a b w => some (0x23#6 ++ d ++ a ++ b ++ w ++ 0x6#10)
  | .amoxor d a b w => some (0x23#6 ++ d ++ a ++ b ++ w ++ 0x7#10)
  | .amoswp d a b w => some (0x23#6 ++ d ++ a ++ b ++ w ++ 0x8#10)
  | .amocas d a b w => some (0x23#6 ++ d ++ a ++ b ++ w ++ 0x9#10)
  | .redAdd a b w => some (0x460#11 ++ a ++ b ++ w ++ 0x10#10)
  | .redMin a b w => some (0x460#11 ++ a ++ b ++ w ++ 0x11#10)
  | .redMax a b w => some (0x460#11 ++ a ++ b ++ w ++ 0x12#10)
  | .redOr a b w => some (0x460#11 ++ a ++ b ++ w ++ 0x13#10)
  | .redFadd a b => some (0x460#11 ++ a ++ b ++ 0x414#11)
  | .redBadd a b => some (0x460#11 ++ a ++ b ++ 0x415#11)
  | .ldhdr d a o => some (0x24#6 ++ d ++ a ++ 0x0#1 ++ o)
  | .sthdr d a o => some (0x24#6 ++ d ++ a ++ 0x1#1 ++ o)
  | .vaddF d a b m => some (0x28#6 ++ d ++ a ++ b ++ m ++ 0x0#8)
  | .vsubF d a b m => some (0x28#6 ++ d ++ a ++ b ++ m ++ 0x1#8)
  | .vmulF d a b m => some (0x28#6 ++ d ++ a ++ b ++ m ++ 0x2#8)
  | .vfmaF d a b m => some (0x28#6 ++ d ++ a ++ b ++ m ++ 0x3#8)
  | .vminF d a b m => some (0x28#6 ++ d ++ a ++ b ++ m ++ 0x4#8)
  | .vmaxF d a b m => some (0x28#6 ++ d ++ a ++ b ++ m ++ 0x5#8)
  | .vabsF d a m => some (0x28#6 ++ d ++ a ++ 0x0#5 ++ m ++ 0x6#8)
  | .vnegF d a m => some (0x28#6 ++ d ++ a ++ 0x0#5 ++ m ++ 0x7#8)
  | .vrcp d a m => some (0x28#6 ++ d ++ a ++ 0x0#5 ++ m ++ 0x8#8)
  | .vrsq d a m => some (0x28#6 ++ d ++ a ++ 0x0#5 ++ m ++ 0x9#8)
  | .vexp2 d a m => some (0x28#6 ++ d ++ a ++ 0x0#5 ++ m ++ 0xA#8)
  | .vlog2 d a m => some (0x28#6 ++ d ++ a ++ 0x0#5 ++ m ++ 0xB#8)
  | .vaddI d a b m => some (0x28#6 ++ d ++ a ++ b ++ m ++ 0xC#8)
  | .vsubI d a b m => some (0x28#6 ++ d ++ a ++ b ++ m ++ 0xD#8)
  | .vmulI d a b m => some (0x28#6 ++ d ++ a ++ b ++ m ++ 0xE#8)
  | .vand d a b m => some (0x28#6 ++ d ++ a ++ b ++ m ++ 0xF#8)
  | .vor d a b m => some (0x28#6 ++ d ++ a ++ b ++ m ++ 0x10#8)
  | .vxor d a b m => some (0x28#6 ++ d ++ a ++ b ++ m ++ 0x11#8)
  | .vsll d a b m => some (0x28#6 ++ d ++ a ++ b ++ m ++ 0x12#8)
  | .vsrl d a b m => some (0x28#6 ++ d ++ a ++ b ++ m ++ 0x13#8)
  | .vsra d a b m => some (0x28#6 ++ d ++ a ++ b ++ m ++ 0x14#8)
  | .vminI d a b m => some (0x28#6 ++ d ++ a ++ b ++ m ++ 0x15#8)
  | .vmaxI d a b m => some (0x28#6 ++ d ++ a ++ b ++ m ++ 0x16#8)
  | .vbcast d a m => some (0x28#6 ++ d ++ a ++ 0x0#5 ++ m ++ 0x18#8)
  | .vext d a b => some (0x28#6 ++ d ++ a ++ b ++ 0x19#11)
  | .vredsumF d a m => some (0x28#6 ++ d ++ a ++ 0x0#5 ++ m ++ 0x1A#8)
  | .vredmaxF d a m => some (0x28#6 ++ d ++ a ++ 0x0#5 ++ m ++ 0x1B#8)
  | .vperm d a b m => some (0x28#6 ++ d ++ a ++ b ++ m ++ 0x1C#8)
  | .viota d m => some (0x28#6 ++ d ++ 0x0#10 ++ m ++ 0x1D#8)
  | .vscal d a b m => some (0x28#6 ++ d ++ a ++ b ++ m ++ 0x1E#8)
  | .vaddD d a b m => some (0x28#6 ++ d ++ a ++ b ++ m ++ 0x40#8)
  | .vsubD d a b m => some (0x28#6 ++ d ++ a ++ b ++ m ++ 0x41#8)
  | .vmulD d a b m => some (0x28#6 ++ d ++ a ++ b ++ m ++ 0x42#8)
  | .vfmaD d a b m => some (0x28#6 ++ d ++ a ++ b ++ m ++ 0x43#8)
  | .vcmpeqF d a b m => some (0xA4#8 ++ d ++ a ++ b ++ m ++ 0x0#8)
  | .vcmpltF d a b m => some (0xA4#8 ++ d ++ a ++ b ++ m ++ 0x1#8)
  | .vcmpleF d a b m => some (0xA4#8 ++ d ++ a ++ b ++ m ++ 0x2#8)
  | .vcmpunF d a b m => some (0xA4#8 ++ d ++ a ++ b ++ m ++ 0x3#8)
  | .vcmpeqI d a b m => some (0xA4#8 ++ d ++ a ++ b ++ m ++ 0x4#8)
  | .vcmpltI d a b m => some (0xA4#8 ++ d ++ a ++ b ++ m ++ 0x5#8)
  | .vcmpltuI d a b m => some (0xA4#8 ++ d ++ a ++ b ++ m ++ 0x6#8)
  | .vsel d a b m => some (0x29#6 ++ d ++ a ++ b ++ m ++ 0x10#8)
  | .mand d a b => some (0xA4#8 ++ d ++ 0x0#2 ++ a ++ 0x0#2 ++ b ++ 0x20#11)
  | .mor d a b => some (0xA4#8 ++ d ++ 0x0#2 ++ a ++ 0x0#2 ++ b ++ 0x21#11)
  | .mxor d a b => some (0xA4#8 ++ d ++ 0x0#2 ++ a ++ 0x0#2 ++ b ++ 0x22#11)
  | .mnot d a => some (0xA4#8 ++ d ++ 0x0#2 ++ a ++ 0x23#16)
  | .mpop d a => some (0x29#6 ++ d ++ 0x0#2 ++ a ++ 0x24#16)
  | .mset d a => some (0xA4#8 ++ d ++ a ++ 0x25#16)
  | .vld d a i => some (0x2A#6 ++ d ++ a ++ i)
  | .vst d a i => some (0x2B#6 ++ d ++ a ++ i)
  | .vlds d a b m => some (0x2C#6 ++ d ++ a ++ b ++ m ++ 0x0#8)
  | .vsts d a b m => some (0x2C#6 ++ d ++ a ++ b ++ m ++ 0x1#8)
  | .vgather d a b m => some (0x2C#6 ++ d ++ a ++ b ++ m ++ 0x2#8)
  | .vscatter d a b m => some (0x2C#6 ++ d ++ a ++ b ++ m ++ 0x3#8)
  | .vcompress d a m => some (0x2C#6 ++ d ++ a ++ 0x0#5 ++ m ++ 0x4#8)
  | .vexpand d a m => some (0x2C#6 ++ d ++ a ++ 0x0#5 ++ m ++ 0x5#8)
  | .vdec d a p => some (0x2D#6 ++ d ++ a ++ 0x0#3 ++ p ++ 0x0#11)
  | .venc d a b => some (0x2D#6 ++ d ++ a ++ b ++ 0x1#11)
  | .vencAuto d a b => some (0x2D#6 ++ d ++ a ++ b ++ 0x81#11)
  | .vcvt d a s m => some (0x2D#6 ++ d ++ a ++ s ++ m ++ 0x2#8)
  | .vcvts d a b m => some (0x2D#6 ++ d ++ a ++ b ++ m ++ 0x3#8)
  | .send a b r => some (0x600#11 ++ a ++ b ++ r ++ 0x0#10)
  | .sendc a b r => some (0x600#11 ++ a ++ b ++ r ++ 0x1#10)
  | .patset d a => some (0x31#6 ++ d ++ a ++ 0x0#16)
  | .patclr a => some (0x620#11 ++ a ++ 0x1#16)
  | .chcfg d a b => some (0x31#6 ++ d ++ a ++ b ++ 0x2#11)
  | .chcnt d a => some (0x31#6 ++ d ++ a ++ 0x3#16)
  | .flush => some (0xC8000000#32)
  | .flushd a => some (0x640#11 ++ a ++ 0x1#16)
  | .fenceRel => some (0xC8000002#32)
  | .fenceAcq => some (0xC8000003#32)
  | .fenceAll => some (0xC8000004#32)
  | .aggst d => some (0x32#6 ++ d ++ 0x5#21)
  | .aggcfg a b => some (0x640#11 ++ a ++ b ++ 0x6#11)
  | .stg n a => some (0x198#9 ++ n ++ a ++ 0x0#16)
  | .enq d e => some (0x33#6 ++ d ++ 0x0#5 ++ e ++ 0x1#11)
  | .tkst d a => some (0x33#6 ++ d ++ a ++ 0x2#16)
  | .ecancel d a => some (0x33#6 ++ d ++ a ++ 0x3#16)
  | .ldstg a => some (0x660#11 ++ a ++ 0x4#16)
  | .solicit d a => some (0x34#6 ++ d ++ a ++ 0x0#16)
  | .respond a b => some (0x680#11 ++ a ++ b ++ 0x1#11)
  | .diradd d a => some (0x34#6 ++ d ++ a ++ 0x2#16)
  | .dirdel d a => some (0x34#6 ++ d ++ a ++ 0x3#16)
  | .dirmove d a b => some (0x34#6 ++ d ++ a ++ b ++ 0x4#11)
  | .cenclose a => some (0x680#11 ++ a ++ 0x5#16)
  | .censt d a => some (0x34#6 ++ d ++ a ++ 0x6#16)
  | .baralloc d a => some (0x35#6 ++ d ++ a ++ 0x0#16)
  | .barfree a => some (0x6A0#11 ++ a ++ 0x1#16)
  | .arrive a => some (0x6A0#11 ++ a ++ 0x2#16)
  | .arrived a => some (0x6A0#11 ++ a ++ 0x3#16)
  | .barst d a => some (0x35#6 ++ d ++ a ++ 0x4#16)
  | .mfc d c => some (0x38#6 ++ d ++ 0x0#9 ++ c)
  | .mtc a c => some (0x700#11 ++ a ++ 0x1#4 ++ c)
  | .trap k => some (0xE0002#20 ++ k)
  | .rte => some (0xE0003000#32)
  | .endAct => some (0xE0004000#32)
  | .endExit => some (0xE0004001#32)
  | .brk => some (0xE0005000#32)
  | .retry => some (0xE0006000#32)
  | .launch d a => some (0x38#6 ++ d ++ a ++ 0x7000#16)
  | .cancel l => some (0x38002000#30 ++ l)
  | .nop => some (0xE0009000#32)
  | .ifence => some (0xE000A000#32)
  | .illegal _ => none
  | .fetchFault => none
  | .mma _ _ _ => none
  | .mmac _ _ _ => none
  | .accz _ _ => none
  | .accst _ _ => none
  | .accld _ _ => none
  | .copy _ _ => none
  | .gather _ _ => none
  | .scatter _ _ => none
  | .bcast _ _ => none
  | .dmove _ _ => none
  | .filt _ _ => none
  | .conv _ _ => none
  | .commandArmed _ _ => none
  | .progressPointStop _ _ => none
  | .matcherFiring _ => none
  | .heldMessageDelivery _ _ => none
  | .asyncTrap _ _ => none
  | .holdBoundExpiry _ _ => none
  | .bufferLeave _ _ => none
  | .elements _ => none
  | .load _ => none
  | .amo _ => none
  | .hdr _ => none
  | .block _ => none
  | .sendPacket _ => none
  | .ack _ => none
  | .nak _ => none
  | .reply _ => none
  | .repair _ => none
  | .noparkRetry _ => none
  | .pageRelease _ _ => none
  | .invalidation _ _ => none
  | .solicitArrival _ => none
  | .nodeReport _ _ _ => none
  | .close _ => none
  | .closeAck _ => none
  | .dmoveOpen _ => none
  | .dmoveOpenReply _ => none
  | .commit _ _ => none
  | .adoption _ => none
  | .abortMove _ => none
  | .barrierOffer _ => none
  | .barrierArrival _ => none
  | .barrierCompletion _ => none
  | .tree _ => none
  | .hub _ => none
  | .pass _ => none
  | .headerRead _ _ => none
  | .imageLoad _ => none
  | .clusterRelease _ => none
  | .gangEnd _ => none
  | .gangEndSettled _ => none
  | .preempt _ => none
  | .coreSealed _ => none
  | .save _ => none
  | .restore _ => none
  | .modeChange => none
  | .packageReset _ _ => none
  | .routerGate _ => none
  | .routerWake _ => none
  | .routeSwap _ _ => none
  | .bankFlip _ => none
  | .fabricPacket _ _ => none
  | .flowRouteChange _ _ _ => none
  | .flitData _ _ => none
  | .flitIdle _ _ => none
  | .flitMarker _ _ => none
  | .flitAck _ _ => none
  | .flitNak _ _ => none
  | .keySwitch _ => none
  | .hostWindowAccess _ _ _ _ => none
  | .tenantset _ _ _ _ _ _ _ _ _ => none
  | .tenantclose _ _ => none
  | .submit _ _ _ => none
  | .cancelCmd _ _ _ => none
  | .preemptCmd _ _ => none
  | .mode _ _ => none
  | .bypass _ _ => none
  | .stage _ _ => none
  | .update _ => none
  | .upstat _ => none
  | .attest _ _ => none
  | .sessopen _ _ _ _ => none
  | .sessconf _ _ _ => none
  | .sessclose _ _ => none
  | .winopen _ _ _ _ _ => none
  | .winclose _ _ => none
  | .logread _ => none
  | .resumeCmd _ _ _ => none
  | .txWrite _ _ _ => none
  | .rxRead _ _ => none
  | .mbovfClear _ _ => none
  | .registerWrite _ _ _ => none
  | .quiesce => none
  | .handed _ => none
  | .resume => none
  | .alive _ => none
  | .reject _ => none
  | .continueImage => none
  | .gatedWrite => none
  | .watchdogExpiry => none
  | .microcodeBankSwitch _ => none
  | .microcodeSwitchBack _ => none
  | .uncorrectableError _ => none
  | .xlateUnmappedProt _ _ => none
  | .keySlotLoad _ _ => none
  | .imageFault => none
  | .microcodeMulticastDone => none
  | .operatorKeyWrite _ => none
  | .unknownOpcode _ _ => none

/-- The bytes of a word, the least significant first (R1). -/
def bytesOfWord (w : BitVec 32) : List Byte :=
  [w.extractLsb' 0 8, w.extractLsb' 8 8, w.extractLsb' 16 8, w.extractLsb' 24 8]

/-- The bits of a value numbered as the opcode table numbers them, as the bytes the store would hold. -/
def tableBytes (nbits w : Nat) : List Byte :=
  bytesOfWord (BitVec.ofNat 32 (w % 2 ^ nbits))

/-- The instruction the decoder reads from a word of the opcode table. -/
def decodeTableWord (nbits w : Nat) : Option Instr :=
  match decodeBytes (tableBytes nbits w) with
  | .ok (i, _) => some i
  | .error _ => none

end Sys2Proof
end

