-- ==== Sys2Proof/Machine/Control.lean ====
section
/-! DEFINITION. Control registers (R25, R140, R287), the register windows (R288) and the control window (R122, R123). -/

namespace Sys2Proof.Machine

/-- The word of an instruction, for TVAL of ILLEGAL and PRIV (R276). -/
def wordOf (i : Instr) : Dword := zext ((encode i).getD 0)

/-- SCAUSE (R287); with a pre-emption and a repair both pending, 0x11, for the rule gives neither the precedence (log 89). -/
def Core.scause (k : Core) : Nat :=
  if k.ctl.pre ≠ .none then 0x11 else if k.ctl.repairs ≠ 0 then 0x07 else 0

/-- What a control register reads as; none for an absent number (R25, R287). SLOT gives 4 in the supervisor slot, of which R25 says
nothing (log 86). -/
def Core.readCtl (k : Core) (c : Nat) (i : Fin 5) (n : Nat) : Option Dword :=
  let x := k.slot i
  match n with
  | 0x000 => some (BitVec.ofNat 64 c)
  | 0x001 => some (BitVec.ofNat 64 i.val)
  | 0x002 => some (zext k.page.tenant)
  | 0x003 => some (zext k.page.gangId)
  | 0x004 => some (BitVec.ofNat 64 k.page.rank)
  | 0x005 => some (BitVec.ofNat 64 k.cycle)
  | 0x010 => some k.ctl.trapvec
  | 0x011 => some (zext x.cause)
  | 0x012 => some x.epc
  | 0x013 => some x.tval
  | 0x014 => some (zext k.ctl.faultch)
  | 0x015 => some k.ctl.faultring
  | 0x020 => some (zext x.cdc)
  | 0x021 => some (BitVec.ofNat 64 k.ctl.agemax)
  | 0x022 => some (BitVec.ofNat 64 k.ctl.aggfill)
  | 0x030 => some k.ctl.srseed
  | 0x031 => some (zext x.rmode)
  | 0x032 => some k.ctl.cbtab
  | 0x040 => some (BitVec.ofNat 64 k.outstand)
  | 0x041 => some k.aggst
  | n =>
    if n < 0x100 then none
    else match n with
      | 0x100 => some (BitVec.ofNat 64 k.ctl.repairs)
      | 0x101 => some (BitVec.ofNat 64 k.parkedCount)
      | 0x102 => some (BitVec.ofNat 64 k.ctl.pre.code)
      | 0x103 => some k.ctl.saveva
      | 0x104 => some (BitVec.ofNat 64 k.scause)
      | _ => some 0

/-- A value limited to AGGFILL's range (R25, R203). -/
def fillOf (x : Nat) : Nat := if x % 32 = 0 then 1 else min (x % 32) 16

/-- A write to a control register: bits outside the fields are dropped, then each field is limited to its range; a
read-only register keeps its value (R3, R25). -/
def Core.writeCtl (k : Core) (i : Fin 5) (n : Nat) (v : Dword) : Core :=
  match n with
  | 0x010 => { k with ctl := { k.ctl with trapvec := v &&& 0xFFFFC#64 } }
  | 0x011 => k.modSlot i (fun x => { x with cause := v.extractLsb' 0 8 })
  | 0x012 => k.modSlot i (fun x => { x with epc := v })
  | 0x013 => k.modSlot i (fun x => { x with tval := v })
  | 0x014 => { k with ctl := { k.ctl with faultch := v.extractLsb' 0 7 } }
  | 0x015 => { k with ctl := { k.ctl with faultring := v &&& 0xFFF00#64 } }
  | 0x020 => k.modSlot i (fun x => { x with cdc := v.extractLsb' 0 7 })
  | 0x021 => { k with ctl := { k.ctl with agemax := field v 15 0 } }
  | 0x022 => { k with ctl := { k.ctl with aggfill := fillOf v.toNat } }
  | 0x030 => { k with ctl := { k.ctl with srseed := v } }
  | 0x031 => k.modSlot i (fun x => { x with rmode := if 4 < field v 2 0 then 0 else v.extractLsb' 0 3 })
  | 0x032 => { k with ctl := { k.ctl with cbtab := v &&& 0xFFC00#64 } }
  | 0x103 => { k with ctl := { k.ctl with saveva := v } }
  | _ => k

/-- MFC (R25, R140). -/
def execMfc (d : BitVec 5) (c : BitVec 12) (s : State) : Host.Outcome State Fault Refusal :=
  issue (.mfc d c) s (fun s =>
    if s.user ∧ 0x100 ≤ c.toNat then fatal s causePriv (zext c)
    else match s.here.readCtl s.issuer.1 s.issuer.2 c.toNat with
      | some v => s.retire d v
      | none => fatal s causeIllegal (wordOf (.mfc d c)))

/-- MTC (R25, R140). -/
def execMtc (a : BitVec 5) (c : BitVec 12) (s : State) : Host.Outcome State Fault Refusal :=
  issue (.mtc a c) s (fun s =>
    if s.user ∧ 0x100 ≤ c.toNat then fatal s causePriv (zext c)
    else match s.here.readCtl s.issuer.1 s.issuer.2 c.toNat with
      | some _ => (s.modHere (fun k => k.writeCtl s.issuer.2 c.toNat (s.reg a))).advance
      | none => fatal s causeIllegal (wordOf (.mtc a c)))

/-- NOP changes nothing but pc (R141). -/
def execNop (s : State) : Host.Outcome State Fault Refusal := issue .nop s State.advance

/-- IFENCE discards the words fetched and not yet issued (R141). -/
def execIfence (s : State) : Host.Outcome State Fault Refusal :=
  issue .ifence s (fun s => s.modMe (fun x => { x with fetched := [], pc := x.pc + 4 }))

/-! The windows of the core -/

/-- A window register as it is stored: reserved bits zero (R124). -/
def windowBits (v : Dword) : Dword := v &&& 0x800FE0FFFFFFFFFF#64

/-- A window register as a user slot's STD stores it: SRC 2 becomes 3 (R123). -/
def userWindow (v : Dword) : Dword :=
  let w := windowBits v
  if field w 51 50 = 2 then w ||| 0x0004000000000000#64 else w

/-- Dword j of a wide value. -/
def dwordAt {w : Nat} (x : BitVec w) (j : Nat) : Dword := x.extractLsb' (64 * j) 64

/-- A wide value with dword j replaced. -/
def setDwordAt {w : Nat} (x : BitVec w) (j : Nat) (v : Dword) : BitVec w :=
  (x &&& ~~~(BitVec.ofNat w (0xFFFFFFFFFFFFFFFF <<< (64 * j)))) ||| BitVec.ofNat w (v.toNat <<< (64 * j))

/-- A dword of the register window of a slot (R288). -/
def Core.readRegWin (k : Core) (i : Fin 5) (o : Nat) : Dword :=
  let x := k.slot i
  if o < 0x100 then x.reg (BitVec.ofNat 5 (o / 8))
  else if o < 0x2100 then dwordAt (x.vreg (BitVec.ofNat 5 ((o - 0x100) / 256))) ((o - 0x100) % 256 / 8)
  else if o < 0x2140 then x.mask (BitVec.ofNat 3 ((o - 0x2100) / 8))
  else if o < 0x2160 then x.st[(Fin.ofNat 4 ((o - 0x2140) / 8) : Fin 4)]
  else match o with
    | 0x2160 => x.status
    | 0x2168 => k.pendWord i
    | 0x2170 => zext x.cause
    | 0x2178 => x.epc
    | 0x2180 => x.tval
    | 0x2188 => zext x.cdc
    | 0x2190 => zext x.rmode
    | 0x2198 => (x.pendTraps.head?.map Prod.snd).getD 0
    | _ => 0

/-- Write a dword of the register window of a slot; discarded unless the slot is STOPPED or FREE (R288, R289). -/
def Core.writeRegWin (k : Core) (i : Fin 5) (o : Nat) (v : Dword) : Core :=
  let x := k.slot i
  if x.state ≠ .stopped ∧ x.state ≠ .free then k
  else k.setSlot i (
    if o < 0x100 then x.setReg (BitVec.ofNat 5 (o / 8)) v
    else if o < 0x2100 then
      let r := BitVec.ofNat 5 ((o - 0x100) / 256)
      x.setVreg r (setDwordAt (x.vreg r) ((o - 0x100) % 256 / 8) v)
    else if o < 0x2140 then x.setMask (BitVec.ofNat 3 ((o - 0x2100) / 8)) v
    else if o < 0x2160 then { x with st := x.st.set (Fin.ofNat 4 ((o - 0x2140) / 8) : Fin 4) v }
    else match o with
      | 0x2160 => { x with prio := field v 63 56, intrap := bit v 52, pc := v &&& 0xFFFFF#64 }
      | 0x2170 => { x with cause := v.extractLsb' 0 8 }
      | 0x2178 => { x with epc := v }
      | 0x2180 => { x with tval := v }
      | 0x2188 => { x with cdc := v.extractLsb' 0 7 }
      | 0x2190 => { x with rmode := if 4 < field v 2 0 then 0 else v.extractLsb' 0 3 }
      | _ => x)

/-- A dword of the control window (R122). -/
def Core.readCtlWin (k : Core) (o : Nat) : Dword :=
  if o < 0x40 then k.windows[(Fin.ofNat 8 (o / 8) : Fin 8)]
  else if o < 0x400 then 0
  else if o < 0x800 then dwordAt k.pats[(Fin.ofNat 32 ((o - 0x400) / 32) : Fin 32)] ((o - 0x400) % 32 / 8)
  else if o < 0xC00 then
    let x := k.chan ((o - 0x800) / 16)
    if (o - 0x800) % 16 < 8 then x.dword0 else x.dword1
  else if o < 0x1000 then 0
  else if o < 0x1800 then (k.dir[(Fin.ofNat 64 ((o - 0x1000) / 32) : Fin 64)]).dword ((o - 0x1000) % 32 / 8)
  else if o < 0x1880 then lockWord k.locks[(Fin.ofNat 16 ((o - 0x1800) / 8) : Fin 16)]
  else if o = 0x1900 then k.ctl.faultring
  else 0

/-- A channel with a dword of its state written (R214). -/
def Channel.setDword (x : Channel) (hi : Bool) (v : Dword) : Channel :=
  if hi then { x with arm := field v 47 0, rent := field v 63 52, rhead := field v 51 40, roff := field v 19 0 }
  else { x with decl := bit v 63, count := bit v 62, cnt := field v 47 0, spill := field v 59 48 }

/-- A pattern as the table holds it: the reserved byte of each term is zero (R4, R219). -/
def patStored (p : BitVec 256) : BitVec 256 :=
  p &&& ~~~(BitVec.ofNat 256 (255 * (2 ^ 72 + 2 ^ 120 + 2 ^ 168 + 2 ^ 216)))

/-- Write a dword of the control window; read-only fields and reserved offsets ignore it (R3, R122). -/
def Core.writeCtlWin (k : Core) (o : Nat) (v : Dword) : Core :=
  if o < 0x40 then { k with windows := k.windows.set (Fin.ofNat 8 (o / 8) : Fin 8) (windowBits v) }
  else if o < 0x400 then k
  else if o < 0x800 then
    let i : Fin 32 := Fin.ofNat 32 ((o - 0x400) / 32)
    { k with pats := k.pats.set i (patStored (setDwordAt k.pats[i] ((o - 0x400) % 32 / 8) v)) }
  else if o < 0xC00 then k.setChan ((o - 0x800) / 16) ((k.chan ((o - 0x800) / 16)).setDword (decide (8 ≤ (o - 0x800) % 16)) v)
  else if o = 0x1900 then { k with ctl := { k.ctl with faultring := v &&& 0xFFF00#64 } }
  else k

/-- Is the offset in the register windows or the control window? -/
def privileged (off : Nat) : Bool :=
  (decide (0xD0000 ≤ off) && decide (off < 0xDC000)) || (decide (0xE0000 ≤ off) && decide (off < 0xF0000))

/-- Is the offset a window register (R122)? -/
def isWindowReg (off : Nat) : Bool := decide (0xE0000 ≤ off) && decide (off < 0xE0040)

/-- LDD of the supervisor slot from a window. -/
def Core.readPriv (k : Core) (off : Nat) : Dword :=
  if off < 0xDC000 then k.readRegWin (slotNo ((off - 0xD0000) / 0x3000)) ((off - 0xD0000) % 0x3000)
  else k.readCtlWin (off - 0xE0000)

/-- STD of the supervisor slot into a window. -/
def Core.writePriv (k : Core) (off : Nat) (v : Dword) : Core :=
  if off < 0xDC000 then k.writeRegWin (slotNo ((off - 0xD0000) / 0x3000)) ((off - 0xD0000) % 0x3000) v
  else k.writeCtlWin (off - 0xE0000) v

end Sys2Proof.Machine
end

