-- ==== Sys2Proof/Machine/Float.lean ====
section
/-! DEFINITION. Exact floating-point values and rounding (R78, R87 to R89). -/

namespace Sys2Proof.Machine

/-- An exact value: (−1)^neg × mag × 2^exp, an infinity, or a NaN. -/
inductive Fp where
  | nan
  | inf (neg : Bool)
  | fin (neg : Bool) (mag : Nat) (exp : Int)
deriving DecidableEq, Repr

/-- A binary interchange format with `ebits` exponent bits and `mbits` fraction bits. -/
structure FloatFmt where
  ebits : Nat
  mbits : Nat
deriving DecidableEq, Repr

def fp32 : FloatFmt := ⟨8, 23⟩
def fp64 : FloatFmt := ⟨11, 52⟩
def bf16 : FloatFmt := ⟨8, 7⟩
def fp16 : FloatFmt := ⟨5, 10⟩
def e4m3 : FloatFmt := ⟨4, 3⟩
def e5m2 : FloatFmt := ⟨5, 2⟩
def e2m1 : FloatFmt := ⟨2, 1⟩

/-- The exponent bias. -/
def FloatFmt.bias (f : FloatFmt) : Int := 2 ^ (f.ebits - 1) - 1
/-- The exponent of the subnormal spacing. -/
def FloatFmt.qmin (f : FloatFmt) : Int := 1 - f.bias - f.mbits
/-- The place of the sign bit. -/
def FloatFmt.signBit (f : FloatFmt) : Nat := 2 ^ (f.ebits + f.mbits)
/-- The code of +infinity in the formats that have one. -/
def FloatFmt.infCode (f : FloatFmt) : Nat := (2 ^ f.ebits - 1) * 2 ^ f.mbits
/-- The canonical NaN (R78). -/
def FloatFmt.nanCode (f : FloatFmt) : Nat := f.infCode + 2 ^ (f.mbits - 1)

/-- The finite value of a code, sign apart (R78 to R81). -/
def FloatFmt.finite (f : FloatFmt) (neg : Bool) (code : Nat) : Fp :=
  let e := code / 2 ^ f.mbits
  let m := code % 2 ^ f.mbits
  if e = 0 then .fin neg m f.qmin else .fin neg (2 ^ f.mbits + m) (f.qmin + (e - 1 : Nat))

/-- The value of a code of an IEEE 754 format (R78). -/
def FloatFmt.value (f : FloatFmt) (code : Nat) : Fp :=
  let neg := decide (f.signBit ≤ code % (2 * f.signBit))
  let c := code % f.signBit
  if c < f.infCode then f.finite neg c else if c = f.infCode then .inf neg else .nan

/-- The roundings of R87; a stochastic one carries its 24 drawn bits (R89). -/
inductive Rnd where
  | nearestEven
  | towardZero
  | towardPos
  | towardNeg
  | stochastic (r : Nat)
deriving DecidableEq, Repr

/-- ⌊log2 (num / den × 2^e)⌋ for positive num and den. -/
def ratLog2 (num den : Nat) (e : Int) : Int :=
  let l : Int := (num.log2 : Int) - (den.log2 : Int)
  let ge : Bool := if 0 ≤ l then decide (den * 2 ^ l.toNat ≤ num) else decide (den ≤ num * 2 ^ (-l).toNat)
  (if ge then l else l - 1) + e

/-- Does the rounding take the magnitude k + rem/den up to k + 1? -/
def Rnd.up (r : Rnd) (neg : Bool) (k rem den : Nat) : Bool :=
  match r with
  | .nearestEven => decide (den < 2 * rem) || (decide (2 * rem = den) && decide (k % 2 = 1))
  | .towardZero => false
  | .towardPos => !neg && decide (rem ≠ 0)
  | .towardNeg => neg && decide (rem ≠ 0)
  | .stochastic d => decide (d < rem * 2 ^ 24 / den)

/-- num / den × 2^e on the grid of spacing 2^q. -/
def roundAt (r : Rnd) (neg : Bool) (num den : Nat) (e q : Int) : Nat :=
  let n := if q ≤ e then num * 2 ^ (e - q).toNat else num
  let d := if q ≤ e then den else den * 2 ^ (q - e).toNat
  let k := n / d
  if r.up neg k (n % d) d then k + 1 else k

/-- ROUND of R87 to a floating-point grid with an unbounded exponent: a magnitude k and a spacing exponent q. -/
def roundGrid (f : FloatFmt) (r : Rnd) (neg : Bool) (num den : Nat) (e : Int) : Nat × Int :=
  if num = 0 then (0, f.qmin) else
  let q := max (ratLog2 num den e - f.mbits) f.qmin
  (roundAt r neg num den e q, q)

/-- The code, sign apart, of magnitude k × 2^q on the grid: the exponent may run past the format's. -/
def FloatFmt.gridCode (f : FloatFmt) (k : Nat) (q : Int) : Nat := (q - f.qmin).toNat * 2 ^ f.mbits + k

/-- A code with its sign. -/
def FloatFmt.signed (f : FloatFmt) (neg : Bool) (c : Nat) : Nat := if neg then f.signBit + c else c

/-- What IEEE 754 overflow gives under a rounding: an infinity, or the largest finite value for a directed mode. -/
def FloatFmt.overflow (f : FloatFmt) (r : Rnd) (neg : Bool) : Nat :=
  match r with
  | .towardZero => f.infCode - 1
  | .towardPos => if neg then f.infCode - 1 else f.infCode
  | .towardNeg => if neg then f.infCode else f.infCode - 1
  | _ => f.infCode

/-- Round num / den × 2^e into an IEEE format. -/
def FloatFmt.roundRat (f : FloatFmt) (r : Rnd) (neg : Bool) (num den : Nat) (e : Int) : Nat :=
  let kq := roundGrid f r neg num den e
  let c := f.gridCode kq.1 kq.2
  f.signed neg (if c < f.infCode then c else f.overflow r neg)

/-- Round an exact value into an IEEE format (R87): RNE_FP32 and RNE_FP64 are the cases of nearest even. -/
def FloatFmt.round (f : FloatFmt) (r : Rnd) : Fp → Nat
  | .nan => f.nanCode
  | .inf neg => f.signed neg f.infCode
  | .fin neg m e => f.roundRat r neg m 1 e

def rneFp32 (x : Fp) : Word := BitVec.ofNat 32 (fp32.round .nearestEven x)
def rneFp64 (x : Fp) : Dword := BitVec.ofNat 64 (fp64.round .nearestEven x)
def ofFp32 (x : Word) : Fp := fp32.value x.toNat
def ofFp64 (x : Dword) : Fp := fp64.value x.toNat

/-- A finite value as a signed mantissa on the spacing 2^q, q at most its exponent. -/
def fixMant (neg : Bool) (m : Nat) (e q : Int) : Int :=
  let x : Nat := m * 2 ^ (e - q).toNat
  if neg then -(x : Int) else x

namespace Fp

def isNan : Fp → Bool
  | .nan => true
  | _ => false

def isZero : Fp → Bool
  | .fin _ 0 _ => true
  | _ => false

def sign : Fp → Bool
  | .nan => false
  | .inf s => s
  | .fin s _ _ => s

def negate : Fp → Fp
  | .nan => .nan
  | .inf s => .inf (!s)
  | .fin s m e => .fin (!s) m e

def abs : Fp → Fp
  | .nan => .nan
  | .inf _ => .inf false
  | .fin _ m e => .fin false m e

/-- The exact product; an infinity times zero is a NaN. -/
def mul : Fp → Fp → Fp
  | .nan, _ => .nan
  | _, .nan => .nan
  | .inf s, .inf t => .inf (s != t)
  | .inf s, .fin t m _ => if m = 0 then .nan else .inf (s != t)
  | .fin s m _, .inf t => if m = 0 then .nan else .inf (s != t)
  | .fin s m e, .fin t n f => .fin (s != t) (m * n) (e + f)

/-- The exact sum; infinities of both signs give a NaN; an exact zero takes its sign by the IEEE rules, `down` being
the rounding toward −∞ (log 14). -/
def addMode (down : Bool) : Fp → Fp → Fp
  | .nan, _ => .nan
  | _, .nan => .nan
  | .inf s, .inf t => if s = t then .inf s else .nan
  | .inf s, .fin _ _ _ => .inf s
  | .fin _ _ _, .inf t => .inf t
  | .fin s m e, .fin t n f =>
    let q := min e f
    let x := fixMant s m e q + fixMant t n f q
    if x = 0 then .fin (if m = 0 ∧ n = 0 ∧ s = t then s else down) 0 q
    else .fin (decide (x < 0)) x.natAbs q

def add (x y : Fp) : Fp := addMode false x y

/-- Numeric order of two values that are no NaN. -/
def lt : Fp → Fp → Bool
  | .nan, _ => false
  | _, .nan => false
  | .inf s, .inf t => s && !t
  | .inf s, .fin _ _ _ => s
  | .fin _ _ _, .inf t => !t
  | .fin s m e, .fin t n f =>
    let q := min e f
    decide (fixMant s m e q < fixMant t n f q)

/-- Numeric equality; −0 equals +0. -/
def eq : Fp → Fp → Bool
  | .nan, _ => false
  | _, .nan => false
  | .inf s, .inf t => s == t
  | .inf _, .fin _ _ _ => false
  | .fin _ _ _, .inf _ => false
  | .fin s m e, .fin t n f =>
    let q := min e f
    decide (fixMant s m e q = fixMant t n f q)

/-- The exact value of an integer. -/
def ofInt (x : Int) : Fp := .fin (decide (x < 0)) x.natAbs 0

/-- Is a term of a sum of this kind present? -/
def anyInf (neg : Bool) (l : List Fp) : Bool := l.any (fun x => decide (x = .inf neg))

/-- The exact sum of a group of terms (R93): NaN rules first, then infinities; a zero sum is −0 only when every term is −0
(log 14). -/
def sum (l : List Fp) : Fp :=
  if l.any isNan || (anyInf true l && anyInf false l) then .nan
  else if anyInf true l then .inf true
  else if anyInf false l then .inf false
  else match l with
    | [] => .fin false 0 0
    | x :: r => r.foldl add x

end Fp

/-- The mixing function of stochastic rounding (R89). -/
def mixStep (x : Dword) : Dword := (x ^^^ (x >>> 32)) * 0xD6E8FEB86659FD93#64

def mix (x : Dword) : Dword :=
  let y := mixStep (mixStep x)
  y ^^^ (y >>> 32)

/-- The 24 bits a stochastic rounding draws (R89); `high` for a 4-bit element in the high nibble. -/
def draw24 (seed addr : Dword) (tag : Nat) (high : Bool) : Nat :=
  let m := mix (seed ^^^ (addr * 0x9E6C63D0676A9A99#64) ^^^ BitVec.ofNat 64 (tag % 65536))
  if high then field m 47 24 else field m 23 0

end Sys2Proof.Machine
end

