-- ==== Sys2Proof/Machine/Formats.lean ====
section
/-! DEFINITION. Self-describing blocks and element formats (R72 to R92). -/

namespace Sys2Proof.Machine

/-- The element formats of R74. -/
inductive Fmt where
  | raw | fp32 | fp64 | bf16 | fp16 | e4m3 | e5m2 | e2m1 | int8 | int4 | cb2 | int32
deriving DecidableEq, Repr

/-- The format of a code; none for the reserved codes 0x0C to 0xFF (R74, R75). -/
def Fmt.ofCode (c : Nat) : Option Fmt :=
  match c with
  | 0 => some .raw | 1 => some .fp32 | 2 => some .fp64 | 3 => some .bf16 | 4 => some .fp16 | 5 => some .e4m3
  | 6 => some .e5m2 | 7 => some .e2m1 | 8 => some .int8 | 9 => some .int4 | 10 => some .cb2 | 11 => some .int32
  | _ => none

def Fmt.code : Fmt → Nat
  | .raw => 0 | .fp32 => 1 | .fp64 => 2 | .bf16 => 3 | .fp16 => 4 | .e4m3 => 5
  | .e5m2 => 6 | .e2m1 => 7 | .int8 => 8 | .int4 => 9 | .cb2 => 10 | .int32 => 11

/-- Bits of an element; for CB2 of a 16-bit index of 8 weights (R74). RAW counts as bytes. -/
def Fmt.width : Fmt → Nat
  | .raw => 8 | .fp32 => 32 | .fp64 => 64 | .bf16 => 16 | .fp16 => 16 | .e4m3 => 8
  | .e5m2 => 8 | .e2m1 => 4 | .int8 => 8 | .int4 => 4 | .cb2 => 16 | .int32 => 32

/-- Elements of a block (R74). -/
def Fmt.perBlock : Fmt → Nat
  | .cb2 => 256
  | f => 512 / f.width

/-- Is SCALE applied on read (R74)? -/
def Fmt.scaled : Fmt → Bool
  | .e4m3 | .e5m2 | .e2m1 | .int8 | .int4 | .cb2 => true
  | _ => false

def hdrAux (h : Header) : Nat := field h 31 28
def hdrSign (h : Header) : Bool := bit h 27
def hdrExp (h : Header) : Nat := field h 26 19
def hdrMant (h : Header) : Nat := field h 18 8
def hdrFmt (h : Header) : Nat := field h 7 0

/-- A header from its fields (R72). -/
def mkHeader (aux : Nat) (sign : Bool) (exp mant fmt : Nat) : Header :=
  BitVec.ofNat 32 (aux % 16 * 2 ^ 28 + b2n sign * 2 ^ 27 + exp % 256 * 2 ^ 19 + mant % 2048 * 2 ^ 8 + fmt % 256)

/-- The header of scale +1.0 in a format (R73). -/
def unitHeader (f : Fmt) : Header := mkHeader 0 false 127 0 f.code

/-- How a block is read: under a header of a known format, or as zeros (R75). -/
inductive BlockView where
  | typed (f : Fmt) (h : Header)
  | zeros (f : Fmt)
deriving DecidableEq, Repr

/-- R75: RAW reads in the default format with scale +1.0 and AUX 0, a reserved FMT as zeros of the default format. -/
def viewBlock (dflt : Fmt) (h : Header) : BlockView :=
  match Fmt.ofCode (hdrFmt h) with
  | none => .zeros dflt
  | some .raw => .typed dflt (unitHeader dflt)
  | some f => .typed f h

/-- The format a block is read in. -/
def BlockView.fmt : BlockView → Fmt
  | .typed f _ => f
  | .zeros f => f

/-- Element i of a block, its raw code (R77). -/
def elementCode (f : Fmt) (blk : Block) (i : Nat) : Nat := nbits blk.toNat (f.width * i + f.width - 1) (f.width * i)

/-- The largest finite magnitude (R90), on the format's own grid. -/
def Fmt.maxF : Fmt → Nat × Int
  | .e4m3 => (448, 0) | .e5m2 => (57344, 0) | .e2m1 => (6, 0) | .int8 => (127, 0) | .int4 => (7, 0)
  | .int32 => (2 ^ 31 - 1, 0)
  | .fp32 => (2 ^ 24 - 1, 104) | .fp64 => (2 ^ 53 - 1, 971) | .bf16 => (255, 120) | .fp16 => (2047, 5)
  | .raw => (0, 0) | .cb2 => (0, 0)

/-- F of R90, where AUTO has one. -/
def Fmt.autoF : Fmt → Option Int
  | .e4m3 => some 8 | .e5m2 => some 15 | .e2m1 => some 2 | .int8 => some 6 | .int4 => some 2
  | _ => none

/-- The floating-point shape of a format. -/
def Fmt.float : Fmt → Option FloatFmt
  | .fp32 => some Machine.fp32 | .fp64 => some Machine.fp64 | .bf16 => some Machine.bf16 | .fp16 => some Machine.fp16
  | .e4m3 => some Machine.e4m3 | .e5m2 => some Machine.e5m2 | .e2m1 => some Machine.e2m1
  | _ => none

/-- A w-bit two's complement code as an integer. -/
def signedOf (w code : Nat) : Int :=
  let c := code % 2 ^ w
  if c < 2 ^ (w - 1) then c else (c : Int) - 2 ^ w

/-- INT8, INT4 and INT32 elements after substitution (R81, R82). -/
def intElement (f : Fmt) (code : Nat) : Int :=
  match f with
  | .int8 => max (signedOf 8 code) (-127)
  | .int4 => max (signedOf 4 code) (-7)
  | _ => signedOf 32 code

/-- The value of an element code before its scale (R78 to R82). CB2 and RAW have no element code of their own. -/
def elementValue (f : Fmt) (code : Nat) : Fp :=
  match f with
  | .fp32 => Machine.fp32.value code
  | .fp64 => Machine.fp64.value code
  | .bf16 => Machine.bf16.value code
  | .fp16 => Machine.fp16.value code
  | .e4m3 =>
    let c := code % 128
    Machine.e4m3.finite (decide (128 ≤ code % 256)) (if c = 127 then 126 else c)
  | .e5m2 =>
    let c := code % 128
    let neg := decide (128 ≤ code % 256)
    if c < 124 then Machine.e5m2.finite neg c
    else if c = 124 then Machine.e5m2.finite neg 123
    else .fin false 0 0
  | .e2m1 => Machine.e2m1.finite (decide (8 ≤ code % 16)) (code % 8)
  | .int8 | .int4 | .int32 => Fp.ofInt (intElement f code)
  | .raw | .cb2 => .fin false 0 0

/-- Apply a header's scale (R73, R83). -/
def applyScale (h : Header) (v : Fp) : Fp :=
  let e := hdrExp h
  if e = 0 then .fin false 0 0
  else if e = 255 then v
  else v.mul (.fin (hdrSign h) (2048 + hdrMant h) ((e : Int) - 127 - 11))

/-- Weight j of a codebook entry under the sign byte (R84). -/
def codebookWeight (entry : Nat) (signs j : Nat) : Fp :=
  let mag := nbits entry (4 * j + 3) (4 * j)
  .fin (decide (mag ≠ 0) && decide (nbits signs j j = 1)) mag (-3)

/-- The default table's entry k (R86). -/
def defaultEntry (k : Nat) : Nat :=
  ((List.range 8).map (fun j => (4 * nbits k (2 * (j % 4) + 1) (2 * (j % 4)) + 1 + (if 4 ≤ j then 2 else 0)) * 2 ^ (4 * j))).foldl (· + ·) 0

/-- Element i of a block, its exact value with the scale applied (R83, R84); `entry t k` reads the codebooks. -/
def decodeElement (view : BlockView) (entry : Nat → Nat → Nat) (blk : Block) (i : Nat) : Fp :=
  match view with
  | .zeros _ => .fin false 0 0
  | .typed .cb2 h =>
    let idx := elementCode .cb2 blk (i / 8)
    applyScale h (codebookWeight (entry (hdrAux h) (nbits idx 15 8)) (nbits idx 7 0) (i % 8))
  | .typed f h =>
    let v := elementValue f (elementCode f blk i)
    if f.scaled then applyScale h v else v

/-- Element i as an integer, for INT32 accumulation: scale not applied (R94). -/
def decodeInt (view : BlockView) (blk : Block) (i : Nat) : Int :=
  match view with
  | .zeros _ => 0
  | .typed f _ => intElement f (elementCode f blk i)

/-- The code of MAXF, sign apart (R90). -/
def Fmt.maxCode (f : Fmt) : Nat :=
  match f with
  | .e4m3 => 126 | .e5m2 => 123 | .e2m1 => 7
  | _ => match f.float with
    | some g => g.infCode - 1
    | none => f.maxF.1

/-- A code, sign apart, with its sign: integers in two's complement (R81). -/
def Fmt.signedCode (f : Fmt) (neg : Bool) (c : Nat) : Nat :=
  match f.float with
  | some g => g.signed neg c
  | none => if neg then (2 ^ f.width - c) % 2 ^ f.width else c

/-- Encode num / den × 2^e: one rounding, saturated at MAXF (R90). -/
def encodeRat (f : Fmt) (r : Rnd) (neg : Bool) (num den : Nat) (e : Int) : Nat :=
  match f.float with
  | some g =>
    let kq := roundGrid g r neg num den e
    f.signedCode neg (min (g.gridCode kq.1 kq.2) f.maxCode)
  | none => f.signedCode neg (min (roundAt r neg num den e 0) f.maxCode)

/-- Encode one element under a scale header (R90, R91): `h` is the header the block will carry. -/
def encodeElement (f : Fmt) (h : Header) (r : Rnd) (x : Fp) : Nat :=
  if f.scaled && hdrExp h == 0 then 0 else
  match x with
  | .nan => 0
  | .inf neg => f.signedCode neg f.maxCode
  | .fin neg m e =>
    if f.scaled && hdrExp h != 255 then
      encodeRat f r (neg != hdrSign h) m (2048 + hdrMant h) (e - ((hdrExp h : Int) - 127 - 11))
    else encodeRat f r neg m 1 e

/-- The header of a GIVEN encode (R91): FMT set to the target, a reserved exponent and an unscaled format as +1.0. -/
def givenHeader (f : Fmt) (h : Header) : Header :=
  if f.scaled && hdrExp h != 255 then mkHeader 0 (hdrSign h) (hdrExp h) (hdrMant h) f.code
  else unitHeader f

/-- amax of R92: NaNs count as 0, infinities as the largest finite value of the source format. -/
def amax (src : Fmt) (l : List Fp) : Fp :=
  l.foldl (fun acc x =>
    let y : Fp := match x with
      | .nan => .fin false 0 0
      | .inf _ => .fin false src.maxF.1 src.maxF.2
      | .fin _ m e => .fin false m e
    if acc.lt y then y else acc) (.fin false 0 0)

/-- The header of an AUTO encode (R92). -/
def autoHeader (f src : Fmt) (l : List Fp) : Header :=
  match f.autoF, amax src l with
  | some F, .fin _ m e =>
    if m = 0 then unitHeader f
    else mkHeader 0 false (min (max (ratLog2 m 1 e - F) (-126)) 127 + 127).toNat 0 f.code
  | _, _ => unitHeader f

/-- A block from its element codes, element 0 first (R77). -/
def packCodes (f : Fmt) (l : List Nat) : Block :=
  BitVec.ofNat 512 (l.foldr (fun x acc => x % 2 ^ f.width + 2 ^ f.width * acc) 0)

/-- The permitted targets of an encode (R90). -/
def Fmt.encodable (f : Fmt) : Bool :=
  match f with
  | .raw | .cb2 => false
  | _ => true

end Sys2Proof.Machine
end

