-- ==== Sys2Proof/Machine/Remote.lean ====
section
/-! DEFINITION. Atomics and reductions (R197 to R199), flushes, fences, AGGST and AGGCFG (R200 to R204). -/

namespace Sys2Proof.Machine

/-- A w-byte datum read as signed. -/
def signedDatum (w x : Nat) : Int :=
  let c := x % 2 ^ (8 * w)
  if c < 2 ^ (8 * w - 1) then c else (c : Int) - 2 ^ (8 * w)

/-- The new datum of a returning atomic on w bytes (R197): old M, operand B, compare value C. -/
def amoResult (op : AmoOp) (w m b c : Nat) : Nat :=
  let q := 2 ^ (8 * w)
  let b := b % q
  match op with
  | .add => (m + b) % q
  | .min => if signedDatum w m < signedDatum w b then m else b
  | .max => if signedDatum w b < signedDatum w m then m else b
  | .minu => min m b
  | .maxu => max m b
  | .and => m &&& b
  | .or => m ||| b
  | .xor => m ^^^ b
  | .swp => b
  | .cas => if m = c % q then b else m

/-- RED.FADD: the FP32 sum (R96). -/
def faddDatum (m b : Nat) : Nat := (rneFp32 (Fp.add (ofFp32 (BitVec.ofNat 32 m)) (ofFp32 (BitVec.ofNat 32 b)))).toNat

/-- One half of RED.BADD (R96). -/
def baddHalf (m b : Nat) : Nat := bf16.round .nearestEven (Fp.add (bf16.value m) (bf16.value b))

/-- The new datum of a store or a reduction (R197). -/
def elemResult (op : ElemOp) (w m b : Nat) : Nat :=
  match op with
  | .store => b % 2 ^ (8 * w)
  | .redAdd => amoResult .add w m b 0
  | .redMin => amoResult .min w m b 0
  | .redMax => amoResult .max w m b 0
  | .redOr => amoResult .or w m b 0
  | .redFadd => faddDatum m b
  | .redBadd => baddHalf (nbits m 15 0) (nbits b 15 0) + 2 ^ 16 * baddHalf (nbits m 31 16) (nbits b 31 16)

/-- g d after an atomic: the old datum, a word sign-extended (R197). -/
def amoValue (w m : Nat) : Dword := if w = 8 then BitVec.ofNat 64 m else sext (BitVec.ofNat 32 m)

/-- An own-core atomic or reduction once its check passes: the update, then what follows. On a window register, which LDD and STD
alone reach, one of 8 bytes is PRIV and one of 4 ADDR (R117, R123). -/
def ownAtom (s : State) (ea : Dword) (off w : Nat) (f : Nat → Nat) (after : Nat → State → State) : State :=
  if s.user && isWindowReg off && decide (w = 8) then fatal s causePriv ea
  else match s.here.firstFault s.user true off w with
  | some x => raise s ea x
  | none =>
    let m := readLE s.here.ls off w
    after m (s.modHere (fun k => k.writeLs off (leBytes w (f m))))

/-- A returning atomic (R197 to R199). -/
def amo (i : Instr) (op : AmoOp) (d a b : BitVec 5) (w : BitVec 1) (s : State) : Host.Outcome State Fault Refusal :=
  issue i s (fun s =>
    let n := atomWidth w
    let ea := s.reg a
    let x := s.reg b
    let c := s.reg d
    if aligned ea.toNat n = false then trapHere s causeAlign ea
    else match s.place ea with
      | .bad => fatal s causeAddr ea
      | .own off => ownAtom s ea off n (fun m => amoResult op n m x.toNat c.toNat) (fun m s => s.retire d (amoValue n m))
      | p => match p.dest with
        | some dest =>
          let q : Request := { uid := 0, slot := s.issuer.2.val, act := s.me.act, kind := .amo d n op x c,
                               parts := [⟨dest, ea, n, 0, .sent⟩], ea := ea, refused := none, discard := false }
          (issueRequest s s.issuer.1 q [.amo ea n op x c]).advance
        | none => s)

def execAmoadd (d a b : BitVec 5) (w : BitVec 1) (s : State) := amo (.amoadd d a b w) .add d a b w s
def execAmomin (d a b : BitVec 5) (w : BitVec 1) (s : State) := amo (.amomin d a b w) .min d a b w s
def execAmomax (d a b : BitVec 5) (w : BitVec 1) (s : State) := amo (.amomax d a b w) .max d a b w s
def execAmominu (d a b : BitVec 5) (w : BitVec 1) (s : State) := amo (.amominu d a b w) .minu d a b w s
def execAmomaxu (d a b : BitVec 5) (w : BitVec 1) (s : State) := amo (.amomaxu d a b w) .maxu d a b w s
def execAmoand (d a b : BitVec 5) (w : BitVec 1) (s : State) := amo (.amoand d a b w) .and d a b w s
def execAmoor (d a b : BitVec 5) (w : BitVec 1) (s : State) := amo (.amoor d a b w) .or d a b w s
def execAmoxor (d a b : BitVec 5) (w : BitVec 1) (s : State) := amo (.amoxor d a b w) .xor d a b w s
def execAmoswp (d a b : BitVec 5) (w : BitVec 1) (s : State) := amo (.amoswp d a b w) .swp d a b w s
def execAmocas (d a b : BitVec 5) (w : BitVec 1) (s : State) := amo (.amocas d a b w) .cas d a b w s

/-- A reduction: own-core at retire, any other into a buffer (R187, R197). -/
def red (i : Instr) (op : ElemOp) (a b : BitVec 5) (w : BitVec 1) (s : State) : Host.Outcome State Fault Refusal :=
  issue i s (fun s =>
    let n := atomWidth w
    let ea := s.reg a
    let x := s.reg b
    if aligned ea.toNat n = false then trapHere s causeAlign ea
    else match s.place ea with
      | .bad => fatal s causeAddr ea
      | .own off => ownAtom s ea off n (fun m => elemResult op n m x.toNat) (fun _ s => s.advance)
      | _ => (enterElement s s.issuer.1 (s.here.element s.issuer.2 ea op n x)).advance)

def execRedAdd (a b : BitVec 5) (w : BitVec 1) (s : State) := red (.redAdd a b w) .redAdd a b w s
def execRedMin (a b : BitVec 5) (w : BitVec 1) (s : State) := red (.redMin a b w) .redMin a b w s
def execRedMax (a b : BitVec 5) (w : BitVec 1) (s : State) := red (.redMax a b w) .redMax a b w s
def execRedOr (a b : BitVec 5) (w : BitVec 1) (s : State) := red (.redOr a b w) .redOr a b w s
/-- The floating-point reductions exist on words alone (R31). -/
def execRedFadd (a b : BitVec 5) (s : State) := red (.redFadd a b) .redFadd a b 1 s
def execRedBadd (a b : BitVec 5) (s : State) := red (.redBadd a b) .redBadd a b 1 s

/-! FAB (R200 to R204) -/

/-- FLUSH: every OPEN buffer of the core leaves (R200). -/
def execFlush (s : State) : Host.Outcome State Fault Refusal :=
  issue .flush s (fun s => (leaveAll s s.issuer.1).advance)

/-- FLUSHD: the OPEN buffer of the destination that g a names leaves; an address that fails its decode is ADDR (R49, R200). -/
def execFlushd (a : BitVec 5) (s : State) : Host.Outcome State Fault Refusal :=
  issue (.flushd a) s (fun s =>
    match s.place (s.reg a) with
    | .bad => fatal s causeAddr (s.reg a)
    | .own off => if reservedOffset off then fatal s causeAddr (s.reg a) else s.advance
    | p => match p.dest with
      | some dest => (leaveDest s s.issuer.1 dest).advance
      | none => s.advance)

/-- FENCE.REL (R201). -/
def execFenceRel (s : State) : Host.Outcome State Fault Refusal :=
  issue .fenceRel s (fun s => withRelease s State.advance)

/-- FENCE.ACQ: a pending AGGF traps; the buffers leave, and the slot's later reads of memory wait for its outstanding
requests (R201). -/
def execFenceAcq (s : State) : Host.Outcome State Fault Refusal :=
  issue .fenceAcq s (fun s =>
    match s.me.aggf with
    | some p => trapHere (s.modMe (fun x => { x with aggf := none })) causeAggf p
    | none =>
      let s := leaveAll s s.issuer.1
      let wait := !s.here.acquired s.issuer.2.val
      s.modMe (fun x => { x with acquire := wait, pc := x.pc + 4 }))

/-- FENCE.ALL: what a release waits for includes what an acquire waits for (R201). -/
def execFenceAll (s : State) : Host.Outcome State Fault Refusal :=
  issue .fenceAll s (fun s => withRelease s State.advance)

/-- AGGST (R202). -/
def execAggst (d : BitVec 5) (s : State) : Host.Outcome State Fault Refusal :=
  issue (.aggst d) s (fun s => s.retire d s.here.aggst)

/-- AGGCFG writes AGEMAX and AGGFILL in one step (R203). -/
def execAggcfg (a b : BitVec 5) (s : State) : Host.Outcome State Fault Refusal :=
  issue (.aggcfg a b) s (fun s =>
    let x := field (s.reg a) 15 0
    let y := fillOf (s.reg b).toNat
    (s.modHere (fun k => { k with ctl := { k.ctl with agemax := x, aggfill := y } })).advance)

end Sys2Proof.Machine
end

