-- ==== Sys2Proof/Machine/Commands.lean ====
section
/-! DEFINITION. Tile command words and what ENQ checks of them (R34 to R39, R105 to R108, R164, R166, R172 to R181), range
locks (R110, R111), queues, hazards and arming (R102 to R104, R171, R182). -/

namespace Sys2Proof.Machine

/-! Fields of R34 -/

def cmdCode (w : BitVec 256) : Nat := field w 7 0
def cmdRel (w : BitVec 256) : Bool := bit w 8
def cmdArm (w : BitVec 256) : Bool := bit w 9
def cmdNotify (w : BitVec 256) : Bool := bit w 10
def cmdLock (w : BitVec 256) : Bool := bit w 11
def cmdArm0 (w : BitVec 256) : Nat := field w 21 16
def cmdArm1 (w : BitVec 256) : Nat := field w 27 22
def cmdQueue (w : BitVec 256) : Nat := field w 31 28
def cmdDone (w : BitVec 256) : Nat := field w 37 32
def cmdDstch (w : BitVec 256) : Nat := field w 43 38
def cmdDstchen (w : BitVec 256) : Bool := bit w 44
def cmdSpecBits (w : BitVec 256) : Nat := field w 63 48

/-- A field of st j, [hi:lo]. -/
def stf (w : BitVec 256) (j hi lo : Nat) : Nat := field w (64 * j + hi) (64 * j + lo)

/-- The channel a command credits at its destination, when it does (R114). -/
def cmdCredit (w : BitVec 256) : Option Nat := if cmdDstchen w then some (cmdDstch w) else none

/-- The engine of a command code (R35). -/
def engineOf (code : Nat) : Option Nat :=
  if 1 ≤ code ∧ code ≤ 5 then some 0 else if 0x10 ≤ code ∧ code ≤ 0x14 then some 1 else if code = 0x20 ∨ code = 0x21 then some 2 else none

/-- Blocks that hold n elements at k a block. -/
def blocksFor (n k : Nat) : Nat := (n + k - 1) / k

/-! Operands -/

/-- A local operand of a command: a destination or a source, over [lo, hi) (R103, R110). -/
structure Operand where
  dest : Bool
  lo : Nat
  hi : Nat
deriving DecidableEq, Repr

/-- What ENQ finds of a command's own checks (R36, R39), and its local operands. -/
structure Check where
  illegal : Bool
  badAddr : Bool
  ops : List Operand
deriving DecidableEq, Repr

/-- Does an address have the own-core form? -/
def ownForm (a : Dword) : Bool := decide (a.toNat < 2 ^ 20)

/-- Is a destination in this core's local store (R36; log 33)? -/
def inLocalStore (a : Dword) : Bool := decide (a.toNat < 0x60000)

/-- Does an address have the device-memory form (R49)? -/
def deviceForm (a : Dword) : Bool := bit a 63 && decide (field a 62 56 = 0)

/-- The check of an operand range (R105). -/
def Core.rangeOk (k : Core) (dev : Nat) (a : Dword) (n : Nat) : Bool :=
  match decodeAddr k.page dev a with
  | .own off => k.inStore off n
  | .peer _ off | .foreign _ _ off => decide (off + n ≤ 2 ^ 20)
  | .va x => decide (x + n ≤ 2 ^ 56)
  | .bad => false

/-- Do two ranges of bytes meet? -/
def spansMeet (a b c d : Int) : Bool := decide (a < d) && decide (c < b)

/-- A 2-D region: X, Y and the strides of COPY and BCAST (R105). -/
structure Region where
  x : Nat
  y : Nat
  sstr : Int
  dstr : Int
deriving DecidableEq, Repr

def regionOf (w : BitVec 256) : Region :=
  ⟨stf w 3 19 0, stf w 3 31 20, 16 * signedOf 16 (stf w 3 47 32), 16 * signedOf 16 (stf w 3 63 48)⟩

/-- Byte i of row r of an operand, mod 2^64 (R105). -/
def rowAddr (base : Dword) (stride : Int) (r i : Nat) : Dword := BitVec.ofInt 64 (base.toNat + r * stride + i)

/-- The span of an operand over all its rows (R105). -/
def regionSpan (base : Nat) (stride : Int) (x y : Nat) : Int × Int :=
  let last : Int := base + (y - 1 : Nat) * stride
  (min (base : Int) last, max (base : Int) last + x)

/-- An operand over a region of the local store. -/
def regionOp (dest : Bool) (base : Nat) (stride : Int) (x y : Nat) : Operand :=
  let sp := regionSpan base stride x y
  ⟨dest, sp.1.toNat, sp.2.toNat⟩

/-- COPY (R105). -/
def checkCopy (k : Core) (dev : Nat) (w : BitVec 256) : Check :=
  let g := regionOf w
  let src := dwordAt w 1
  let dst := dwordAt w 2
  let sp := regionSpan src.toNat g.sstr g.x g.y
  let dp := regionSpan dst.toNat g.dstr g.x g.y
  { illegal := decide (cmdSpecBits w ≠ 0) || decide (g.x = 0) || decide (g.y = 0)
      || (ownForm src && ownForm dst && spansMeet sp.1 sp.2 dp.1 dp.2)
      || ((List.range g.y).any (fun r => inLocalStore (rowAddr dst g.dstr r 0)) && !cmdLock w) || (cmdDstchen w && deviceForm dst)
    badAddr := !(List.range g.y).all (fun r => k.rangeOk dev (rowAddr src g.sstr r 0) g.x && k.rangeOk dev (rowAddr dst g.dstr r 0) g.x)
    ops := (if ownForm src then [regionOp false src.toNat g.sstr g.x g.y] else [])
      ++ (if ownForm dst then [regionOp true dst.toNat g.dstr g.x g.y] else []) }

/-- GATHER and SCATTER (R106). A base at a reserved own-core offset passes here and faults ADDR at the first element, which the spec leaves open
(log 100). -/
def checkIndexed (k : Core) (dev : Nat) (w : BitVec 256) (gather : Bool) : Check :=
  let src := dwordAt w 1
  let dst := dwordAt w 2
  let es := stf w 3 44 32
  let n := stf w 3 31 20
  let idx := stf w 3 19 0
  let packed := if gather then dst else src
  let indexed := if gather then src else dst
  { illegal := decide (cmdSpecBits w ≠ 0) || decide (stf w 3 63 45 ≠ 0) || decide (es = 0) || decide (4096 < es) || decide (n = 0)
      || decide (idx % 4 ≠ 0) || (inLocalStore dst && !cmdLock w) || (cmdDstchen w && deviceForm dst)
    badAddr := !k.rangeOk dev packed (n * es) || !k.inStore idx (4 * n) || decide (decodeAddr k.page dev indexed = .bad)
    ops := [⟨false, idx, idx + 4 * n⟩]
      ++ (if ownForm packed then [⟨gather, packed.toNat, packed.toNat + n * es⟩] else [])
      ++ (if ownForm indexed ∧ indexed.toNat < k.page.lsbytes then [⟨!gather, indexed.toNat, k.page.lsbytes⟩] else []) }

/-- The rectangle of a BCAST: corner column and row, width − 1, height − 1 (R107). -/
structure BcastRect where
  c : Nat
  q : Nat
  wm1 : Nat
  hm1 : Nat
deriving DecidableEq, Repr

def bcastRect (k : Core) (w : BitVec 256) : BcastRect :=
  let corner := stf w 2 32 20
  ⟨corner % k.page.width, corner / k.page.width, stf w 2 39 33, stf w 2 45 40⟩

/-- The ranks of the rectangle, row by row: a column past the gang's width holds no core. -/
def BcastRect.ranks (b : BcastRect) (width : Nat) : List Nat :=
  (List.range (b.hm1 + 1)).flatMap (fun q =>
    ((List.range (b.wm1 + 1)).filter (fun c => decide (b.c + c < width))).map (fun c => (b.q + q) * width + (b.c + c)))

/-- Is the issuing core among the receivers (R107)? -/
def bcastSelf (k : Core) (w : BitVec 256) : Bool :=
  bit w 48 && ((bcastRect k w).ranks k.page.width).contains k.page.rank

/-- BCAST (R107). -/
def checkBcast (k : Core) (dev : Nat) (w : BitVec 256) : Check :=
  let g := regionOf w
  let src := dwordAt w 1
  let off := stf w 2 19 0
  let b := bcastRect k w
  let own := bcastSelf k w
  let sp := regionSpan src.toNat g.sstr g.x g.y
  let dp := regionSpan off g.dstr g.x g.y
  { illegal := decide (stf w 0 63 49 ≠ 0) || decide (stf w 2 63 46 ≠ 0) || decide (g.x = 0) || decide (g.y = 0)
      || (own && !cmdLock w) || (own && ownForm src && spansMeet sp.1 sp.2 dp.1 dp.2)
    badAddr := decide (k.page.width ≤ b.c + b.wm1) || decide (k.page.height ≤ b.q + b.hm1)
      || !(List.range g.y).all (fun r => k.rangeOk dev (rowAddr src g.sstr r 0) g.x
          && (let t := rowAddr (BitVec.ofNat 64 off) g.dstr r 0
              ownForm t && k.inStore t.toNat g.x))
    ops := (if ownForm src then [regionOp false src.toNat g.sstr g.x g.y] else [])
      ++ (if own then [regionOp true off g.dstr g.x g.y] else []) }

/-- FILT (R164, R165). -/
def checkFilt (k : Core) (dev : Nat) (w : BitVec 256) : Check :=
  let rw := stf w 1 63 52
  let n := stf w 1 51 40
  let idxen := bit w 53
  let idx := stf w 1 39 20
  let src := stf w 1 19 0
  let dst := dwordAt w 2
  let len := n * 4 * rw
  let own := ownForm dst
  { illegal := decide (rw = 0) || decide (n = 0) || decide (rw ≤ stf w 0 63 56) || decide (stf w 0 52 48 ≠ 0)
      || (idxen && decide (idx % 4 ≠ 0)) || decide (src % 4 ≠ 0) || decide (dst.toNat % 4 ≠ 0)
      || (own && spansMeet src (src + len) dst.toNat (dst.toNat + len))
      || (idxen && spansMeet src (src + len) idx (idx + 4 * n))
      || (idxen && own && spansMeet idx (idx + 4 * n) dst.toNat (dst.toNat + len))
      || ((inLocalStore dst || (idxen && decide (idx < 0x60000))) && !cmdLock w) || (cmdDstchen w && deviceForm dst)
    badAddr := !k.inStore src len || !k.rangeOk dev dst len || (idxen && !k.inStore idx (4 * n))
    ops := [⟨false, src, src + len⟩] ++ (if own then [⟨true, dst.toNat, dst.toNat + len⟩] else [])
      ++ (if idxen then [⟨true, idx, idx + 4 * n⟩] else []) }

/-- The format a field names, where CONV and ACCLD admit it as a default: 0x01 to 0x0B. -/
def dfmtOf (c : Nat) : Option Fmt :=
  match Fmt.ofCode c with
  | some .raw => none
  | f => f

/-- The format a field names as a target (R90). -/
def tfmtOf (c : Nat) : Option Fmt :=
  match Fmt.ofCode c with
  | some f => if f.encodable then some f else none
  | none => none

/-- CONV (R166, R167). -/
def checkConv (k : Core) (dev : Nat) (w : BitVec 256) : Check :=
  let src := dwordAt w 1
  let dst := dwordAt w 2
  let ne := stf w 3 19 0
  match tfmtOf (stf w 0 63 56), dfmtOf (stf w 3 43 36) with
  | some t, some d =>
    let sl := 64 * blocksFor ne d.perBlock
    let dl := 64 * blocksFor ne t.perBlock
    { illegal := decide (4 < stf w 0 55 53) || decide (stf w 0 51 48 ≠ 0) || decide (ne = 0)
        || (ownForm src && ownForm dst && spansMeet src.toNat (src.toNat + sl) dst.toNat (dst.toNat + dl))
        || (inLocalStore dst && !cmdLock w) || (cmdDstchen w && deviceForm dst)
      badAddr := decide (src.toNat % 64 ≠ 0) || decide (dst.toNat % 64 ≠ 0) || !k.rangeOk dev src sl || !k.rangeOk dev dst dl
      ops := (if ownForm src then [⟨false, src.toNat, src.toNat + sl⟩] else [])
        ++ (if ownForm dst then [⟨true, dst.toNat, dst.toNat + dl⟩] else []) }
  | _, _ => ⟨true, false, []⟩

/-! MXE commands (R172 to R181) -/

/-- The region of an MXE command (R172). -/
structure AccRegion where
  acc : Nat
  row : Nat
  col : Nat
  m : Nat
  n : Nat
deriving DecidableEq, Repr

def accRegion (w : BitVec 256) : AccRegion := ⟨stf w 2 45 44, stf w 2 6 0, stf w 2 14 8, stf w 2 22 16 + 1, stf w 2 30 24 + 1⟩
def accKg (w : BitVec 256) : Nat := stf w 2 43 32
def accZero (w : BitVec 256) : Bool := bit w 174
/-- K-group size (R175). -/
def accG (acc : Nat) : Nat := if acc = 2 then 4 else 32
/-- K (R172). -/
def accK (w : BitVec 256) : Nat := accG (accRegion w).acc * accKg w
/-- Bytes of an element of a view (R170). -/
def accWidth (acc : Nat) : Nat := if acc = 2 then 8 else 4

/-- The checks of st2, ZERO and KG apart (R172). -/
def st2Illegal (w : BitVec 256) : Bool :=
  let r := accRegion w
  decide (stf w 2 63 47 ≠ 0) || bit w 159 || bit w 151 || bit w 143 || bit w 135 || decide (r.acc = 3)
    || decide (128 < r.row + r.m) || decide ((if r.acc = 2 then 64 else 128) < r.col + r.n)

/-- The commands without K have ZERO and KG zero (R172). -/
def noKg (w : BitVec 256) : Bool := accZero w || decide (accKg w ≠ 0)

/-- Formats that an MMA admits for A, and for B (R174). -/
def admitsA (acc : Nat) (f : Fmt) : Bool :=
  match acc with
  | 0 => (match f with
    | .bf16 | .fp16 | .e4m3 | .e5m2 | .e2m1 | .int8 | .int4 => true
    | _ => false)
  | 1 => (match f with
    | .int8 | .int4 => true
    | _ => false)
  | _ => decide (f = .fp64)

def admitsB (acc : Nat) (f : Fmt) : Bool := admitsA acc f || (decide (acc = 0) && decide (f = .cb2))

/-- A run of blocks per row or column: span of an MMA operand (R175). -/
def runSpan (off stride count k per : Nat) : Operand := ⟨false, off, off + 64 * (stride * (count - 1) + blocksFor k per)⟩

/-- MMA (R173 to R175). -/
def checkMma (k : Core) (w : BitVec 256) : Check :=
  let r := accRegion w
  match Fmt.ofCode (stf w 0 55 48), Fmt.ofCode (stf w 0 63 56) with
  | some fa, some fb =>
    let a := runSpan (stf w 1 19 0) (stf w 1 51 40) r.m (accK w) fa.perBlock
    let b := runSpan (stf w 1 39 20) (stf w 1 63 52) r.n (accK w) fb.perBlock
    { illegal := st2Illegal w || decide (accKg w = 0) || decide (dwordAt w 3 ≠ 0) || !admitsA r.acc fa || !admitsB r.acc fb
      badAddr := decide (a.lo % 64 ≠ 0) || decide (b.lo % 64 ≠ 0) || !k.inStore a.lo (a.hi - a.lo) || !k.inStore b.lo (b.hi - b.lo)
      ops := [a, b] }
  | _, _ => ⟨true, false, []⟩

/-- The source region of an MMAC in the FP32 view (R177). -/
def mmacSource (w : BitVec 256) : AccRegion := ⟨0, stf w 3 38 32, stf w 3 46 40, (accRegion w).m, accK w⟩

/-- The narrow formats of MMAC (R177). -/
def cfmtOf (c : Nat) : Option Fmt :=
  match Fmt.ofCode c with
  | some f => if admitsA 0 f then some f else none
  | none => none

/-- Do two accumulator regions share a byte (R171)? -/
def AccRegion.meets (a b : AccRegion) : Bool :=
  spansMeet a.row (a.row + a.m) b.row (b.row + b.m)
    && spansMeet (accWidth a.acc * a.col) (accWidth a.acc * (a.col + a.n)) (accWidth b.acc * b.col) (accWidth b.acc * (b.col + b.n))

/-- MMAC (R177). -/
def checkMmac (k : Core) (w : BitVec 256) : Check :=
  let r := accRegion w
  let src := mmacSource w
  match cfmtOf (stf w 3 7 0), Fmt.ofCode (stf w 0 63 56) with
  | some _, some fb =>
    let b := runSpan (stf w 1 39 20) (stf w 1 63 52) r.n (accK w) fb.perBlock
    { illegal := st2Illegal w || decide (accKg w = 0) || decide (r.acc ≠ 0) || decide (stf w 0 55 48 ≠ 0) || decide (stf w 1 19 0 ≠ 0)
        || decide (stf w 1 51 40 ≠ 0) || decide (stf w 3 63 47 ≠ 0) || bit w 231 || decide (3 < stf w 3 10 8) || !admitsB 0 fb
        || decide (128 < src.row + src.m) || decide (128 < src.col + src.n) || src.meets r
      badAddr := decide (b.lo % 64 ≠ 0) || !k.inStore b.lo (b.hi - b.lo)
      ops := [b] }
  | _, _ => ⟨true, false, []⟩

/-- ACCZ (R179). -/
def checkAccz (w : BitVec 256) : Check :=
  ⟨st2Illegal w || noKg w || decide (cmdSpecBits w ≠ 0) || decide (dwordAt w 1 ≠ 0) || decide (dwordAt w 3 ≠ 0), false, []⟩

/-- ACCST (R180). -/
def checkAccst (k : Core) (dev : Nat) (w : BitVec 256) : Check :=
  let r := accRegion w
  let dst := dwordAt w 1
  match tfmtOf (stf w 3 7 0) with
  | some t =>
    let nb := blocksFor r.n t.perBlock
    let dstr := stf w 3 59 48
    let lim := 64 * (dstr * (r.m - 1) + nb)
    { illegal := st2Illegal w || noKg w || decide (cmdSpecBits w ≠ 0) || decide (stf w 3 63 60 ≠ 0) || decide (dstr < nb)
        || decide (4 < stf w 3 10 8) || (inLocalStore dst && !cmdLock w) || (cmdDstchen w && deviceForm dst)
      badAddr := decide (dst.toNat % 64 ≠ 0) || !(List.range r.m).all (fun m => k.rangeOk dev (dst + BitVec.ofNat 64 (64 * dstr * m)) (64 * nb))
      ops := if ownForm dst then [⟨true, dst.toNat, dst.toNat + lim⟩] else [] }
  | none => ⟨true, false, []⟩

/-- Formats of ACCLD for the INT32 view (R181). -/
def intFmt (f : Fmt) : Bool :=
  match f with
  | .int8 | .int4 | .int32 => true
  | _ => false

/-- ACCLD (R181). -/
def checkAccld (k : Core) (dev : Nat) (w : BitVec 256) : Check :=
  let r := accRegion w
  let src := dwordAt w 1
  match dfmtOf (stf w 3 7 0) with
  | some d =>
    let nb := blocksFor r.n d.perBlock
    let sstr := stf w 3 19 8
    let lim := 64 * (sstr * (r.m - 1) + nb)
    { illegal := st2Illegal w || noKg w || decide (cmdSpecBits w ≠ 0) || decide (stf w 3 63 20 ≠ 0) || (decide (r.acc = 1) && !intFmt d)
      badAddr := decide (src.toNat % 64 ≠ 0) || !(List.range r.m).all (fun m => k.rangeOk dev (src + BitVec.ofNat 64 (64 * sstr * m)) (64 * nb))
      ops := if ownForm src then [⟨false, src.toNat, src.toNat + lim⟩] else [] }
  | none => ⟨true, false, []⟩

/-- The check of a DMOVE, which DIRMOVE alone builds (R108, R242): its source is locked. -/
def checkDmove (w : BitVec 256) : Check :=
  ⟨false, false, [⟨false, (dwordAt w 1).toNat, (dwordAt w 1).toNat + stf w 3 19 0⟩]⟩

/-- The command's own checks, by its code. -/
def checkCommand (k : Core) (dev : Nat) (w : BitVec 256) : Check :=
  match cmdCode w with
  | 0x01 => checkMma k w
  | 0x02 => checkMmac k w
  | 0x03 => checkAccz w
  | 0x04 => checkAccst k dev w
  | 0x05 => checkAccld k dev w
  | 0x10 => checkCopy k dev w
  | 0x11 => checkIndexed k dev w true
  | 0x12 => checkIndexed k dev w false
  | 0x13 => checkBcast k dev w
  | 0x14 => checkDmove w
  | 0x20 => checkFilt k dev w
  | _ => checkConv k dev w

/-- The local operands of a command (R103, R110). -/
def Core.operands (k : Core) (dev : Nat) (w : BitVec 256) : List Operand := (checkCommand k dev w).ops

/-! Acceptance (R36, R99, R110) -/

/-- The common ILLEGAL checks of ENQ (R36, R108). -/
def commonIllegal (eng : Nat) (w : BitVec 256) : Bool :=
  decide (engineOf (cmdCode w) ≠ some eng) || decide (cmdCode w = 0x14) || decide (stf w 0 15 12 ≠ 0) || decide (stf w 0 47 45 ≠ 0)
    || (if eng = 0 then decide (1 < cmdQueue w) else decide (cmdQueue w ≠ 0))

/-- The BADTERM checks (R36). -/
def Core.badTerm (k : Core) (w : BitVec 256) : Bool :=
  (cmdArm w && (!k.isCount (cmdArm0 w) || !k.isCount (cmdArm1 w))) || (cmdNotify w && !k.isMsg (cmdDone w))

/-- Do two commands share a queue (R102, R182)? -/
def sameQueue (e q : Nat) (m : Command) : Bool := decide (m.engine = e) && (decide (e ≠ 0) || decide (cmdQueue m.word = q))

/-- Depth of a queue (R99). -/
def queueDepth (e : Nat) : Nat := if e = 1 then 16 else 8

/-- Free entries of the range-lock table. -/
def Core.freeLocks (k : Core) : Nat := (k.locks.toList.filter (fun o => o.isNone)).length

/-- The entries ENQ takes (R110). -/
def lockOps (w : BitVec 256) (ops : List Operand) : List Operand :=
  if cmdLock w then ops.filter (fun o => decide (o.lo < o.hi)) else []

/-- The codes of R39 after the checks of the operands: LOCKFULL, FULL. -/
def Core.roomCode (k : Core) (eng : Nat) (w : BitVec 256) (ops : List Operand) : Option Nat :=
  if k.freeLocks < (lockOps w ops).length then some 3
  else if queueDepth eng ≤ (k.eng.cmds.filter (sameQueue eng (cmdQueue w))).length then some 1
  else none

/-- What ENQ returns instead of a ticket: the first failure in the order of R39. -/
def Core.enqCode (k : Core) (dev eng : Nat) (w : BitVec 256) : Option Nat :=
  if commonIllegal eng w then some 2
  else
    let ch := checkCommand k dev w
    if ch.illegal then some 2
    else if ch.badAddr then some 4
    else if k.badTerm w then some 6
    else k.roomCode eng w ch.ops

/-- Put an entry into the lowest free place of the lock table. -/
def takeLock (l : List (Option Lock)) (x : Lock) : List (Option Lock) :=
  match l with
  | [] => []
  | none :: r => some x :: r
  | some y :: r => some y :: takeLock r x

def Core.setLocks (k : Core) (l : List (Option Lock)) : Core := { k with locks := Vector.ofFn (fun i => (l[i.val]?).join) }

/-- Take the lock entries of a command. -/
def Core.addLocks (k : Core) (eng ticket : Nat) (ops : List Operand) : Core :=
  k.setLocks (ops.foldl (fun l o => takeLock l ⟨o.dest, eng, ticket, o.lo, o.hi⟩) k.locks.toList)

/-- TICKET after t, skipping every value a held command carries (R99). -/
def nextTicket (held : List Nat) (t : Nat) : Nat :=
  (((List.range 64).map (fun j => (t + 1 + j) % 65536)).find? (fun x => !held.contains x)).getD ((t + 1) % 65536)

/-- A command as accepted. -/
def newCommand (eng ticket order slot : Nat) (pc seed : Dword) (w : BitVec 256) : Command where
  engine := eng
  ticket := ticket
  word := w
  seed := seed
  slot := slot
  pc := pc
  order := order
  armed := none
  running := false
  progress := 0
  row := 0
  pos := 0
  rpos := 0
  kept := 0
  xfer := .idle
  wait := 0
  bufs := []
  reads := []
  writes := []
  todo := []
  unit := 0
  parked := none
  stopped := false
  stopping := false
  own := []
  halted := none
  refusal := none
  done := none
  eset := 0
  closed := 0

/-- Accept a command: its lock entries, its ticket and its place in the queue (R99). -/
def Core.accept (k : Core) (eng slot : Nat) (pc : Dword) (w : BitVec 256) (ops : List Operand) : Core :=
  let t := k.eng.ticket
  let k := k.addLocks eng t (lockOps w ops)
  let cmds := k.eng.cmds ++ [newCommand eng t k.eng.order slot pc k.ctl.srseed w]
  { k with eng := { k.eng with cmds := cmds, order := k.eng.order + 1, ticket := nextTicket (cmds.map Command.ticket) t } }

/-- The command that carries a ticket (R100). -/
def Core.command (k : Core) (t : Nat) : Option Command := k.eng.cmds.find? (fun m => decide (m.ticket = t))

def Core.setCommand (k : Core) (m : Command) : Core :=
  { k with eng := { k.eng with cmds := k.eng.cmds.map (fun x => if x.ticket = m.ticket then m else x) } }

def Core.dropCommand (k : Core) (t : Nat) : Core := { k with eng := { k.eng with cmds := k.eng.cmds.filter (fun x => decide (x.ticket ≠ t)) } }

/-- Free the entries of a command that a test picks (R111). -/
def Core.freeLocksOf (k : Core) (m : Command) (p : Lock → Bool) : Core :=
  k.setLocks (k.locks.toList.map (fun o => match o with
    | some l => if l.engine = m.engine ∧ l.ticket = m.ticket ∧ p l = true then none else some l
    | none => none))

/-! Starting (R102 to R104, R171, R182, R183) -/

/-- The oldest unstarted command of a queue. -/
def Core.head (k : Core) (e q : Nat) : Option Command := k.eng.cmds.find? (fun m => sameQueue e q m && !m.running)

/-- The heads of the four queues. -/
def Core.heads (k : Core) : List Command := ([(0, 0), (0, 1), (1, 0), (2, 0)].filterMap (fun p => k.head p.1 p.2))

/-- Are a command's arm levels reached (R104)? -/
def Core.armMet (k : Core) (w : BitVec 256) : Bool :=
  [cmdArm0 w, cmdArm1 w].all (fun c => k.isCount c && decide ((k.chan c).arm ≤ (k.chan c).cnt))

/-- The channels a command's arm test names. -/
def armChans (w : BitVec 256) : List Nat := if cmdArm0 w = cmdArm1 w then [cmdArm0 w] else [cmdArm0 w, cmdArm1 w]

/-- Would an arm test consume in this cycle: a head with ARM = 1, not yet armed, its levels reached, while the engines are
not stopped for a pre-emption (R104, R290)? -/
def Core.armable (k : Core) (m : Command) : Bool :=
  decide (k.ctl.pre = .none) && cmdArm m.word && m.armed.isNone && !m.running && k.armMet m.word

/-- The head whose arm test goes first: the oldest acceptance of those that would consume (R104). -/
def Core.armNext (k : Core) (m : Command) : Bool :=
  k.heads.any (fun h => decide (h.ticket = m.ticket)) && k.armable m
    && k.heads.all (fun h => !(k.armable h && decide (h.order < m.order) && (armChans h.word).any (fun c => (armChans m.word).contains c)))

/-- An earlier acceptance's lock that holds the command back (R103). -/
def Core.lockHazard (k : Core) (dev : Nat) (m : Command) : Bool :=
  (k.operands dev m.word).any (fun o => k.locks.toList.any (fun l => match l with
    | some l => k.eng.cmds.any (fun x => decide (x.ticket = l.ticket) && decide (x.engine = l.engine) && decide (x.order < m.order))
        && decide (o.lo < l.limit) && decide (l.base < o.hi) && (o.dest || l.dest)
    | none => false))

/-- The accumulator regions an MXE command reads and writes (R171). -/
def accReads (w : BitVec 256) : List AccRegion :=
  match cmdCode w with
  | 0x01 => if accZero w then [] else [accRegion w]
  | 0x02 => mmacSource w :: (if accZero w then [] else [accRegion w])
  | 0x04 => [accRegion w]
  | _ => []

def accWrites (w : BitVec 256) : List AccRegion :=
  match cmdCode w with
  | 0x01 | 0x02 | 0x03 | 0x05 => [accRegion w]
  | _ => []

def regionsMeet (a b : List AccRegion) : Bool := a.any (fun x => b.any x.meets)

/-- An earlier MXE command that overlaps in the accumulator; one that has stopped counts as completed though its message is held
(R171, R185). -/
def Core.accHazard (k : Core) (m : Command) : Bool :=
  decide (m.engine = 0) && k.eng.cmds.any (fun x => decide (x.engine = 0) && decide (x.order < m.order) && x.done.isNone
    && (regionsMeet (accWrites x.word) (accReads m.word ++ accWrites m.word) || regionsMeet (accReads x.word) (accWrites m.word)))

/-- Active places of an engine (R102). -/
def placesOf (e : Nat) : Nat := if e = 1 then 4 else 1

/-- Is the command startable, an active place apart? -/
def Core.startable (k : Core) (dev : Nat) (m : Command) : Bool :=
  decide (k.ctl.pre = .none) && !m.running && ((k.head m.engine (cmdQueue m.word)).any (fun h => decide (h.ticket = m.ticket)))
    && (!cmdArm m.word || m.armed.isSome) && !k.lockHazard dev m && !k.accHazard m

/-- Has the engine an active place free? -/
def Core.placeFree (k : Core) (e : Nat) : Bool :=
  decide ((k.eng.cmds.filter (fun m => decide (m.engine = e) && m.running)).length < placesOf e)

/-- The MXE's choice between its two heads, with C after it (R183). -/
def Core.mxeChoice (k : Core) (dev : Nat) : Option (Command × Nat) :=
  let h0 := (k.head 0 0).filter (k.startable dev)
  let h1 := (k.head 0 1).filter (k.startable dev)
  match h0, h1 with
  | some a, some b => if k.eng.mxeC = 7 then some (b, 0) else some (a, k.eng.mxeC + 1)
  | some a, none => some (a, 0)
  | none, some b => some (b, 0)
  | none, none => none

/-- Start a command where it may start. -/
def Core.start (k : Core) (dev : Nat) (m : Command) : Core :=
  if k.placeFree m.engine = false then k
  else if m.engine = 0 then
    match k.mxeChoice dev with
    | some (x, c) => if x.ticket = m.ticket then ({ k with eng := { k.eng with mxeC := c } }).setCommand { m with running := true } else k
    | none => k
  else if k.startable dev m then k.setCommand { m with running := true }
  else k

/-- The state TKST reports (R100). -/
def Core.cmdState (k : Core) (dev : Nat) (m : Command) : Nat :=
  if m.running then 3
  else if (cmdArm m.word && m.armed.isNone && !k.armMet m.word) || k.lockHazard dev m || k.accHazard m then 1
  else 2

/-- PROGRESS: up to the first write not yet acknowledged (R100, R116). -/
def Command.shown (m : Command) : Nat := (m.writes.map WriteOut.mark ++ m.own.map OwnWrite.mark).foldl min m.progress

/-- TKST's word (R100). -/
def Core.tkst (k : Core) (dev t : Nat) : Dword :=
  match k.command t with
  | none => 0
  | some m => BitVec.ofNat 64 ((if m.running then m.shown % 2 ^ 32 else 0) * 2 ^ 32 + m.engine * 2 ^ 24 + b2n m.armed.isSome * 4 + k.cmdState dev m)

/-! STG, LDSTG, ENQ, TKST, ECANCEL (R98 to R101) -/

def execStg (n : BitVec 2) (a : BitVec 5) (s : State) : Host.Outcome State Fault Refusal :=
  issue (.stg n a) s (fun s => s.modMe (fun x => { x with st := x.st.set n.toFin (s.reg a), pc := x.pc + 4 }))

/-- LDSTG (R98): 32 bytes of the local store as one read. -/
def execLdstg (a : BitVec 5) (s : State) : Host.Outcome State Fault Refusal :=
  issue (.ldstg a) s (fun s =>
    let ea := s.reg a
    if aligned ea.toNat 32 = false then trapHere s causeAlign ea
    else match s.place ea with
      | .own off =>
        if 0x60000 ≤ off then fatal s causeAddr ea
        else match s.here.firstFault s.user false off 32 with
          | some f => raise s ea f
          | none =>
            let k := s.here
            s.modMe (fun x => { x with st := Vector.ofFn (fun i => BitVec.ofNat 64 (k.ownLE (off + 8 * i.val) 8)), pc := x.pc + 4 })
      | _ => fatal s causeAddr ea)

/-- The command word in the slot's staging registers. -/
def Slot.staging (x : Slot) : BitVec 256 := x.st[3] ++ x.st[2] ++ x.st[1] ++ x.st[0]

/-- ENQ after its fence: one atomic change (R99). -/
def enqBody (s : State) (d : BitVec 5) (eng : Nat) : State :=
  let w := s.me.staging
  let k := s.here
  match k.enqCode s.fab.device eng w with
  | some n => s.retire d (negCode n)
  | none =>
    (s.modHere (fun k => k.accept eng s.issuer.2.val s.pc w (k.operands s.fab.device w))).retire d (BitVec.ofNat 64 k.eng.ticket)

/-- ENQ (R99). An engine field of 3 to 31 is ILLEGAL (R31). -/
def execEnq (d e : BitVec 5) (s : State) : Host.Outcome State Fault Refusal :=
  issue (.enq d e) s (fun s =>
    if 2 < e.toNat then fatal s causeIllegal (wordOf (.enq d e))
    else if cmdRel s.me.staging then withRelease s (fun s => enqBody s d e.toNat)
    else enqBody s d e.toNat)

/-- TKST (R100). -/
def execTkst (d a : BitVec 5) (s : State) : Host.Outcome State Fault Refusal :=
  issue (.tkst d a) s (fun s => s.retire d (s.here.tkst s.fab.device (field (s.reg a) 15 0)))

/-- The arm amounts go back to their channels (R101): those that fit, and whether one did not. -/
def Core.returnArms (k : Core) : List (Nat × Nat) → Core × Bool
  | [] => (k, false)
  | p :: l =>
    match k.credit p.1 p.2 with
    | some k => Core.returnArms k l
    | none => ((Core.returnArms k l).1, true)

/-- A DMOVE that never started, or is aborted, gives its source entry back (R248 steps 5 and 6); PEER and PENT keep the move's values, which
the spec leaves open (R233, R249; log 88). -/
def Core.restoreEntry (k : Core) (m : Command) : Core :=
  if cmdCode m.word = 0x14 then
    let i : Fin 64 := Fin.ofNat 64 (stf m.word 3 25 20)
    { k with dir := k.dir.set i { k.dir[i] with state := .active } }
  else k

/-- ECANCEL (R101). -/
def execEcancel (d a : BitVec 5) (s : State) : Host.Outcome State Fault Refusal :=
  issue (.ecancel d a) s (fun s =>
    let k := s.here
    let t := field (s.reg a) 15 0
    let res : Dword := k.tkst s.fab.device t &&& 7#64
    match k.command t with
    | some m =>
      if m.running then s.retire d res
      else
        let r := (((k.freeLocksOf m (fun _ => true)).dropCommand t).restoreEntry m).returnArms (m.armed.getD [])
        let s' := (s.setCore s.issuer.1 r.1).retire d res
        if r.2 then gangFaultAt s' s.issuer.1 s.issuer.2.val causeChovf s.pc 0 else s'
    | none => s.retire d res)

/-- An arm test consumes its channels' levels (R104). -/
def Core.arm (k : Core) (m : Command) : Core :=
  let took := (armChans m.word).map (fun c => (c, (k.chan c).arm))
  (took.foldl (fun k p => k.setChan p.1 { k.chan p.1 with cnt := (k.chan p.1).cnt - p.2 }) k).setCommand { m with armed := some took }

/-- COMMAND_ARMED. -/
def execCommandArmed (core ticket : Nat) (s : State) : Host.Outcome State Fault Refusal :=
  let k := s.core core
  .next (match k.command ticket with
    | some m => if k.armNext m then s.setCore core (k.arm m) else s
    | none => s)

/-- The oldest head that can be armed is. -/
def armOldest (x : Core × List Command) : Core × List Command :=
  match x.1.heads.find? x.1.armNext with
  | some m => (x.1.arm m, x.2 ++ [m])
  | none => x

/-- The arm tests of a cycle, the oldest acceptance first, each head but once: the core after them, and the heads armed (R104). -/
def Core.armCycle (k : Core) : Core × List Command := k.heads.foldl (fun x _ => armOldest x) (k, [])

def Core.armHeads (k : Core) : Core := k.armCycle.1

end Sys2Proof.Machine
end

