-- ==== Sys2Proof/Machine/LoadStore.lean ====
section
/-! DEFINITION. Scalar loads and stores and block headers (R135 to R139). -/

namespace Sys2Proof.Machine

/-- A loaded datum as g d receives it (R135). -/
def loadValue (width : Nat) (signed : Bool) (x : Nat) : Dword :=
  if signed then
    match width with
    | 1 => sext (BitVec.ofNat 8 x)
    | 2 => sext (BitVec.ofNat 16 x)
    | 4 => sext (BitVec.ofNat 32 x)
    | _ => BitVec.ofNat 64 x
  else BitVec.ofNat 64 x

/-- A request of the issuing slot for one destination. -/
def State.request (s : State) (kind : ReqKind) (ea : Dword) (dest : Node) (len : Nat) : Request :=
  { uid := 0, slot := s.issuer.2.val, act := s.me.act, kind := kind, parts := [⟨dest, ea, len, 0, .sent⟩], ea := ea, refused := none, discard := false }

/-- What an own-core load does at retire: the value, or the fault of its check (R135 step 3, R123, R289). -/
def ownLoad (s : State) (d : BitVec 5) (ea : Dword) (off width : Nat) (signed : Bool) : State :=
  let k := s.here
  if s.user && isWindowReg off then
    (if width = 8 then s.retire d (k.readCtlWin (off - 0xE0000)) else fatal s causeAddr ea)
  else if !s.user && privileged off then
    (if width = 8 then s.retire d (k.readPriv off) else fatal s causeAddr ea)
  else match k.firstFault s.user false off width with
    | some f => raise s ea f
    | none => s.retire d (loadValue width signed (k.ownLE off width))

/-- A load (R135, R136). -/
def load (i : Instr) (d a : BitVec 5) (im : BitVec 16) (width : Nat) (signed : Bool) (s : State) : Host.Outcome State Fault Refusal :=
  issue i s (fun s =>
    let ea := s.ea a im
    if aligned ea.toNat width = false then trapHere s causeAlign ea
    else match s.place ea with
      | .bad => fatal s causeAddr ea
      | .own off => ownLoad s d ea off width signed
      | p => match p.dest with
        | some dest =>
          (issueRequest s s.issuer.1 (s.request (.load d width signed) ea dest width) [.load ea width false]).advance
        | none => s)

def execLdb (d a : BitVec 5) (i : BitVec 16) (s : State) := load (.ldb d a i) d a i 1 true s
def execLdbu (d a : BitVec 5) (i : BitVec 16) (s : State) := load (.ldbu d a i) d a i 1 false s
def execLdh (d a : BitVec 5) (i : BitVec 16) (s : State) := load (.ldh d a i) d a i 2 true s
def execLdhu (d a : BitVec 5) (i : BitVec 16) (s : State) := load (.ldhu d a i) d a i 2 false s
def execLdw (d a : BitVec 5) (i : BitVec 16) (s : State) := load (.ldw d a i) d a i 4 true s
def execLdwu (d a : BitVec 5) (i : BitVec 16) (s : State) := load (.ldwu d a i) d a i 4 false s
def execLdd (d a : BitVec 5) (i : BitVec 16) (s : State) := load (.ldd d a i) d a i 8 true s

/-- What an own-core store does at retire (R135 step 3, R123, R289). -/
def ownStore (s : State) (ea : Dword) (off width : Nat) (v : Dword) : State :=
  let k := s.here
  if s.user && isWindowReg off then
    (if width ≠ 8 then fatal s causeAddr ea
     else if off < 0xE0010 then fatal s causePriv ea
     else (s.modHere (fun k => k.writeCtlWin (off - 0xE0000) (userWindow v))).advance)
  else if !s.user && privileged off then
    (if width ≠ 8 then fatal s causeAddr ea else (s.modHere (fun k => k.writePriv off v)).advance)
  else match k.firstFault s.user true off width with
    | some f => raise s ea f
    | none => (s.modHere (fun k => k.writeLs off (leBytes width v.toNat))).advance

/-- A store (R135): an own-core one at retire, any other into the buffer of its destination (R187). -/
def store (i : Instr) (d a : BitVec 5) (im : BitVec 16) (width : Nat) (s : State) : Host.Outcome State Fault Refusal :=
  issue i s (fun s =>
    let ea := s.ea a im
    if aligned ea.toNat width = false then trapHere s causeAlign ea
    else match s.place ea with
      | .bad => fatal s causeAddr ea
      | .own off => ownStore s ea off width (s.reg d)
      | _ => (enterElement s s.issuer.1 (s.here.element s.issuer.2 ea .store width (s.reg d))).advance)

def execStb (d a : BitVec 5) (i : BitVec 16) (s : State) := store (.stb d a i) d a i 1 s
def execSth (d a : BitVec 5) (i : BitVec 16) (s : State) := store (.sth d a i) d a i 2 s
def execStw (d a : BitVec 5) (i : BitVec 16) (s : State) := store (.stw d a i) d a i 4 s
def execStd (d a : BitVec 5) (i : BitVec 16) (s : State) := store (.std d a i) d a i 8 s

/-- LDHDR (R139): the header of a 64-aligned block. -/
def execLdhdr (d a : BitVec 5) (o : BitVec 15) (s : State) : Host.Outcome State Fault Refusal :=
  issue (.ldhdr d a o) s (fun s =>
    let ea := s.reg a + zext o
    if aligned ea.toNat 64 = false then trapHere s causeAlign ea
    else match s.place ea with
      | .bad => fatal s causeAddr ea
      | .own off => match s.here.hdrFault s.user false off with
        | some f => raise s ea f
        | none => s.retire d (zext (s.here.header off))
      | p => match p.dest with
        | some dest => (issueRequest s s.issuer.1 (s.request (.ldhdr d) ea dest 64) [.hdrRead ea]).advance
        | none => s)

/-- STHDR (R139): the low word of g d becomes the header, verbatim. -/
def execSthdr (d a : BitVec 5) (o : BitVec 15) (s : State) : Host.Outcome State Fault Refusal :=
  issue (.sthdr d a o) s (fun s =>
    let ea := s.reg a + zext o
    let h : Header := (s.reg d).extractLsb' 0 32
    if aligned ea.toNat 64 = false then trapHere s causeAlign ea
    else match s.place ea with
      | .bad => fatal s causeAddr ea
      | .own off => match s.here.hdrFault s.user true off with
        | some f => raise s ea f
        | none => (s.modHere (fun k => k.setLsHdr off h)).advance
      | p => match p.dest with
        | some dest =>
          let e := { s.here.element s.issuer.2 ea .store 4 (zext h) with cdc := 0 }
          (sendItem s s.issuer.1 dest [(⟨.sthdr h, e, .sent⟩, .hdrWrite ea h)]).advance
        | none => s)

end Sys2Proof.Machine
end

