-- ==== Sys2Proof/Machine/Transcend.lean ====
section
/-! DEFINITION. VRCP, VRSQ, VEXP2 and VLOG2 of one lane (R146): the exact value enclosed in integers and rounded once; for
2^A and log2 A, whose values are irrational where they are no dyadic number, to 192 bits (log 13). -/

namespace Sys2Proof.Machine

/-- The canonical NaN, the infinities and zeros of FP32. -/
def nanWord : Word := 0x7FC00000#32
def infWord (neg : Bool) : Word := if neg then 0xFF800000#32 else 0x7F800000#32
def zeroWord (neg : Bool) : Word := if neg then 0x80000000#32 else 0#32
def oneWord : Word := 0x3F800000#32

/-- ⌊√n⌋ for n below 2^400, bit by bit from the top. -/
def isqrt (n : Nat) : Nat := (List.range 200).reverse.foldl (fun r i => if (r + 2 ^ i) * (r + 2 ^ i) ≤ n then r + 2 ^ i else r) 0

/-- 1/A (R146). -/
def rcpWord (a : Word) : Word :=
  match ofFp32 a with
  | .nan => nanWord
  | .inf s => zeroWord s
  | .fin s m e => if m = 0 then infWord s else BitVec.ofNat 32 (fp32.roundRat .nearestEven s 1 m (-e))

/-- 1/√A (R146): the square root is taken to 50 bits and more, what is left over counted as half a unit. -/
def rsqWord (a : Word) : Word :=
  match ofFp32 a with
  | .nan => nanWord
  | .inf s => if s then nanWord else zeroWord false
  | .fin s m e =>
    if m = 0 then infWord s
    else if s then nanWord
    else
      let m := if e % 2 = 0 then m else 2 * m
      let e := if e % 2 = 0 then e else e - 1
      let q := isqrt (2 ^ 128 / m)
      let num := 2 * q + b2n (decide (q * q * m ≠ 2 ^ 128))
      BitVec.ofNat 32 (fp32.roundRat .nearestEven false num 1 (-65 - e / 2))

/-- The working precision of the two series. -/
def fixBits : Nat := 192

/-- ln 2 × 2^192, by the series Σ 1 / (k 2^k). -/
def ln2Fix : Nat := (List.range 200).foldl (fun a k => a + 2 ^ fixBits / ((k + 1) * 2 ^ (k + 1))) 0

/-- e^x × 2^192 for x = f / 2^192 below 1, by its Taylor series. -/
def expFix (f : Nat) : Nat :=
  ((List.range 60).foldl (fun (st : Nat × Nat) k => (st.1 + st.2, st.2 * f / 2 ^ fixBits / (k + 1))) (0, 2 ^ fixBits)).1

/-- ln (1 + n/d) / 2 × 2^192 as the series of atanh at t = t / 2^192. -/
def atanhFix (t : Nat) : Nat :=
  let t2 := t * t / 2 ^ fixBits
  ((List.range 70).foldl (fun (st : Nat × Nat) k => (st.1 + st.2 / (2 * k + 1), st.2 * t2 / 2 ^ fixBits)) (0, t)).1

/-- 2^A (R146). -/
def exp2Word (a : Word) : Word :=
  match ofFp32 a with
  | .nan => nanWord
  | .inf s => if s then zeroWord false else infWord false
  | .fin s m e =>
    if m = 0 then oneWord
    else
      let x := Fp.fin s m e
      if !x.lt (.fin false 128 0) then infWord false
      else if x.lt (.fin true 150 0) then zeroWord false
      else
        -- A × 2^192, an integer of at most 200 bits: below 2^-149 nothing is lost
        let v : Int := fixMant s m e (-fixBits)
        let i := v / 2 ^ fixBits
        let f := (v % 2 ^ fixBits).toNat
        if f = 0 then BitVec.ofNat 32 (fp32.roundRat .nearestEven false 1 1 i)
        else BitVec.ofNat 32 (fp32.roundRat .nearestEven false (2 * expFix (f * ln2Fix / 2 ^ fixBits) + 1) 1 (i - fixBits - 1))

/-- log2 A (R146). -/
def log2Word (a : Word) : Word :=
  match ofFp32 a with
  | .nan => nanWord
  | .inf s => if s then nanWord else infWord false
  | .fin s m e =>
    if m = 0 then infWord true
    else if s then nanWord
    else
      let k := m.log2
      let n : Int := e + k
      let r := m - 2 ^ k
      if r = 0 then rneFp32 (Fp.ofInt n)
      else
        let l := 2 * atanhFix (r * 2 ^ fixBits / (m + 2 ^ k)) * 2 ^ fixBits / ln2Fix
        let v : Int := n * 2 ^ fixBits + l
        BitVec.ofNat 32 (fp32.roundRat .nearestEven (decide (v < 0)) (2 * v.natAbs + 1) 1 (-fixBits - 1))

end Sys2Proof.Machine
end

