-- ==== Sys2Proof/Machine/Vector.lean ====
section
/-! DEFINITION. Vector arithmetic, compares, selection and mask instructions (R143 to R152). -/

namespace Sys2Proof.Machine

/-- The 32-bit lanes of a result: the active ones from `f`, the others as they were (R143). -/
def masked (m : Dword) (old : VReg) (f : Nat → Word) : VReg := buildLanes (fun i => if m.getLsbD i then f i else lane old i)

/-- The same for the 64-bit lanes of the .D forms, under mask bits 0 to 31 (R143). -/
def maskedD (m : Dword) (old : VReg) (f : Nat → Dword) : VReg := buildLanesD (fun i => if m.getLsbD i then f i else laneD old i)

/-- The rounding a mode number selects for vector arithmetic: a stochastic mode rounds RNE (R88, R144). -/
def arithRnd (mode : Nat) : Rnd :=
  match mode with
  | 1 => .towardZero
  | 2 => .towardPos
  | 3 => .towardNeg
  | _ => .nearestEven

/-- The rounding of the slot's vector arithmetic. -/
def Slot.rnd (x : Slot) : Rnd := arithRnd x.rmode.toNat

/-- An exact zero sum is −0 only under rounding toward −∞ (R145). -/
def Rnd.down : Rnd → Bool
  | .towardNeg => true
  | _ => false

/-- Round an exact value to an FP32 lane. -/
def roundW (r : Rnd) (x : Fp) : Word := BitVec.ofNat 32 (fp32.round r x)
/-- Round an exact value to an FP64 lane. -/
def roundD (r : Rnd) (x : Fp) : Dword := BitVec.ofNat 64 (fp64.round r x)

/-! One vector instruction: a result register computed lane by lane from the slot at issue. -/

def vop (i : Instr) (d : BitVec 5) (m : BitVec 3) (f : State → Nat → Word) (s : State) : Host.Outcome State Fault Refusal :=
  issue i s (fun s => s.retireV d (masked (s.mask m) (s.vreg d) (f s)))

def vopD (i : Instr) (d : BitVec 5) (m : BitVec 3) (f : State → Nat → Dword) (s : State) : Host.Outcome State Fault Refusal :=
  issue i s (fun s => s.retireV d (maskedD (s.mask m) (s.vreg d) (f s)))

/-- A two-operand lane operation. -/
def vop2 (i : Instr) (d a b : BitVec 5) (m : BitVec 3) (f : Word → Word → Word) (s : State) : Host.Outcome State Fault Refusal :=
  vop i d m (fun s k => f (lane (s.vreg a) k) (lane (s.vreg b) k)) s

/-- A one-operand lane operation. -/
def vop1 (i : Instr) (d a : BitVec 5) (m : BitVec 3) (f : Word → Word) (s : State) : Host.Outcome State Fault Refusal :=
  vop i d m (fun s k => f (lane (s.vreg a) k)) s

/-! FP32 (R145) -/

def fadd (r : Rnd) (x y : Word) : Word := roundW r (Fp.addMode r.down (ofFp32 x) (ofFp32 y))
def fsub (r : Rnd) (x y : Word) : Word := roundW r (Fp.addMode r.down (ofFp32 x) (ofFp32 y).negate)
def fmul (r : Rnd) (x y : Word) : Word := roundW r ((ofFp32 x).mul (ofFp32 y))
def ffma (r : Rnd) (x y z : Word) : Word := roundW r (Fp.addMode r.down ((ofFp32 x).mul (ofFp32 y)) (ofFp32 z))

/-- The smaller of two FP32 values, −0 below +0 (R145). -/
def fmin (x y : Word) : Word :=
  let a := ofFp32 x
  let b := ofFp32 y
  if a.isNan || b.isNan then nanWord
  else if a.lt b then x
  else if b.lt a then y
  else if a.sign then x else y

/-- The larger (R145). -/
def fmax (x y : Word) : Word :=
  let a := ofFp32 x
  let b := ofFp32 y
  if a.isNan || b.isNan then nanWord
  else if a.lt b then y
  else if b.lt a then x
  else if a.sign then y else x

def fabs (x : Word) : Word := if (ofFp32 x).isNan then nanWord else x &&& 0x7FFFFFFF#32
def fneg (x : Word) : Word := if (ofFp32 x).isNan then nanWord else x ^^^ 0x80000000#32

def execVaddF (d a b : BitVec 5) (m : BitVec 3) (s : State) := vop2 (.vaddF d a b m) d a b m (fadd s.me.rnd) s
def execVsubF (d a b : BitVec 5) (m : BitVec 3) (s : State) := vop2 (.vsubF d a b m) d a b m (fsub s.me.rnd) s
def execVmulF (d a b : BitVec 5) (m : BitVec 3) (s : State) := vop2 (.vmulF d a b m) d a b m (fmul s.me.rnd) s
def execVfmaF (d a b : BitVec 5) (m : BitVec 3) (s : State) :=
  vop (.vfmaF d a b m) d m (fun s k => ffma s.me.rnd (lane (s.vreg a) k) (lane (s.vreg b) k) (lane (s.vreg d) k)) s
def execVminF (d a b : BitVec 5) (m : BitVec 3) (s : State) := vop2 (.vminF d a b m) d a b m fmin s
def execVmaxF (d a b : BitVec 5) (m : BitVec 3) (s : State) := vop2 (.vmaxF d a b m) d a b m fmax s
def execVabsF (d a : BitVec 5) (m : BitVec 3) (s : State) := vop1 (.vabsF d a m) d a m fabs s
def execVnegF (d a : BitVec 5) (m : BitVec 3) (s : State) := vop1 (.vnegF d a m) d a m fneg s
def execVrcp (d a : BitVec 5) (m : BitVec 3) (s : State) := vop1 (.vrcp d a m) d a m rcpWord s
def execVrsq (d a : BitVec 5) (m : BitVec 3) (s : State) := vop1 (.vrsq d a m) d a m rsqWord s
def execVexp2 (d a : BitVec 5) (m : BitVec 3) (s : State) := vop1 (.vexp2 d a m) d a m exp2Word s
def execVlog2 (d a : BitVec 5) (m : BitVec 3) (s : State) := vop1 (.vlog2 d a m) d a m log2Word s

/-! Integers (R147) -/

/-- A lane shift amount: bits [4:0]. -/
def shamtW (b : Word) : Nat := field b 4 0

def execVaddI (d a b : BitVec 5) (m : BitVec 3) (s : State) := vop2 (.vaddI d a b m) d a b m (fun x y => x + y) s
def execVsubI (d a b : BitVec 5) (m : BitVec 3) (s : State) := vop2 (.vsubI d a b m) d a b m (fun x y => x - y) s
def execVmulI (d a b : BitVec 5) (m : BitVec 3) (s : State) := vop2 (.vmulI d a b m) d a b m (fun x y => x * y) s
def execVand (d a b : BitVec 5) (m : BitVec 3) (s : State) := vop2 (.vand d a b m) d a b m (fun x y => x &&& y) s
def execVor (d a b : BitVec 5) (m : BitVec 3) (s : State) := vop2 (.vor d a b m) d a b m (fun x y => x ||| y) s
def execVxor (d a b : BitVec 5) (m : BitVec 3) (s : State) := vop2 (.vxor d a b m) d a b m (fun x y => x ^^^ y) s
def execVsll (d a b : BitVec 5) (m : BitVec 3) (s : State) := vop2 (.vsll d a b m) d a b m (fun x y => x <<< shamtW y) s
def execVsrl (d a b : BitVec 5) (m : BitVec 3) (s : State) := vop2 (.vsrl d a b m) d a b m (fun x y => x >>> shamtW y) s
def execVsra (d a b : BitVec 5) (m : BitVec 3) (s : State) := vop2 (.vsra d a b m) d a b m (fun x y => x.sshiftRight (shamtW y)) s
def execVminI (d a b : BitVec 5) (m : BitVec 3) (s : State) := vop2 (.vminI d a b m) d a b m (fun x y => if x.slt y then x else y) s
def execVmaxI (d a b : BitVec 5) (m : BitVec 3) (s : State) := vop2 (.vmaxI d a b m) d a b m (fun x y => if y.slt x then x else y) s

/-! Moves (R148) -/

def execVbcast (d a : BitVec 5) (m : BitVec 3) (s : State) := vop (.vbcast d a m) d m (fun s _ => (s.reg a).extractLsb' 0 32) s
def execVext (d a b : BitVec 5) (s : State) := issue (.vext d a b) s (fun s => s.retire d (zext (lane (s.vreg a) (field (s.reg b) 5 0)))) 
def execVperm (d a b : BitVec 5) (m : BitVec 3) (s : State) :=
  vop (.vperm d a b m) d m (fun s k => lane (s.vreg a) (field (lane (s.vreg b) k) 5 0)) s
/-- Set bits of a mask below lane i. -/
def below (m : Dword) (i : Nat) : Nat := ((List.range i).filter (fun j => m.getLsbD j)).length
/-- VIOTA writes every lane (R148). -/
def execViota (d : BitVec 5) (m : BitVec 3) (s : State) :=
  issue (.viota d m) s (fun s => s.retireV d (buildLanes (fun i => BitVec.ofNat 32 (below (s.mask m) i))))
def execVscal (d a b : BitVec 5) (m : BitVec 3) (s : State) :=
  vop (.vscal d a b m) d m (fun s k => fmul s.me.rnd (lane (s.vreg a) k) ((s.reg b).extractLsb' 0 32)) s

/-! Reductions (R95, R149) -/

/-- One level of the pairwise tree. -/
def pairSum : List Word → List Word
  | x :: y :: l => fadd .nearestEven x y :: pairSum l
  | l => l

/-- The pairwise sum of 64 lanes, inactive ones entering as +0 (R95). -/
def sumTree (m : Dword) (v : VReg) : Word :=
  let t0 := (List.range 64).map (fun i => if m.getLsbD i then lane v i else 0)
  (pairSum (pairSum (pairSum (pairSum (pairSum (pairSum t0)))))).headD 0

/-- The largest active lane; −∞ where none is active (R149). -/
def maxLanes (m : Dword) (v : VReg) : Word :=
  ((List.range 64).filter (fun i => m.getLsbD i)).foldl (fun acc i => fmax acc (lane v i)) (infWord true)

def execVredsumF (d a : BitVec 5) (m : BitVec 3) (s : State) := issue (.vredsumF d a m) s (fun s => s.retire d (zext (sumTree (s.mask m) (s.vreg a))))
def execVredmaxF (d a : BitVec 5) (m : BitVec 3) (s : State) := issue (.vredmaxF d a m) s (fun s => s.retire d (zext (maxLanes (s.mask m) (s.vreg a))))

/-! FP64 (R150) -/

def daddW (r : Rnd) (x y : Dword) : Dword := roundD r (Fp.addMode r.down (ofFp64 x) (ofFp64 y))
def dsubW (r : Rnd) (x y : Dword) : Dword := roundD r (Fp.addMode r.down (ofFp64 x) (ofFp64 y).negate)
def dmulW (r : Rnd) (x y : Dword) : Dword := roundD r ((ofFp64 x).mul (ofFp64 y))
def dfmaW (r : Rnd) (x y z : Dword) : Dword := roundD r (Fp.addMode r.down ((ofFp64 x).mul (ofFp64 y)) (ofFp64 z))

def execVaddD (d a b : BitVec 5) (m : BitVec 3) (s : State) :=
  vopD (.vaddD d a b m) d m (fun s k => daddW s.me.rnd (laneD (s.vreg a) k) (laneD (s.vreg b) k)) s
def execVsubD (d a b : BitVec 5) (m : BitVec 3) (s : State) :=
  vopD (.vsubD d a b m) d m (fun s k => dsubW s.me.rnd (laneD (s.vreg a) k) (laneD (s.vreg b) k)) s
def execVmulD (d a b : BitVec 5) (m : BitVec 3) (s : State) :=
  vopD (.vmulD d a b m) d m (fun s k => dmulW s.me.rnd (laneD (s.vreg a) k) (laneD (s.vreg b) k)) s
def execVfmaD (d a b : BitVec 5) (m : BitVec 3) (s : State) :=
  vopD (.vfmaD d a b m) d m (fun s k => dfmaW s.me.rnd (laneD (s.vreg a) k) (laneD (s.vreg b) k) (laneD (s.vreg d) k)) s

/-! Compares and masks (R152) -/

/-- A compare writes every bit of its mask register: 0 for an inactive lane. -/
def vcmp (i : Instr) (d : BitVec 3) (a b : BitVec 5) (m : BitVec 3) (f : Word → Word → Bool) (s : State) : Host.Outcome State Fault Refusal :=
  issue i s (fun s => s.retireM d (buildMask (fun k => (s.mask m).getLsbD k && f (lane (s.vreg a) k) (lane (s.vreg b) k))))

def feq (x y : Word) : Bool := (ofFp32 x).eq (ofFp32 y)
def flt (x y : Word) : Bool := (ofFp32 x).lt (ofFp32 y)
def fun_ (x y : Word) : Bool := (ofFp32 x).isNan || (ofFp32 y).isNan

def execVcmpeqF (d : BitVec 3) (a b : BitVec 5) (m : BitVec 3) (s : State) := vcmp (.vcmpeqF d a b m) d a b m feq s
def execVcmpltF (d : BitVec 3) (a b : BitVec 5) (m : BitVec 3) (s : State) := vcmp (.vcmpltF d a b m) d a b m flt s
def execVcmpleF (d : BitVec 3) (a b : BitVec 5) (m : BitVec 3) (s : State) := vcmp (.vcmpleF d a b m) d a b m (fun x y => flt x y || feq x y) s
def execVcmpunF (d : BitVec 3) (a b : BitVec 5) (m : BitVec 3) (s : State) := vcmp (.vcmpunF d a b m) d a b m fun_ s
def execVcmpeqI (d : BitVec 3) (a b : BitVec 5) (m : BitVec 3) (s : State) := vcmp (.vcmpeqI d a b m) d a b m (fun x y => x == y) s
def execVcmpltI (d : BitVec 3) (a b : BitVec 5) (m : BitVec 3) (s : State) := vcmp (.vcmpltI d a b m) d a b m (fun x y => x.slt y) s
def execVcmpltuI (d : BitVec 3) (a b : BitVec 5) (m : BitVec 3) (s : State) := vcmp (.vcmpltuI d a b m) d a b m (fun x y => x.ult y) s

/-- VSEL writes every lane: va under a set bit, vb under a clear one. -/
def execVsel (d a b : BitVec 5) (m : BitVec 3) (s : State) :=
  issue (.vsel d a b m) s (fun s => s.retireV d (masked (s.mask m) (s.vreg b) (lane (s.vreg a))))

def execMand (d a b : BitVec 3) (s : State) := issue (.mand d a b) s (fun s => s.retireM d (s.mask a &&& s.mask b))
def execMor (d a b : BitVec 3) (s : State) := issue (.mor d a b) s (fun s => s.retireM d (s.mask a ||| s.mask b))
def execMxor (d a b : BitVec 3) (s : State) := issue (.mxor d a b) s (fun s => s.retireM d (s.mask a ^^^ s.mask b))
def execMnot (d a : BitVec 3) (s : State) := issue (.mnot d a) s (fun s => s.retireM d (~~~ s.mask a))
def execMpop (d : BitVec 5) (a : BitVec 3) (s : State) := issue (.mpop d a) s (fun s => s.retire d (BitVec.ofNat 64 (popcount (s.mask a))))
def execMset (d : BitVec 3) (a : BitVec 5) (s : State) := issue (.mset d a) s (fun s => s.retireM d (s.reg a))

/-! Lane moves (R155) -/

def execVcompress (d a : BitVec 5) (m : BitVec 3) (s : State) :=
  issue (.vcompress d a m) s (fun s => s.retireV d (vregOfLanes ((activeLanes (s.mask m)).map (lane (s.vreg a)))))
def execVexpand (d a : BitVec 5) (m : BitVec 3) (s : State) :=
  vop (.vexpand d a m) d m (fun s i => lane (s.vreg a) (below (s.mask m) i)) s

end Sys2Proof.Machine
end

