-- ==== Sys2Proof/Machine/VectorMem.lean ====
section
/-! DEFINITION. Vector loads and stores (R153 to R157), blocks in vector registers (R158, R159) and lane conversions (R160,
R161). -/

namespace Sys2Proof.Machine

/-- Do n bytes from a place lie in one address form and one core (R153)? -/
def Place.holds (p : Place) (n : Nat) : Bool :=
  match p with
  | .own o | .peer _ o | .foreign _ _ o => decide (o + n ≤ 2 ^ 20)
  | .va a => decide (a + n ≤ 2 ^ 56)
  | .bad => false

/-- The 64 lanes of 256 bytes (R22). -/
def vregOfBytes (bs : List Byte) : VReg := BitVec.ofNat 2048 (leNat bs)

/-- The 256 bytes of a vector register. -/
def bytesOfVreg (v : VReg) : List Byte := leBytes 256 v.toNat

/-- The parts of a remote VLD: the blocks at one destination; one access for two pages at one station, or the two parts of
R63. -/
def vldParts (dest : Node) (ea : Dword) : List ReqPart :=
  if crosses ea 256 then (splitParts ea 256).map (fun p => ⟨p.1, p.2.1, p.2.2, (p.2.1 - ea).toNat, .sent⟩)
  else if spans ea 256 then [⟨dest, ea, 256, 0, .sent⟩]
  else (blockParts ea 256).map (fun p => ⟨dest, p.1, p.2, (p.1 - ea).toNat, .sent⟩)

/-- Issue a request with several parts. -/
def State.vrequest (s : State) (kind : ReqKind) (ea : Dword) (parts : List ReqPart) : State :=
  let q : Request := { uid := 0, slot := s.issuer.2.val, act := s.me.act, kind := kind, parts := parts, ea := ea, refused := none, discard := false }
  issueRequest s s.issuer.1 q (parts.map q.body)

/-- VLD (R153, R156). -/
def execVld (d a : BitVec 5) (i : BitVec 16) (s : State) : Host.Outcome State Fault Refusal :=
  issue (.vld d a i) s (fun s =>
    let ea := s.ea a i
    let p := s.place ea
    if aligned ea.toNat 4 = false then trapHere s causeAlign ea
    else if p.holds 256 = false then fatal s causeAddr ea
    else match p, p.dest with
      | .own off, _ => match s.here.firstFault s.user false off 256 with
        | some f => raise s ea f
        | none => s.retireV d (vregOfBytes (s.here.ownBytes off 256))
      | _, some dest => (s.vrequest (.vload d) ea (vldParts dest ea)).advance
      | _, none => s)

/-- The channel a CDC value credits at a core; device memory carries none (R195). -/
def cdcChannel (dest : Node) (cdc : Nat) : Option Nat :=
  if isStationNode dest ∨ cdc < 64 then none else some (cdc % 64)

/-- The items of a remote VST, one per block part (R156). -/
def vstItem (s : State) (part : Dword × List Byte) : Item :=
  ⟨.vst part.2, s.here.element s.issuer.2 part.1 .store 8 0, .sent⟩

/-- The bytes of each part of a register stored at `ea`. -/
def partBytes (ea : Dword) (bs : List Byte) (p : Dword × Nat) : Dword × List Byte := (p.1, (bs.drop (p.1 - ea).toNat).take p.2)

/-- Send the blocks of a VST, or its two parts where it spans two pages (R63, R156). -/
def sendVst (s : State) (dest : Node) (ea : Dword) (bs : List Byte) : State :=
  if crosses ea 256 then
    match splitParts ea 256 with
    | [p, q] => sendPair s s.issuer.1 (p.1, vstItem s (partBytes ea bs p.2)) (q.1, vstItem s (partBytes ea bs q.2))
    | _ => s
  else
    sendItem s s.issuer.1 dest ((if spans ea 256 then [(ea, 256)] else blockParts ea 256).map (fun p =>
      let x := partBytes ea bs p
      (vstItem s x, .block x.1 x.2 .keep .vst (cdcChannel dest s.me.cdc.toNat))))

/-- VST (R153, R156); it never writes a header. -/
def execVst (d a : BitVec 5) (i : BitVec 16) (s : State) : Host.Outcome State Fault Refusal :=
  issue (.vst d a i) s (fun s =>
    let ea := s.ea a i
    let p := s.place ea
    if aligned ea.toNat 4 = false then trapHere s causeAlign ea
    else if p.holds 256 = false then fatal s causeAddr ea
    else match p, p.dest with
      | .own off, _ => match s.here.firstFault s.user true off 256 with
        | some f => raise s ea f
        | none => (s.modHere (fun k => k.writeLs off (bytesOfVreg (s.vreg d)))).advance
      | _, some dest => (sendVst s dest ea (bytesOfVreg (s.vreg d))).advance
      | _, none => s)

/-! Strided and indexed forms (R154, R156) -/

/-- What the check of one lane finds: alignment, decode, and the own-core checks; TVAL is the lane's address, as R154 has it where R112 and
R276 name the first byte that fails (log 97). -/
def State.laneFault (s : State) (write : Bool) (a : Dword) : Option (Nat × Dword) :=
  if aligned a.toNat 4 = false then some (causeAlign, a)
  else match s.place a with
    | .bad => some (causeAddr, a)
    | .own off => (s.here.firstFault s.user write off 4).map (fun f => (f.1, a))
    | _ => none

/-- The first lane that fails, with its cause and TVAL (R154). -/
def State.lanesFault (s : State) (write : Bool) (ls : List (Nat × Dword)) : Option (Nat × Dword) :=
  ls.findSome? (fun p => s.laneFault write p.2)

/-- Raise a lane's fault (R154). -/
def raiseLane (s : State) (f : Nat × Dword) : State :=
  if f.1 = causeAlign ∨ f.1 = causeRange then trapHere s f.1 f.2 else fatal s f.1 f.2

/-- The own-core lanes of an access: lane and offset. -/
def State.ownLanes (s : State) (ls : List (Nat × Dword)) : List (Nat × Nat) :=
  ls.filterMap (fun p => match s.place p.2 with
    | .own off => some (p.1, off)
    | _ => none)

/-- A vector register with some lanes replaced. -/
def setLanes (v : VReg) (l : List (Nat × Word)) : VReg :=
  buildLanes (fun i => match l.find? (fun p => decide (p.1 = i)) with
    | some p => p.2
    | none => lane v i)

/-- A lane as a part of a request: an own-core lane is read at issue and answered already (R156). -/
def State.lanePart (s : State) (p : Nat × Dword) : Option ReqPart :=
  match s.place p.2 with
  | .own off => some ⟨.core s.issuer.1, p.2, 4, 4 * p.1, .got (s.here.ownBytes off 4) 0⟩
  | pl => pl.dest.map (fun dst => ⟨dst, p.2, 4, 4 * p.1, .sent⟩)

/-- VLDS and VGATHER once issued. With a lane that leaves the core all of them enter the register with the last reply (R71, R156). -/
def loadLanes (s : State) (d : BitVec 5) (ls : List (Nat × Dword)) : State :=
  match s.lanesFault false ls with
  | some f => raiseLane s f
  | none =>
    let parts := ls.filterMap s.lanePart
    match parts.find? (fun p => decide (p.st = .sent)) with
    | none => s.retireV d (setLanes (s.vreg d) ((s.ownLanes ls).map (fun p => (p.1, BitVec.ofNat 32 (s.here.ownLE p.2 4)))))
    | some p => (s.vrequest (.vlanes d) p.addr parts).advance

def execVlds (d a b : BitVec 5) (m : BitVec 3) (s : State) : Host.Outcome State Fault Refusal :=
  issue (.vlds d a b m) s (fun s => loadLanes s d (lanesAt (s.mask m) (s.stridedAddr a b)))

def execVgather (d a b : BitVec 5) (m : BitVec 3) (s : State) : Host.Outcome State Fault Refusal :=
  issue (.vgather d a b m) s (fun s => loadLanes s d (lanesAt (s.mask m) (s.indexedAddr a b)))

/-- Enter remote lanes in ascending order until one has to wait; the count of lanes entered is kept (R156). -/
def enterLanes (v : VReg) : List (Nat × Dword) → State → State
  | [], s => s
  | p :: l, s =>
    let e := s.here.element s.issuer.2 p.2 .store 4 (zext (lane v p.1))
    if s.here.elementWaits s.fab.device e then s
    else enterLanes v l ((enterElement s s.issuer.1 e).modMe (fun x => { x with lanes := x.lanes + 1 }))

/-- VSTS and VSCATTER once issued: the checks before the first lane enters, then the remote lanes, and the own-core lanes at
retire (R154, R156). -/
def storeLanes (s : State) (d : BitVec 5) (ls : List (Nat × Dword)) : State :=
  match if s.me.lanes = 0 then s.lanesFault true ls else none with
  | some f => raiseLane s f
  | none =>
    let v := s.vreg d
    let s := enterLanes v (s.lanesLeft ls) s
    if (s.lanesLeft ls).isEmpty = false then s
    else
      let s := s.modHere (fun k => (s.ownLanes ls).foldl (fun k p => k.writeLs p.2 (leBytes 4 (lane v p.1).toNat)) k)
      s.modMe (fun x => { x with lanes := 0, pc := x.pc + 4 })

def execVsts (d a b : BitVec 5) (m : BitVec 3) (s : State) : Host.Outcome State Fault Refusal :=
  issue (.vsts d a b m) s (fun s => storeLanes s d (lanesAt (s.mask m) (s.stridedAddr a b)))

def execVscatter (d a b : BitVec 5) (m : BitVec 3) (s : State) : Host.Outcome State Fault Refusal :=
  issue (.vscatter d a b m) s (fun s => storeLanes s d (lanesAt (s.mask m) (s.indexedAddr a b)))

/-! Blocks (R158, R159) -/

/-- Codebook entry k of table t of a core (R85, R86). -/
def Core.cbEntry (k : Core) (t i : Nat) : Nat :=
  if k.ctl.cbtab = 0 then defaultEntry i else readLE k.ls (k.ctl.cbtab.toNat + 1024 * t + 4 * i) 4

/-- The first offset of a CB2 block's table that lies at or past LSBYTES (R85). -/
def Core.cbFault (k : Core) (v : BlockView) : Option Nat :=
  match v with
  | .typed .cb2 h =>
    let base := k.ctl.cbtab.toNat + 1024 * hdrAux h
    if k.ctl.cbtab = 0 ∨ base + 1024 ≤ k.page.lsbytes then none else some (max base k.page.lsbytes)
  | _ => none

/-- The 64 lanes that VDEC writes (R158). -/
def Core.decodeLanes (k : Core) (v : BlockView) (blk : Block) (part : Nat) : VReg :=
  buildLanes (fun i =>
    let e := 64 * part + i
    if e < v.fmt.perBlock then rneFp32 (decodeElement v k.cbEntry blk e) else 0)

/-- VDEC (R158). -/
def execVdec (d a : BitVec 5) (p : BitVec 2) (s : State) : Host.Outcome State Fault Refusal :=
  issue (.vdec d a p) s (fun s =>
    let ea := s.reg a
    if aligned ea.toNat 64 = false then trapHere s causeAlign ea
    else match s.place ea with
      | .bad => fatal s causeAddr ea
      | .own off => match s.here.hdrFault s.user false off with
        | some f => raise s ea f
        | none =>
          let k := s.here
          let v := viewBlock .fp32 (k.header off)
          match k.cbFault v with
          | some o => fatal s causeLsbound (BitVec.ofNat 64 o)
          | none => s.retireV d (k.decodeLanes v (k.block off) p.toNat)
      | pl => match pl.dest with
        | some dest => (s.vrequest (.vdec d p.toNat) ea [⟨dest, ea, 64, 0, .sent⟩]).advance
        | none => s)

/-- A rounding of R88 for the element at `addr`: mode 4 draws its bits (R89). -/
def elementRnd (mode : Nat) (seed addr : Dword) (tag : Nat) (high : Bool) : Rnd :=
  if mode = 4 then .stochastic (draw24 seed addr tag high) else arithRnd mode

/-- Encode a block's elements at `addr` under a header; places past the list take the +0 code (R90, R167). -/
def encodeBlock (f : Fmt) (h : Header) (mode : Nat) (seed addr : Dword) (tag : Nat) (xs : List Fp) : Block :=
  packCodes f ((List.range f.perBlock).map (fun j => match xs[j]? with
    | some x =>
      let bit0 := f.width * j
      encodeElement f h (elementRnd mode seed (addr + BitVec.ofNat 64 (bit0 / 8)) tag (decide (bit0 % 8 = 4))) x
    | none => 0))

/-- The bytes of a block. -/
def bytesOfBlock (b : Block) : List Byte := leBytes 64 b.toNat

/-- Bits of an element below 8 come in pairs of registers (R159). -/
def Fmt.narrow (f : Fmt) : Bool := decide (f.width < 8)

/-- The FP32 elements VENC encodes, from v a and, for a 4-bit target, v (a + 1). -/
def vencElements (f : Fmt) (va vb : VReg) : List Fp :=
  (List.range f.perBlock).map (fun i => ofFp32 (if i < 64 then lane va i else lane vb (i - 64)))

/-- Store an encoded block with its header at one update (R76, R159). -/
def storeBlock (s : State) (ea : Dword) (bs : List Byte) (h : Header) : State :=
  match s.place ea with
  | .bad => fatal s causeAddr ea
  | .own off => match s.here.hdrFault s.user true off with
    | some f => raise s ea f
    | none => (s.modHere (fun k => (k.writeLs off bs).setLsHdr off h)).advance
  | p => match p.dest with
    | some dest =>
      let x : Item := ⟨.venc bs h, s.here.element s.issuer.2 ea .store 8 0, .sent⟩
      (sendItem s s.issuer.1 dest [(x, .block ea bs (.set h) .venc (cdcChannel dest s.me.cdc.toNat))]).advance
    | none => s

/-- VENC and VENC.AUTO (R159). An illegal target is found before a misaligned g d: the spec gives no order of the two (log 76). -/
def venc (i : Instr) (d a b : BitVec 5) (auto : Bool) (s : State) : Host.Outcome State Fault Refusal :=
  issue i s (fun s =>
    let ea := s.reg d
    let tmpl : Header := (s.reg b).extractLsb' 0 32
    match Fmt.ofCode (hdrFmt tmpl) with
    | none => fatal s causeIllegal (wordOf i)
    | some f =>
      if f.encodable = false ∨ (f.narrow ∧ a = 31#5) then fatal s causeIllegal (wordOf i)
      else if aligned ea.toNat 64 = false then trapHere s causeAlign ea
      else
        let xs := vencElements f (s.vreg a) (s.vreg (a + 1))
        let h := if auto then autoHeader f .fp32 xs else givenHeader f tmpl
        storeBlock s ea (bytesOfBlock (encodeBlock f h s.me.rmode.toNat s.here.ctl.srseed ea 0 xs)) h)

def execVenc (d a b : BitVec 5) (s : State) := venc (.venc d a b) d a b false s
def execVencAuto (d a b : BitVec 5) (s : State) := venc (.vencAuto d a b) d a b true s

/-! Conversions (R160, R161) -/

/-- FP32 to INT32: rounded on the integer grid, saturated at ±(2^31 − 1), NaN 0 (R160). -/
def toInt32 (r : Rnd) (x : Fp) : Word :=
  match x with
  | .nan => 0
  | .inf neg => if neg then 0x80000001#32 else 0x7FFFFFFF#32
  | .fin neg m e =>
    let k := min (roundAt r neg m 1 e 0) (2 ^ 31 - 1)
    BitVec.ofInt 32 (if neg then -(k : Int) else k)

/-- A float narrowing into the low half of a lane. -/
def narrowHalf (f : FloatFmt) (r : Rnd) (x : Word) : Word := BitVec.ofNat 32 (f.round r (ofFp32 x))

/-- Output lane i of a conversion that writes 32-bit lanes (R160). The exact ones give the canonical NaN for a NaN, which the spec leaves open
(log 101). -/
def convLane (sel : Nat) (v : VReg) (r : Rnd) (i : Nat) : Word :=
  let x := lane v i
  match sel with
  | 0 => narrowHalf bf16 r x
  | 1 => narrowHalf fp16 r x
  | 2 => rneFp32 (bf16.value (field x 15 0))
  | 3 => rneFp32 (fp16.value (field x 15 0))
  | 4 => toInt32 r (ofFp32 x)
  | 5 => roundW r (Fp.ofInt x.toInt)
  | _ => if i < 32 then roundW r (ofFp64 (laneD v i)) else 0

/-- A conversion of v a into v d with the rounding of each lane. -/
def convert (s : State) (d a : BitVec 5) (m : BitVec 3) (sel : Nat) (rnd : Nat → Rnd) : State :=
  let v := s.vreg a
  if sel = 7 then s.retireV d (maskedD (s.mask m) (s.vreg d) (fun i => rneFp64 (ofFp32 (lane v i))))
  else s.retireV d (masked (s.mask m) (s.vreg d) (fun i => convLane sel v (rnd i) i))

/-- The rounding mode that VCVT's selector names: RMODE, RNE or toward zero (R160). -/
def vcvtMode (rmode sel : Nat) : Nat := if sel / 8 = 0 then rmode else sel / 8 - 1

/-- VCVT (R160). -/
def execVcvt (d a s' : BitVec 5) (m : BitVec 3) (s : State) : Host.Outcome State Fault Refusal :=
  issue (.vcvt d a s' m) s (fun s =>
    if field s' 4 3 = 3 then fatal s causeIllegal (wordOf (.vcvt d a s' m))
    else
      let mode := vcvtMode s.me.rmode.toNat s'.toNat
      convert s d a m (field s' 2 0) (fun i => elementRnd mode s.here.ctl.srseed (BitVec.ofNat 64 (4 * i)) 0 false))

/-- VCVTS: always stochastic, the tag and the conversion from g b (R161). -/
def execVcvts (d a b : BitVec 5) (m : BitVec 3) (s : State) : Host.Outcome State Fault Refusal :=
  issue (.vcvts d a b m) s (fun s =>
    let g := s.reg b
    convert s d a m (field g 18 16) (fun i => elementRnd 4 s.here.ctl.srseed (BitVec.ofNat 64 (4 * i)) (field g 15 0) false))

end Sys2Proof.Machine
end

