-- ==== Sys2Proof/Machine/Transfer.lean ====
section
/-! DEFINITION. What an engine does next for a command: a read of one source block, writes, a change inside the core, its end or a
fault; the pieces a transfer is cut into (R76, R99, R105, R110, R113 to R116; log 11). -/

namespace Sys2Proof.Machine

/-- The next act of an engine for a command; the command as the act leaves it, where it changes. A write names the bytes of the command
before it and PROGRESS at it. -/
inductive Act where
  | read (m : Command) (key : Nat) (addr : Dword) (len : Nat)
  | write (m : Command) (before mark : Nat) (ws : List Write)
  | change (k : Core)
  | skip (m : Command)
  | finish (info : Nat)
  | fault (cause : Nat) (tval : Dword)
  | send (m : Command) (dst : Node) (b : Body)
  | rest
deriving DecidableEq, Repr

/-! What has been read -/

/-- A block read, by its key. -/
def Command.buf (m : Command) (key : Nat) : Option Buf := m.bufs.find? (fun b => decide (b.key = key))

/-- Is a block read, or asked for? -/
def Command.asked (m : Command) (key : Nat) : Bool := (m.buf key).isSome || m.reads.any (fun r => decide (r.key = key))

/-- Is the source of a command that reads it from one end to the other in hand up to a place, exclusive: asked for and answered? -/
def Command.have (m : Command) (q : Nat) : Bool :=
  decide (q ≤ m.rpos) && m.reads.all (fun r => decide (q ≤ r.key)) && m.refusal.all (fun r => decide (q ≤ r.1))

/-- Is everything that the command has sent answered, and every write to its own core made? -/
def Command.quiet (m : Command) : Bool := m.reads.isEmpty && m.writes.isEmpty && m.own.isEmpty && decide (m.xfer = .idle)

/-- The codebook table of a block as it stands: none for another format and for the default table (R85, R86). -/
def Core.cbTable (k : Core) (v : BlockView) : Option (List Byte) :=
  match v with
  | .typed .cb2 h => if k.ctl.cbtab = 0 then none else some (readBytes k.ls (k.ctl.cbtab.toNat + 1024 * hdrAux h) 1024)
  | _ => none

/-- Entry i of the table that a block was read with. -/
def Buf.entry (b : Buf) (_ i : Nat) : Nat :=
  match b.cb with
  | none => defaultEntry i
  | some t => leNat ((t.drop (4 * i)).take 4)

/-- Element i of a block read, in a default format. -/
def Buf.element (b : Buf) (df : Fmt) (i : Nat) : Fp :=
  decodeElement (viewBlock df b.hdr) b.entry (BitVec.ofNat 512 (leNat b.bytes)) i

/-- The same as an integer (R94). -/
def Buf.int (b : Buf) (df : Fmt) (i : Nat) : Int := decodeInt (viewBlock df b.hdr) (BitVec.ofNat 512 (leNat b.bytes)) i

/-- What a block read for an element count faults with: HDR for another count, LSBOUND for its codebook (R85, R174). -/
def Buf.fault (b : Buf) (df : Fmt) (addr : Dword) : Option (Nat × Dword) :=
  if (viewBlock df b.hdr).fmt.perBlock ≠ df.perBlock then some (causeHdr, addr)
  else b.bound.map (fun o => (causeLsbound, BitVec.ofNat 64 o))

/-! Pieces of a transfer -/

/-- Bytes from an address that lie in its 64-byte block. -/
def inBlock (a : Dword) (left : Nat) : Nat := min (64 - a.toNat % 64) left

/-- The first byte of the source block that byte p of a run lies in, the run beginning at `start`; `a` its address. -/
def pieceStart (start p : Nat) (a : Dword) : Nat := max start (p - a.toNat % 64)

/-- The bytes that one read of a source block brings: from where on, and how many. -/
structure Piece where
  lo : Nat
  len : Nat
deriving DecidableEq, Repr

/-- The read of the source block of an address: the whole block where it lies in this core or in device memory; at another core, which
admits a range by its windows (R126), those of its bytes that lie in [lo, hi) (R76; log 11). -/
def pieceOf (a : Dword) (lo hi : Nat) : Piece :=
  let b := a.toNat / 64 * 64
  if ownForm a || deviceForm a then ⟨b, 64⟩ else ⟨max lo b, min hi (b + 64) - max lo b⟩

/-- The byte at an address, and the header of its block, from what has been read of the block. -/
def Command.byteAt (m : Command) (p : Piece) (a : Dword) : Byte × Header :=
  match m.buf p.lo with
  | some b => (b.bytes.getD (a.toNat - p.lo) 0, b.hdr)
  | none => (0, 0)

/-- Bytes with those from an address on replaced by what has been written over them; the first stands at `lo`. -/
def overwrite (bs : List Byte) (lo off : Nat) (new : List Byte) : List Byte :=
  bs.zipIdx.map (fun x => if off ≤ lo + x.2 ∧ lo + x.2 < off + new.length then new.getD (lo + x.2 - off) x.1 else x.1)

/-- The core's own number. -/
def Core.number (k : Core) : Nat := rankCore k.page.orgx k.page.orgy k.page.width k.page.rank

/-- May a run of n bytes at one place share a byte with one at another: in the local store, in one core, or in device memory, where two
virtual addresses of one byte agree below 64 KiB (R105, R106)? -/
def mayMeet (k : Core) (a b : Place) (n : Nat) : Bool :=
  let span (x y : Nat) : Bool := spansMeet x (x + n) y (y + n)
  match a, b with
  | .own x, .own y => span x y
  | .own x, .peer c y | .peer c x, .own y => decide (c = k.number) && span x y
  | .peer c x, .peer d y => decide (c = d) && span x y
  | .foreign v c x, .foreign w d y => decide (v = w) && decide (c = d) && span x y
  | .va x, .va y =>
    let d := (y + 65536 - x % 65536) % 65536
    decide (d < n) || decide (65536 - d < n)
  | _, _ => false

/-! Blocks -/

/-- The effect on a destination block: its source's header, or RAW with the first byte written (R105). -/
def hdrEffect (headers first : Bool) (h : Header) : HdrEffect := if headers then .set h else if first then .raw else .keep

/-- Apply an effect to the header of the local-store block at an offset (R76). -/
def Core.applyEffect (k : Core) (off : Nat) (e : HdrEffect) : Core :=
  match e with
  | .keep => k
  | .raw => k.setLsHdr off 0
  | .set h => k.setLsHdr off h

/-- Bytes and header of a block in one update (R76). -/
def Core.writeBlock (k : Core) (off : Nat) (bs : List Byte) (e : HdrEffect) : Core := (k.writeLs off bs).applyEffect off e

/-- A scale field S1E8M11 as a header (R72, R91). -/
def scaleHeader (x : Nat) : Header := BitVec.ofNat 32 (x * 256)

/-- The 64 bytes of a block as one value (R77). -/
def blockOf (bs : List Byte) : Block := BitVec.ofNat 512 (leNat bs)

/-- An element with an infinity taken as the largest finite value of its own format, for amax (R92). -/
def finiteIn (f : Fmt) (x : Fp) : Fp :=
  match x with
  | .inf _ => .fin false f.maxF.1 f.maxF.2
  | x => x

/-- The header of an encoded block: AUTO over its elements, or GIVEN (R91, R92). -/
def encodeHeader (f : Fmt) (auto : Bool) (scale : Nat) (xs : List (Fmt × Fp)) : Header :=
  if auto then autoHeader f .fp32 (xs.map (fun p => finiteIn p.1 p.2)) else givenHeader f (scaleHeader scale)

end Sys2Proof.Machine
end

