-- ==== Sys2Proof/Machine/CopyEngine.lean ====
section
/-! DEFINITION. The copy engine: COPY, BCAST, DMOVE (R105, R107, R108, R248), GATHER and SCATTER (R106). -/

namespace Sys2Proof.Machine

/-! Two-dimensional copies -/

/-- Source, destination and region of a COPY, a BCAST or a DMOVE. -/
structure Shape where
  src : Dword
  dst : Dword
  g : Region
deriving DecidableEq, Repr

def copyShape (w : BitVec 256) : Shape :=
  match cmdCode w with
  | 0x13 => ⟨dwordAt w 1, BitVec.ofNat 64 (stf w 2 19 0), regionOf w⟩
  | 0x14 => ⟨dwordAt w 1, dwordAt w 2, ⟨stf w 3 19 0, 1, 0, 0⟩⟩
  | _ => ⟨dwordAt w 1, dwordAt w 2, regionOf w⟩

/-- Bytes in all. -/
def Shape.len (h : Shape) : Nat := h.g.x * h.g.y

/-- Do headers move with the blocks (R105)? -/
def Shape.headers (h : Shape) : Bool :=
  aligned h.src.toNat 64 && aligned h.dst.toNat 64 && aligned h.g.x 64 && decide (h.g.sstr % 64 = 0) && decide (h.g.dstr % 64 = 0)

def Shape.srcAt (h : Shape) (pos : Nat) : Dword := rowAddr h.src h.g.sstr (pos / h.g.x) (pos % h.g.x)
def Shape.dstAt (h : Shape) (pos : Nat) : Dword := rowAddr h.dst h.g.dstr (pos / h.g.x) (pos % h.g.x)

/-- The row of a position: its first byte, and one past its last. -/
def Shape.rowStart (h : Shape) (pos : Nat) : Nat := pos - pos % h.g.x
def Shape.rowEnd (h : Shape) (pos : Nat) : Nat := h.rowStart pos + h.g.x

/-- The row's share of a source block from a position on, and of a destination block, which is written whole (R113). -/
def Shape.share (h : Shape) (pos : Nat) : Nat := inBlock (h.srcAt pos) (h.rowEnd pos - pos)
def Shape.writeLen (h : Shape) (pos : Nat) : Nat := inBlock (h.dstAt pos) (h.rowEnd pos - pos)

/-- The one read of the source block of an address, for all the rows that lie in it (R76, R99, R110, R113). Of a peer it asks for the span from
the first needed byte to the last, what lies between two rows included, which the spec leaves open (log 11). -/
def Shape.piece (h : Shape) (a : Dword) : Piece :=
  let b := a.toNat / 64 * 64
  let near := ((List.range h.g.y).map (fun r => (rowAddr h.src h.g.sstr r 0).toNat)).filter (fun s => decide (s < b + 64) && decide (b < s + h.g.x))
  pieceOf a (near.foldl min (b + 64)) (near.foldl (fun e s => max e (s + h.g.x)) b)

/-- Byte p of the command, and the header of its source block, from what has been read. -/
def Shape.byteOf (h : Shape) (m : Command) (p : Nat) : Byte × Header := m.byteAt (h.piece (h.srcAt p)) (h.srcAt p)

/-- Are the source blocks of the positions from p to q, exclusive, in hand? -/
def Shape.inHand (h : Shape) (m : Command) (p q : Nat) : Bool := (List.range (q - p)).all (fun i => (m.buf (h.piece (h.srcAt (p + i))).lo).isSome)

/-- The first position, from where the source has been asked for, whose block has not been. -/
def Shape.nextRead (h : Shape) (m : Command) : Option Nat :=
  ((List.range (h.len - m.rpos)).find? (fun i => !m.asked (h.piece (h.srcAt (m.rpos + i))).lo)).map (fun i => m.rpos + i)

/-- How much of the source the write at a position waits for: its own bytes, or the whole row where the row's two ends may share a byte,
so that no byte of it is read after one it has written (R105). -/
def Shape.needs (h : Shape) (k : Core) (dev pos : Nat) : Nat :=
  let s := h.rowStart pos
  if mayMeet k (decodeAddr k.page dev (h.srcAt s)) (decodeAddr k.page dev (h.dstAt s)) h.g.x then h.rowEnd pos else pos + h.writeLen pos

/-- Has no byte of the destination block been written before this position? -/
def Shape.firstInBlock (h : Shape) (pos : Nat) : Bool :=
  let b := (h.dstAt pos).toNat / 64 * 64
  !(decide (0 < pos % h.g.x) && !aligned (h.dstAt pos).toNat 64)
    && (List.range (pos / h.g.x)).all (fun r =>
      let a := (rowAddr h.dst h.g.dstr r 0).toNat
      decide (a + h.g.x ≤ b) || decide (b + 64 ≤ a))

/-- A gang-relative address (R50). -/
def gangAddr (rank : Nat) (off : Dword) : Dword := BitVec.ofNat 64 (2 ^ 62 + 0x3FFFFE * 2 ^ 40 + rank * 2 ^ 20 + off.toNat % 2 ^ 20)

/-- Where a write goes: the destination, or each receiver of a BCAST, this core's share as a local address (R107). -/
def copyTargets (k : Core) (w : BitVec 256) (t : Dword) : List Dword :=
  if cmdCode w = 0x13 then
    (if bcastSelf k w then [t] else [])
      ++ (((bcastRect k w).ranks k.page.width).filter (fun r => decide (r ≠ k.page.rank))).map (fun r => gangAddr r t)
  else [t]

/-- The open of a directory move (R248 step 1). -/
def openBody (k : Core) (w : BitVec 256) : Body :=
  let sent := stf w 3 25 20
  let e := k.dir[(Fin.ofNat 64 sent : Fin 64)]
  .move (.openMove e.key e.kmask e.rch (stf w 3 19 0) (field (dwordAt w 2) 19 0) k.page.rank sent (stf w 3 31 26))

/-- The command once the write at its position is made. -/
def copyNext (h : Shape) (m : Command) : Command := { m with pos := m.pos + h.writeLen m.pos, progress := m.pos + h.writeLen m.pos }

/-- The writes at the command's position, from what has been read. -/
def copyWrites (k : Core) (m : Command) : List Write :=
  let h := copyShape m.word
  let bs := (List.range (h.writeLen m.pos)).map (fun i => (h.byteOf m (m.pos + i)).1)
  (copyTargets k m.word (h.dstAt m.pos)).map (fun a =>
    ⟨a, bs, hdrEffect h.headers (h.firstInBlock m.pos) (h.byteOf m m.pos).2, cmdDstchen m.word⟩)

/-- COPY, BCAST and DMOVE: the next write whose source is in hand, else the next read. A DMOVE opens first, and after its last byte waits
to commit (R248). -/
def copyAct (k : Core) (dev : Nat) (m : Command) : Act :=
  let h := copyShape m.word
  let move := decide (cmdCode m.word = 0x14)
  if move && decide (m.kept = 0) then
    (match (decodeAddr k.page dev h.dst).dest with
     | some d => .send { m with xfer := .opening } d (openBody k m.word)
     | none => .rest)
  else if m.pos = h.len then (if move || !m.quiet then .rest else .finish h.len)
  else if h.inHand m m.pos (h.needs k dev m.pos) then .write (copyNext h m) m.pos m.pos (copyWrites k m)
  else match h.nextRead m with
    | some p => let x := h.piece (h.srcAt p); .read { m with rpos := p + h.share p } x.lo (BitVec.ofNat 64 x.lo) x.len
    | none => .rest

/-- Is the write the last one? -/
def copyLast (m : Command) : Bool := decide ((copyShape m.word).len ≤ m.pos)

/-- Has the whole source been read (R111)? -/
def copyRead (m : Command) : Bool := m.reads.isEmpty && ((copyShape m.word).nextRead m).isNone

/-! GATHER and SCATTER (R106) -/

structure Indexed where
  gather : Bool
  src : Dword
  dst : Dword
  es : Nat
  n : Nat
  idx : Nat
deriving DecidableEq, Repr

def indexedOf (w : BitVec 256) : Indexed :=
  ⟨decide (cmdCode w = 0x11), dwordAt w 1, dwordAt w 2, stf w 3 44 32, stf w 3 31 20, stf w 3 19 0⟩

def Indexed.base (h : Indexed) : Dword := if h.gather then h.src else h.dst
def Indexed.packed (h : Indexed) : Dword := if h.gather then h.dst else h.src
def Indexed.headers (h : Indexed) : Bool := aligned h.src.toNat 64 && aligned h.dst.toNat 64 && aligned h.es 64
def Indexed.len (h : Indexed) : Nat := h.n * h.es

/-- The check of an indexed element at byte distance d from its base: cause and TVAL. -/
def indexedFault (k : Core) (dev : Nat) (h : Indexed) (d : Nat) : Option (Nat × Dword) :=
  let a : Dword := BitVec.ofNat 64 (h.base.toNat + d)
  let addr : Option (Nat × Dword) := some (causeAddr, a)
  match decodeAddr k.page dev h.base with
  | .own off =>
    if off + d < 0x100 ∨ 0x60000 < off + d + h.es then addr
    else if k.page.lsbytes < off + d + h.es then some (causeLsbound, BitVec.ofNat 64 (max (off + d) k.page.lsbytes))
    else none
  | .peer _ off | .foreign _ _ off => if 2 ^ 20 < off + d + h.es then addr else none
  | .va x => if 2 ^ 56 < x + d + h.es then addr else none
  | .bad => addr

/-- The index word of the element that a position lies in, from the words read. -/
def Indexed.index (h : Indexed) (m : Command) (pos : Nat) : Nat := m.todo.getD (pos / h.es) 0

/-- The check of the element that a position lies in. -/
def Indexed.check (h : Indexed) (k : Core) (dev : Nat) (m : Command) (pos : Nat) : Option (Nat × Dword) :=
  indexedFault k dev h (h.index m pos * h.es)

/-- Source and destination of a byte. -/
def Indexed.srcAt (h : Indexed) (m : Command) (pos : Nat) : Dword :=
  if h.gather then h.src + BitVec.ofNat 64 (h.index m pos * h.es + pos % h.es) else h.src + BitVec.ofNat 64 pos
def Indexed.dstAt (h : Indexed) (m : Command) (pos : Nat) : Dword :=
  if h.gather then h.dst + BitVec.ofNat 64 pos else h.dst + BitVec.ofNat 64 (h.index m pos * h.es + pos % h.es)

def Indexed.start (h : Indexed) (pos : Nat) : Nat := pos - pos % h.es
def Indexed.stop (h : Indexed) (pos : Nat) : Nat := h.start pos + h.es
def Indexed.share (h : Indexed) (m : Command) (pos : Nat) : Nat := inBlock (h.srcAt m pos) (h.stop pos - pos)
def Indexed.writeLen (h : Indexed) (m : Command) (pos : Nat) : Nat := inBlock (h.dstAt m pos) (h.stop pos - pos)

/-- Are both ends of the element in this core's local store? -/
def Indexed.local (h : Indexed) : Bool := ownForm h.src && ownForm h.dst

/-- May the two ends of the element share a byte? -/
def Indexed.meets (h : Indexed) (k : Core) (dev : Nat) (m : Command) (pos : Nat) : Bool :=
  let s := h.start pos
  mayMeet k (decodeAddr k.page dev (h.srcAt m s)) (decodeAddr k.page dev (h.dstAt m s)) h.es

/-- The byte of the element that byte p takes: its own, or, where a local destination lies above its source and inside it, the byte that
the ascending copy has put there (R106). -/
def Indexed.from (h : Indexed) (m : Command) (p : Nat) : Nat :=
  let s := h.start p
  let a := (h.srcAt m s).toNat
  let b := (h.dstAt m s).toNat
  if h.local = true ∧ a < b ∧ b < a + h.es then s + (p - s) % (b - a) else p

/-- The one read of the source block of a position: of a SCATTER for all its elements, of a GATHER at another core for the element alone
(R76, R99, R110, R113; log 11). -/
def Indexed.piece (h : Indexed) (m : Command) (p : Nat) : Piece :=
  let lo := if h.gather then (h.srcAt m (h.start p)).toNat else h.src.toNat
  pieceOf (h.srcAt m p) lo (lo + if h.gather then h.es else h.len)

/-- Byte p of the command, and the header of its source block, from what has been read. -/
def Indexed.byteOf (h : Indexed) (m : Command) (p : Nat) : Byte × Header := m.byteAt (h.piece m (h.from m p)) (h.srcAt m (h.from m p))

/-- Are the source blocks of the positions from p to q, exclusive, in hand? -/
def Indexed.inHand (h : Indexed) (m : Command) (p q : Nat) : Bool := (List.range (q - p)).all (fun i => (m.buf (h.piece m (p + i)).lo).isSome)

/-- May the index word of element i be used: does no earlier element whose bytes are not written yet lie over it, in this core (R106)? -/
def Indexed.settled (h : Indexed) (m : Command) (i : Nat) : Bool :=
  !ownForm h.dst || ((List.range i).drop (m.pos / h.es)).all (fun j =>
    let t := (h.dstAt m (j * h.es)).toNat
    !spansMeet t (t + h.es) (h.idx + 4 * i) (h.idx + 4 * i + 4))

def Indexed.needs (h : Indexed) (k : Core) (dev : Nat) (m : Command) (pos : Nat) : Nat :=
  if h.meets k dev m pos then h.stop pos else pos + h.writeLen m pos

/-- The next index words: those of one 64-byte block, in one read, which an element's write over a later word changes as well (R106);
the list's own SRC entry goes with its last (R110, R111). -/
def Indexed.readList (h : Indexed) (k : Core) (m : Command) : Core :=
  let i := m.todo.length
  let n := min ((64 - (h.idx + 4 * i) % 64) / 4) (h.n - i)
  let isList (l : Lock) : Bool := !l.dest && decide (l.base = h.idx) && decide (l.limit = h.idx + 4 * h.n)
  let same := (k.locks.toList.filter (fun o => o.any (fun l => decide (l.engine = m.engine) && decide (l.ticket = m.ticket) && isList l))).length
  let k1 := k.setCommand { m with todo := m.todo ++ (List.range n).map (fun j => k.ownLE (h.idx + 4 * (i + j)) 4) }
  if i + n = h.n ∧ same = 1 then k1.freeLocksOf m isList else k1

def indexedWrites (m : Command) : List Write :=
  let h := indexedOf m.word
  let a := h.dstAt m m.pos
  let first := aligned a.toNat 64 || decide ((if h.gather then m.pos else m.pos % h.es) = 0)
  [⟨a, (List.range (h.writeLen m m.pos)).map (fun i => (h.byteOf m (m.pos + i)).1), hdrEffect h.headers first (h.byteOf m m.pos).2, cmdDstchen m.word⟩]

/-- What the command holds once it has written over its own source or its own list: later elements and later index words take the bytes
written (R106). -/
def Indexed.over (h : Indexed) (m : Command) (w : Write) : Command :=
  let off := w.addr.toNat
  let word (x : Nat × Nat) : Nat := if x.2 ≤ m.pos / h.es then x.1 else leNat (overwrite (leBytes 4 x.1) (h.idx + 4 * x.2) off w.bytes)
  let buf (b : Buf) : Buf := { b with
    bytes := overwrite b.bytes b.key off w.bytes
    hdr := if b.key / 64 = off / 64 then (match w.eff with
      | .keep => b.hdr
      | .raw => 0
      | .set x => x) else b.hdr }
  { m with todo := if ownForm h.dst then m.todo.zipIdx.map word else m.todo, bufs := if h.local then m.bufs.map buf else m.bufs }

/-- The command once the write at its position is made. -/
def indexedNext (h : Indexed) (m : Command) : Command :=
  let m1 := (indexedWrites m).foldl h.over m
  { m1 with pos := m.pos + h.writeLen m m.pos, progress := m.pos + h.writeLen m m.pos }

/-- GATHER and SCATTER: the next write whose source is in hand, else the next index words, else the next read, which waits for the writes
of earlier elements where both ends are local. The first element that fails its check stops the command once the writes before it are
acknowledged (R106). -/
def indexedAct (k : Core) (dev : Nat) (m : Command) : Act :=
  let h := indexedOf m.word
  if m.pos = h.len then (if m.quiet then .finish m.pos else .rest)
  else if m.pos < m.rpos && h.inHand m m.pos (h.needs k dev m m.pos) then .write (indexedNext h m) m.pos m.pos (indexedWrites m)
  else if m.rpos < h.len then
    (if m.todo.length ≤ m.rpos / h.es then .change (h.readList k m)
     else if h.settled m (m.rpos / h.es) = false then .rest
     else match h.check k dev m m.rpos with
       | some f => if m.pos = m.rpos ∧ m.quiet = true then .fault f.1 f.2 else .rest
       | none =>
         if h.local = true ∧ m.pos < h.start m.rpos then .rest
         else
           let x := h.piece m m.rpos
           let m1 := { m with rpos := m.rpos + h.share m m.rpos }
           if m.asked x.lo then .skip m1 else .read m1 x.lo (BitVec.ofNat 64 x.lo) x.len)
  else .rest

def indexedLast (m : Command) : Bool := decide ((indexedOf m.word).len ≤ m.pos)

/-- Has the whole source been read (R111)? -/
def indexedRead (m : Command) : Bool :=
  let h := indexedOf m.word
  m.reads.isEmpty && decide (m.todo.length = h.n) && (List.range h.n).all (fun i => decide (h.es * (i + 1) ≤ m.rpos) || h.settled m i)
    && h.inHand m m.rpos h.len

end Sys2Proof.Machine
end

