-- ==== Sys2Proof/Machine/Stream.lean ====
section
/-! DEFINITION. The stream engine: FILT (R164, R165) and CONV (R166, R167). -/

namespace Sys2Proof.Machine

/-! FILT -/

structure Filter where
  kword : Nat
  op : Nat
  idxen : Bool
  size : Nat
  n : Nat
  idx : Nat
  src : Nat
  dst : Dword
  mask : Nat
  val : Nat
deriving DecidableEq, Repr

def filterOf (w : BitVec 256) : Filter :=
  ⟨stf w 0 63 56, stf w 0 55 54, bit w 53, 4 * stf w 1 63 52, stf w 1 51 40, stf w 1 39 20, stf w 1 19 0, dwordAt w 2, stf w 3 63 32, stf w 3 31 0⟩

/-- Does a key pass? -/
def Filter.pass (h : Filter) (key : Nat) : Bool :=
  let t := key &&& h.mask
  match h.op with
  | 0 => decide (t = h.val)
  | 1 => decide (t ≠ h.val)
  | 2 => decide (t < h.val)
  | _ => decide (h.val ≤ t)

def Filter.headers (h : Filter) : Bool := aligned h.src 64 && aligned h.dst.toNat 64 && aligned h.size 64

def Filter.len (h : Filter) : Nat := h.n * h.size
def Filter.srcAt (h : Filter) (p : Nat) : Dword := BitVec.ofNat 64 (h.src + p)
def Filter.dstAt (h : Filter) (m : Command) : Dword := h.dst + BitVec.ofNat 64 (h.size * m.kept + m.pos)

/-- Bytes of the read at a position: all of the records' share of a source block, so that a block is read once (R76, R113). -/
def Filter.readLen (h : Filter) (p : Nat) : Nat := inBlock (h.srcAt p) (h.len - p)
def Filter.writeLen (h : Filter) (m : Command) : Nat := inBlock (h.dstAt m) (h.size - m.pos)

/-- Byte p of the records, and the header of its block, from what has been read. -/
def Filter.byteOf (h : Filter) (m : Command) (p : Nat) : Byte × Header :=
  let key := pieceStart 0 p (h.srcAt p)
  match m.buf key with
  | some b => (b.bytes.getD (p - key) 0, b.hdr)
  | none => (0, 0)

/-- n bytes of the records from p. -/
def Filter.bytesOf (h : Filter) (m : Command) (p n : Nat) : List Byte := (List.range n).map (fun i => (h.byteOf m (p + i)).1)

/-- The key of the record in progress. -/
def Filter.key (h : Filter) (m : Command) : Nat := leNat (h.bytesOf m (h.size * m.row + 4 * h.kword) 4)

/-- The command after its record, kept or not: blocks that no later record needs go. -/
def nextRecord (h : Filter) (m : Command) (kept : Bool) : Command :=
  { m with row := m.row + 1, pos := 0, kept := m.kept + b2n kept, progress := m.row + 1,
           bufs := m.bufs.filter (fun b => decide (h.size * (m.row + 1) < b.key + b.bytes.length)) }

/-- FILT: the records in order, each once its blocks are read: its bytes, then its place in the index list, whose blocks become RAW (R76,
R165; log 69). -/
def filtAct (m : Command) : Act :=
  let h := filterOf m.word
  if m.row = h.n then (if m.quiet then .finish m.kept else .rest)
  else if m.have (h.size * (m.row + 1)) = false then
    .read { m with rpos := m.rpos + h.readLen m.rpos } m.rpos (h.srcAt m.rpos) (h.readLen m.rpos)
  else if m.pos = h.size then
    let a := h.idx + 4 * m.kept
    .write (nextRecord h m true) (h.size * (m.kept + 1)) m.row
      [⟨BitVec.ofNat 64 a, leBytes 4 m.row, hdrEffect false (aligned a 64 || decide (m.kept = 0)) 0, false⟩]
  else if m.pos = 0 ∧ h.pass (h.key m) = false then .skip (nextRecord h m false)
  else
    let n := h.writeLen m
    let p := h.size * m.row + m.pos
    let first := aligned (h.dstAt m).toNat 64 || (decide (m.kept = 0) && decide (m.pos = 0))
    let m1 := if m.pos + n = h.size ∧ h.idxen = false then nextRecord h m true else { m with pos := m.pos + n }
    .write m1 (h.size * m.kept + m.pos) m.row [⟨h.dstAt m, h.bytesOf m p n, hdrEffect h.headers first (h.byteOf m p).2, cmdDstchen m.word⟩]

/-! CONV -/

structure Conv where
  tf : Fmt
  df : Fmt
  mode : Nat
  auto : Bool
  src : Dword
  dst : Dword
  scale : Nat
  tag : Nat
  ne : Nat
deriving DecidableEq, Repr

def convOf (w : BitVec 256) : Conv :=
  ⟨(tfmtOf (stf w 0 63 56)).getD .fp32, (dfmtOf (stf w 3 43 36)).getD .fp32, stf w 0 55 53, bit w 52, dwordAt w 1, dwordAt w 2,
   stf w 3 63 44, stf w 3 35 20, stf w 3 19 0⟩

/-- The elements of destination block b: from, to. -/
def Conv.first (h : Conv) (b : Nat) : Nat := h.tf.perBlock * b
def Conv.last (h : Conv) (b : Nat) : Nat := min (h.tf.perBlock * (b + 1)) h.ne

/-- The source blocks that destination block b needs. -/
def Conv.needs (h : Conv) (b : Nat) : List Nat :=
  let lo := h.first b / h.df.perBlock
  (List.range ((h.last b - 1) / h.df.perBlock + 1 - lo)).map (fun j => lo + j)

def Conv.blocks (h : Conv) : Nat := blocksFor h.ne h.tf.perBlock
def Conv.srcBlocks (h : Conv) : Nat := blocksFor h.ne h.df.perBlock

def Conv.blockAddr (h : Conv) (j : Nat) : Dword := h.src + BitVec.ofNat 64 (64 * j)

/-- The elements of a destination block, each with the format it was read in (R83). -/
def Conv.elements (h : Conv) (m : Command) : List (Fmt × Fp) :=
  (List.range (h.last m.row - h.first m.row)).map (fun i =>
    let e := h.first m.row + i
    match m.buf (e / h.df.perBlock) with
    | some b => ((viewBlock h.df b.hdr).fmt, b.element h.df (e % h.df.perBlock))
    | none => (h.df, .fin false 0 0))

/-- What the source blocks of the next destination block fault with: the first block that does. -/
def Conv.fault (h : Conv) (m : Command) : Option (Nat × Dword) :=
  (h.needs m.row).findSome? (fun j => (m.buf j).bind (fun b => b.fault h.df (h.blockAddr j)))

/-- The command after its destination block: the source blocks that the next one needs again are kept. -/
def convNext (h : Conv) (m : Command) : Command :=
  let lo := h.first (m.row + 1) / h.df.perBlock
  { m with row := m.row + 1, progress := h.last m.row, bufs := m.bufs.filter (fun b => decide (lo ≤ b.key)) }

/-- CONV: the next destination block once its source blocks are read, else the next read. A block that faults stops the command once the
writes before it are acknowledged (R116, R167). -/
def convAct (m : Command) : Act :=
  let h := convOf m.word
  if m.row = h.blocks then (if m.quiet then .finish h.ne else .rest)
  else match h.fault m with
    | some f => if m.quiet then .fault f.1 f.2 else .rest
    | none =>
      if m.have ((h.last m.row - 1) / h.df.perBlock + 1) then
        let xs := h.elements m
        let hd := encodeHeader h.tf h.auto h.scale xs
        let a := h.dst + BitVec.ofNat 64 (64 * m.row)
        .write (convNext h m) (64 * m.row) (h.first m.row)
          [⟨a, bytesOfBlock (encodeBlock h.tf hd h.mode m.seed a h.tag (xs.map Prod.snd)), .set hd, cmdDstchen m.word⟩]
      else if m.rpos < h.srcBlocks then .read { m with rpos := m.rpos + 1 } m.rpos (h.blockAddr m.rpos) 64
      else .rest

def convRead (m : Command) : Bool := m.have (convOf m.word).srcBlocks

def convLast (m : Command) : Bool := decide (m.row = (convOf m.word).blocks)

end Sys2Proof.Machine
end

