-- ==== Sys2Proof/Machine/Mxe.lean ====
section
/-! DEFINITION. The matrix engine: MMA (R173 to R175), MMAC (R177, R178), ACCZ, ACCST and ACCLD (R179 to R181). -/

namespace Sys2Proof.Machine

/-! The accumulator store (R170) -/

/-- Offset of element (i, j) of a view in the accumulator store. -/
def accOffset (acc i j : Nat) : Nat := 512 * i + accWidth acc * j

/-- The header that the MXE writes for a view. -/
def viewHeader (acc : Nat) : Header :=
  match acc with
  | 0 => 0x03F80001#32
  | 1 => 0x03F8000B#32
  | _ => 0x03F80002#32

/-- Bits of an element of a view. -/
def Core.accBits (k : Core) (acc i j : Nat) : Nat := readLE k.acc (accOffset acc i j) (accWidth acc)

/-- Write an element with its block's header in one update (R170). -/
def Core.setAcc (k : Core) (acc i j x : Nat) : Core :=
  let o := accOffset acc i j
  { k with acc := writeLE k.acc o (accWidth acc) x, accHdr := sset k.accBase k.accHdr (o / 64) (viewHeader acc) }

/-- The format of a view's elements. -/
def viewFmt (acc : Nat) : Fmt := if acc = 0 then .fp32 else if acc = 1 then .int32 else .fp64

/-- The value of an element. -/
def Core.accValue (k : Core) (acc i j : Nat) : Fp := elementValue (viewFmt acc) (k.accBits acc i j)

/-! MMA and MMAC -/

/-- Operand blocks of an MMA: offset, stride in blocks, default format. -/
structure MatOp where
  off : Nat
  stride : Nat
  df : Fmt
  isB : Bool
deriving DecidableEq, Repr

def opA (w : BitVec 256) : MatOp := ⟨stf w 1 19 0, stf w 1 51 40, (Fmt.ofCode (stf w 0 55 48)).getD .bf16, false⟩
def opB (w : BitVec 256) : MatOp := ⟨stf w 1 39 20, stf w 1 63 52, (Fmt.ofCode (stf w 0 63 56)).getD .bf16, true⟩

/-- Offset of the block that holds element k of run r, and the key it is read under. -/
def MatOp.block (o : MatOp) (r k : Nat) : Nat := o.off + 64 * (o.stride * r + k / o.df.perBlock)
def MatOp.key (o : MatOp) (r k : Nat) : Nat := 2 * o.block r k + b2n o.isB

/-- The block that holds element k of run r, as read. -/
def MatOp.buf (o : MatOp) (x : Command) (r k : Nat) : Buf := (x.buf (o.key r k)).getD ⟨0, [], 0, none, none⟩

/-- What a block of an operand faults with (R85, R174): its format, then its codebook (log 70). -/
def MatOp.fault (o : MatOp) (x : Command) (acc r k : Nat) : Option (Nat × Dword) :=
  let b := o.buf x r k
  let f := (viewBlock o.df b.hdr).fmt
  let at' : Dword := BitVec.ofNat 64 (o.block r k)
  if (if o.isB then admitsB acc f else admitsA acc f) = false then some (causeHdr, at') else b.fault o.df at'

/-- Element k of run r: its value, and as an integer (R94, R174). -/
def MatOp.value (o : MatOp) (x : Command) (r k : Nat) : Fp := (o.buf x r k).element o.df (k % o.df.perBlock)
def MatOp.int (o : MatOp) (x : Command) (r k : Nat) : Int := (o.buf x r k).int o.df (k % o.df.perBlock)

/-- Element (m, k) of A as MMAC's down-converter forms it (R178). -/
def downConvert (c : Core) (w : BitVec 256) (m k : Nat) : Fp :=
  let f := (cfmtOf (stf w 3 7 0)).getD .bf16
  let src := mmacSource w
  let j := k / f.perBlock
  let xs := (List.range (min (f.perBlock * (j + 1)) (accK w) - f.perBlock * j)).map (fun i =>
    c.accValue 0 (src.row + m) (src.col + f.perBlock * j + i))
  let h := encodeHeader f (bit w 203) (stf w 3 31 12) (xs.map (fun x => (Fmt.fp32, x)))
  let code := encodeElement f h (arithRnd (stf w 3 10 8)) (c.accValue 0 (src.row + m) (src.col + k))
  if f.scaled then applyScale h (elementValue f code) else elementValue f code

/-- Element k of row m of A. -/
def aValue (c : Core) (x : Command) (m k : Nat) : Fp :=
  if cmdCode x.word = 0x02 then downConvert c x.word m k else (opA x.word).value x m k

/-- The new bits of element (m, n) after group g (R93, R94, R175). -/
def groupUpdate (c : Core) (x : Command) (g m n : Nat) : Nat :=
  let w := x.word
  let r := accRegion w
  let G := accG r.acc
  let ks := (List.range G).map (fun i => G * g + i)
  let fromZero := accZero w && decide (g = 0)
  if r.acc = 1 then
    let s : Int := (ks.map (fun k => (opA w).int x m k * (opB w).int x n k)).foldl (· + ·) 0
    let old : Int := if fromZero then 0 else signedOf 32 (c.accBits 1 (r.row + m) (r.col + n))
    (BitVec.ofInt 32 (max (-(2 ^ 31 - 1)) (min (2 ^ 31 - 1) (old + s)))).toNat
  else
    let s := Fp.sum (ks.map (fun k => (aValue c x m k).mul ((opB w).value x n k)))
    let old : Fp := if fromZero then .fin false 0 0 else c.accValue r.acc (r.row + m) (r.col + n)
    if r.acc = 0 then (rneFp32 (Fp.add old s)).toNat else (rneFp64 (Fp.add old s)).toNat

/-- What the blocks of element (m, n) in group g fault with: A's before B's (log 70). -/
def groupFault (x : Command) (g m n : Nat) : Option (Nat × Dword) :=
  let w := x.word
  let acc := (accRegion w).acc
  let k := accG acc * g
  match if cmdCode w = 0x02 then none else (opA w).fault x acc m k with
  | some f => some f
  | none => (opB w).fault x acc n k

/-- The source blocks of group g, A's and then B's: operand and run. -/
def groupBlocks (w : BitVec 256) : List (MatOp × Nat) :=
  let r := accRegion w
  (if cmdCode w = 0x02 then [] else (List.range r.m).map (fun m => (opA w, m))) ++ (List.range r.n).map (fun n => (opB w, n))

/-- Are the blocks of one operand for the last group, and so for every group, in hand? -/
def operandRead (x : Command) (isB : Bool) : Bool :=
  let k := accG (accRegion x.word).acc
  (groupBlocks x.word).all (fun p => decide (p.1.isB ≠ isB)
    || (decide (k * x.progress / p.1.df.perBlock = (accK x.word - 1) / p.1.df.perBlock) && (x.buf (p.1.key p.2 (k * x.progress))).isSome))

/-- May an SRC entry of an MMA or an MMAC go: has each operand whose span it covers been read (R111)? -/
def mmaFrees (x : Command) (l : Lock) : Bool :=
  let r := accRegion x.word
  let mine (o : MatOp) (n : Nat) : Bool :=
    let s := runSpan o.off o.stride n (accK x.word) o.df.perBlock
    decide (l.base = s.lo) && decide (l.limit = s.hi)
  !l.dest && (cmdCode x.word = 0x02 || !mine (opA x.word) r.m || operandRead x false) && (!mine (opB x.word) r.n || operandRead x true)

/-- The elements of a region as m × 128 + n. -/
def AccRegion.elements (r : AccRegion) : List Nat := (List.range r.m).flatMap (fun m => (List.range r.n).map (fun n => 128 * m + n))

/-- The command after its group. -/
def nextGroup (x : Command) : Command := { x with todo := [], progress := x.progress + 1 }

/-- MMA and MMAC: a source block of the group in progress not yet read, each read once and whole (R76, R174), else one element of the
group, any that the group has not updated yet (R175); `pick` says which. -/
def mmaAct (k : Core) (m : Command) (pick : Nat) : Act :=
  let w := m.word
  let r := accRegion w
  if m.progress = accKg w then .finish (accKg w)
  else
    let at' := accG r.acc * m.progress
    match (groupBlocks w).find? (fun p => (m.buf (p.1.key p.2 at')).isNone) with
    | some p => .read m (p.1.key p.2 at') (BitVec.ofNat 64 (p.1.block p.2 at')) 64
    | none =>
      let todo := if m.todo = [] then r.elements else m.todo
      let e := todo.getD (pick % todo.length) 0
      match groupFault m m.progress (e / 128) (e % 128) with
      | some f => .fault f.1 f.2
      | none =>
        let rest := todo.filter (fun x => decide (x ≠ e))
        .change ((k.setAcc r.acc (r.row + e / 128) (r.col + e % 128) (groupUpdate k m m.progress (e / 128) (e % 128))).setCommand
          (if rest = [] then nextGroup m else { m with todo := rest }))

/-! ACCZ, ACCST, ACCLD -/

/-- The command after its row. -/
def nextRow (m : Command) : Command := { m with row := m.row + 1, pos := 0, kept := 0, progress := m.row + 1 }

/-- ACCZ (R179): one element at a time. -/
def acczAct (k : Core) (m : Command) : Act :=
  let r := accRegion m.word
  if m.row = r.m then .finish (r.m * r.n)
  else
    .change ((k.setAcc r.acc (r.row + m.row) (r.col + m.pos) 0).setCommand
      (if m.pos + 1 = r.n then nextRow m else { m with pos := m.pos + 1 }))

structure AccStore where
  tf : Fmt
  mode : Nat
  auto : Bool
  scale : Nat
  tag : Nat
  dstr : Nat
  dst : Dword
  nb : Nat
deriving DecidableEq, Repr

def accStoreOf (w : BitVec 256) : AccStore :=
  let f := (tfmtOf (stf w 3 7 0)).getD .fp32
  ⟨f, stf w 3 10 8, bit w 203, stf w 3 31 12, stf w 3 47 32, stf w 3 59 48, dwordAt w 1, blocksFor (accRegion w).n f.perBlock⟩

def AccStore.addr (h : AccStore) (m : Command) : Dword := h.dst + BitVec.ofNat 64 (64 * (h.dstr * m.row + m.pos))

/-- ACCST (R180): one block at a time. -/
def accstAct (k : Core) (m : Command) : Act :=
  let r := accRegion m.word
  let h := accStoreOf m.word
  if m.row = r.m then (if m.quiet then .finish (64 * r.m * h.nb) else .rest)
  else
    let n := min h.tf.perBlock (r.n - h.tf.perBlock * m.pos)
    let xs := (List.range n).map (fun i => k.accValue r.acc (r.row + m.row) (r.col + h.tf.perBlock * m.pos + i))
    let hd := encodeHeader h.tf h.auto h.scale (xs.map (fun x => (viewFmt r.acc, x)))
    let a := h.addr m
    .write (if m.pos + 1 = h.nb then nextRow m else { m with pos := m.pos + 1 }) (64 * (m.row * h.nb + m.pos)) m.row
      [⟨a, bytesOfBlock (encodeBlock h.tf hd h.mode m.seed a h.tag xs), .set hd, cmdDstchen m.word⟩]

def accstLast (m : Command) : Bool := decide (m.row = (accRegion m.word).m)

structure AccLoad where
  df : Fmt
  sstr : Nat
  src : Dword
  nb : Nat
deriving DecidableEq, Repr

def accLoadOf (w : BitVec 256) : AccLoad :=
  let f := (dfmtOf (stf w 3 7 0)).getD .fp32
  ⟨f, stf w 3 19 8, dwordAt w 1, blocksFor (accRegion w).n f.perBlock⟩

/-- Blocks in all; the place of block j of them, which rows may share (R181), and its address. -/
def AccLoad.blocks (h : AccLoad) (m : Command) : Nat := (accRegion m.word).m * h.nb
def AccLoad.key (h : AccLoad) (j : Nat) : Nat := h.sstr * (j / h.nb) + j % h.nb
def AccLoad.addr (h : AccLoad) (j : Nat) : Dword := h.src + BitVec.ofNat 64 (64 * h.key j)

/-- The first block, from where they have been asked for, that has not been: each is read once (R76, R113). -/
def AccLoad.nextRead (h : AccLoad) (m : Command) : Option Nat :=
  ((List.range (h.blocks m - m.rpos)).find? (fun i => !m.asked (h.key (m.rpos + i)))).map (fun i => m.rpos + i)

/-- What a block of an ACCLD faults with (R181). -/
def AccLoad.fault (h : AccLoad) (acc : Nat) (b : Buf) (addr : Dword) : Option (Nat × Dword) :=
  if acc = 1 ∧ intFmt (viewBlock h.df b.hdr).fmt = false then some (causeHdr, addr) else b.fault h.df addr

/-- The bits of element i of a block, for a view (R181). -/
def AccLoad.bits (h : AccLoad) (acc : Nat) (b : Buf) (i : Nat) : Nat :=
  match acc with
  | 0 => (rneFp32 (b.element h.df i)).toNat
  | 1 => (BitVec.ofInt 32 (b.int h.df i)).toNat
  | _ => (rneFp64 (b.element h.df i)).toNat

/-- The command after the last element of its block. -/
def nextBlock (h : AccLoad) (m : Command) : Command :=
  let m := { m with todo := [] }
  if m.pos + 1 = h.nb then nextRow m else { m with pos := m.pos + 1, kept := 0 }

/-- ACCLD (R181): each block is read, then decoded whole, then its elements are written one at a time. -/
def accldAct (k : Core) (m : Command) : Act :=
  let r := accRegion m.word
  let h := accLoadOf m.word
  let j := m.row * h.nb + m.pos
  if m.row = r.m then .finish (64 * r.m * h.nb)
  else
    let n := min h.df.perBlock (r.n - h.df.perBlock * m.pos)
    if m.todo ≠ [] then
      .change ((k.setAcc r.acc (r.row + m.row) (r.col + h.df.perBlock * m.pos + m.kept) (m.todo.getD m.kept 0)).setCommand
        (if m.kept + 1 < n then { m with kept := m.kept + 1 } else nextBlock h m))
    else match m.buf (h.key j) with
      | some b => (match h.fault r.acc b (h.addr j) with
        | some f => .fault f.1 f.2
        | none => .skip { m with todo := (List.range n).map (h.bits r.acc b) })
      | none => match h.nextRead m with
        | some i => .read { m with rpos := i + 1 } (h.key i) (h.addr i) 64
        | none => .rest

/-- Has every block been read (R111)? -/
def accldRead (m : Command) : Bool := m.reads.isEmpty && ((accLoadOf m.word).nextRead m).isNone

/-! What a block is decoded with -/

/-- The default format a command reads a block in, where it decodes it. -/
def readFormat (m : Command) (key : Nat) : Option Fmt :=
  match cmdCode m.word with
  | 0x01 | 0x02 => some (if key % 2 = 0 then (opA m.word).df else (opB m.word).df)
  | 0x05 => some (accLoadOf m.word).df
  | 0x21 => some (convOf m.word).df
  | _ => none

/-- What the command holds of a block it has read: with a CB2 block its table as it stands at the read (R85). -/
def Core.bufOf (k : Core) (m : Command) (key : Nat) (bs : List Byte) (h : Header) : Buf :=
  match readFormat m key with
  | none => ⟨key, bs, h, none, none⟩
  | some df => ⟨key, bs, h, k.cbTable (viewBlock df h), k.cbFault (viewBlock df h)⟩

end Sys2Proof.Machine
end

