-- ==== Sys2Proof/Machine/Engine.lean ====
section
/-! DEFINITION. Running an engine's commands: their acts, the answers of the network, their completion, faults and stops (R99,
R111, R114 to R116, R184, R185, R248, R290). -/

namespace Sys2Proof.Machine

/-- The next act of a command, by its code. -/
def nextAct (k : Core) (dev : Nat) (m : Command) (pick : Nat) : Act :=
  match cmdCode m.word with
  | 0x01 | 0x02 => mmaAct k m pick
  | 0x03 => acczAct k m
  | 0x04 => accstAct k m
  | 0x05 => accldAct k m
  | 0x10 | 0x13 | 0x14 => copyAct k dev m
  | 0x11 | 0x12 => indexedAct k dev m
  | 0x20 => filtAct m
  | _ => convAct m

/-- May an SRC entry of the command go: has the engine's last read from its range completed (R111)? FILT keeps its entries (R165). -/
def freesSource (m : Command) (l : Lock) : Bool :=
  match cmdCode m.word with
  | 0x01 | 0x02 => mmaFrees m l
  | 0x05 => !l.dest && accldRead m
  | 0x10 | 0x13 | 0x14 => !l.dest && copyRead m
  | 0x11 | 0x12 => !l.dest && indexedRead m
  | 0x21 => !l.dest && convRead m
  | _ => false

/-- Has the command made its last write (R111)? -/
def lastWrite (m : Command) : Bool :=
  match cmdCode m.word with
  | 0x04 => accstLast m
  | 0x10 | 0x13 | 0x14 => copyLast m
  | 0x11 | 0x12 => indexedLast m
  | 0x21 => convLast m
  | _ => false

/-- Do the command's acts stand where a stop may come: between groups, rows or records, or anywhere in a copy or between blocks (R116,
R163, R184)? -/
def atBoundary (m : Command) : Bool :=
  match cmdCode m.word with
  | 0x01 | 0x02 => decide (m.todo = [])
  | 0x05 => decide (m.pos = 0) && decide (m.todo = [])
  | 0x03 | 0x04 | 0x20 => decide (m.pos = 0)
  | _ => true

/-- Is the command at a progress point: there, with all it has sent answered? -/
def atPoint (m : Command) : Bool := m.quiet && atBoundary m

/-! Completion and faults -/

/-- The command ends: its entries are freed, and with NOTIFY its message is sent, or held while DONECH is full (R111, R115,
R213). -/
def finishCommand (s : State) (c : Nat) (m : Command) (status info : Nat) : State :=
  let s := s.modCore c (fun k => k.freeLocksOf m (fun _ => true))
  if cmdNotify m.word then
    let p := completionPayload m.engine status m.ticket info
    let r := deviceMessage s c (cmdDone m.word) p (BitVec.ofNat 16 (s.core c).page.rank) (.engine m.ticket)
    if r.2 then r.1.modCore c (fun k => k.dropCommand m.ticket)
    else r.1.modCore c (fun k => k.setCommand { m with done := some p, xfer := .idle, bufs := [], reads := [], writes := [], wait := 0 })
  else s.modCore c (fun k => k.dropCommand m.ticket)

/-- A DMOVE that stops before its commit sends an abort, where its open was accepted, and its source entry returns to ACTIVE
(R248 step 5). -/
def abortMove (s : State) (c : Nat) (m : Command) : State :=
  if cmdCode m.word = 0x14 ∧ m.xfer ≠ .committing then
    let s := s.modCore c (fun k => k.restoreEntry m)
    let k := s.core c
    match (decodeAddr k.page s.fab.device (dwordAt m.word 2)).dest with
    | some d => if m.kept = 1 then s.inject c (k.packet c d m.slot .none (.move (.abort (stf m.word 3 31 26)))) else s
    | none => s
  else s

/-- The command stops with a fault of the gang, which has been logged (R116, R185, R286). -/
def engineStops (s : State) (c : Nat) (m : Command) (cause : Nat) (tval : Dword) : State :=
  let s := abortMove s c m
  endFaulty (s.modCore c (fun k => (k.freeLocksOf m (fun _ => true)).dropCommand m.ticket)) c cause m.pc tval

/-- An engine raises a fault of its gang. -/
def engineFault (s : State) (c : Nat) (m : Command) (cause : Nat) (tval : Dword) : State := engineStops (s.logFault c m.slot cause) c m cause tval

/-- A command refused: bytes before its first refused one are acknowledged, or on their way; it takes no other (R116). -/
def Command.halt (m : Command) (before : Nat) : Command :=
  let n := (m.halted.map (min before)).getD before
  { m with halted := some n, writes := m.writes.filter (fun x => x.sent || decide (x.before < n)) }

/-- A halted command ends once what precedes its first refused byte, and all it had sent, is answered (R115, R116). -/
def settleHalt (s : State) (c ticket : Nat) : State :=
  match (s.core c).command ticket with
  | none => s
  | some m => match m.halted with
    | some n => if m.writes.isEmpty && m.own.isEmpty && m.done.isNone then finishCommand s c m causeRefused n else s
    | none => s

/-- The command is refused, which has been logged: it stops with STATUS 0x05, and without NOTIFY the gang faults (R116, R286). -/
def refuseCommand (s : State) (c : Nat) (m : Command) (before : Nat) (tval : Dword) : State :=
  if cmdNotify m.word then
    settleHalt ((abortMove s c m).modCore c (fun k => k.setCommand { m.halt before with xfer := .idle, wait := 0 })) c m.ticket
  else engineStops s c m causeRefused tval

/-- A refusal of a command, logged as it comes and once for a command (R286). -/
def logRefusal (s : State) (c : Nat) (m : Command) : State := if m.halted.isNone && m.refusal.isNone then s.logFault c m.slot causeRefused else s

/-- A command meets a refusal. -/
def engineRefused (s : State) (c : Nat) (m : Command) (before : Nat) (tval : Dword) : State := refuseCommand (logRefusal s c m) c m before tval

/-! Sending -/

/-- A packet of an engine. -/
def Core.enginePacket (k : Core) (c : Nat) (m : Command) (dst : Node) (b : Body) : Packet :=
  k.packet c dst m.slot (.engine m.ticket m.unit) b

/-- May a packet leave for a node, the drain hold of R314 permitting? -/
def Core.mayLeave (k : Core) (dst : Node) : Bool := !(k.ni.hold && isCoreNode dst)

/-- Where an engine's access goes. -/
def Core.nodeOf (k : Core) (dev : Nat) (a : Dword) : Option Node := (decodeAddr k.page dev a).dest

/-- The first read that can leave. -/
def Command.nextRead (m : Command) (k : Core) (dev : Nat) : Option (Nat × ReadOut × Node) :=
  m.reads.zipIdx.findSome? (fun x => if x.1.sent then none else (k.nodeOf dev x.1.addr).bind (fun d => if k.mayLeave d then some (x.2, x.1, d) else none))

/-- The first write that can leave: none before it to the same destination is unanswered, and of a CONV, which writes its blocks in
ascending order, none before it at all (R114, R168). -/
def Command.nextWrite (m : Command) (k : Core) (dev : Nat) : Option (Nat × WriteOut × Node) :=
  m.writes.zipIdx.findSome? (fun x => if x.1.sent then none else (k.nodeOf dev x.1.write.addr).bind (fun d =>
    if k.mayLeave d && (m.writes.take x.2).all (fun y => decide (cmdCode m.word ≠ 0x21) && decide (k.nodeOf dev y.write.addr ≠ some d)) then some (x.2, x.1, d) else none))

/-- The packet of a write. -/
def WriteOut.body (x : WriteOut) (w : BitVec 256) (d : Node) : Body :=
  .block x.write.addr x.write.bytes x.write.eff .engine (if x.write.credit && !isStationNode d then cmdCredit w else none)

/-- One packet of a command leaves, if one can: a read first. -/
def sendOne (s : State) (c ticket : Nat) : State :=
  let k := s.core c
  match k.command ticket with
  | none => s
  | some m =>
    let m1 := { m with unit := m.unit + 1 }
    if m.parked.isSome ∨ m.done.isSome then s
    else match m.nextRead k s.fab.device with
      | some (j, x, d) =>
        (s.setCore c (k.setCommand { m1 with reads := setAt m.reads j { x with unit := m1.unit, sent := true } })).inject c
          (k.enginePacket c m1 d (.load x.addr x.len true))
      | none => match m.nextWrite k s.fab.device with
        | some (j, x, d) =>
          (s.setCore c (k.setCommand { m1 with writes := setAt m.writes j { x with unit := m1.unit, sent := true } })).inject c
            (k.enginePacket c m1 d (x.body m.word d))
        | none => s

/-- Everything of a command that can leave leaves. -/
def sendAll (s : State) (c ticket : Nat) : State :=
  let n := (((s.core c).command ticket).map (fun m => m.reads.length + m.writes.length)).getD 0
  (List.range n).foldl (fun s _ => sendOne s c ticket) s

/-! Acts -/

/-- The command with a block read: SRC entries go at the last read (R111). -/
def readDone (k : Core) (m : Command) : Core := (k.setCommand m).freeLocksOf m (freesSource m)

/-- Read a source block: at once from this core, else by a request. -/
def engineRead (s : State) (c : Nat) (m : Command) (key : Nat) (addr : Dword) (len : Nat) : State :=
  let k := s.core c
  match decodeAddr k.page s.fab.device addr with
  | .own off => s.setCore c (readDone k { m with bufs := m.bufs ++ [k.bufOf m key (k.ownBytes off len) (k.header off)] })
  | .bad => engineFault s c m causeAddr addr
  | _ => sendAll (s.setCore c (k.setCommand { m with reads := m.reads ++ [⟨0, key, addr, len, false⟩] })) c m.ticket

/-- The writes of an act that leave the core. -/
def remoteWrites (k : Core) (dev before mark : Nat) (ws : List Write) : List WriteOut :=
  (ws.filter (fun w => (k.nodeOf dev w.addr).isSome)).map (fun w => ⟨0, before, mark, w, false⟩)

/-- Those that this core itself receives. -/
def ownWrites (k : Core) (dev before mark : Nat) (ws : List Write) : List OwnWrite :=
  ws.filterMap (fun w => match decodeAddr k.page dev w.addr with
    | .own off => some ⟨off, before, mark, w, false⟩
    | _ => none)

/-- May a running command act: not stopped, parked, refused, ended, awaiting a directory move's answer, or due to stop where it stands? -/
def Command.moves (m : Command) : Bool :=
  decide (m.xfer = .idle) && !m.stopped && m.parked.isNone && m.halted.isNone && m.done.isNone && !(m.stopping && atBoundary m)

/-- A command whose last write is in place and acknowledged is over (R115, R297). -/
def endIfDone (s : State) (c ticket : Nat) : State :=
  match (s.core c).command ticket with
  | none => s
  | some m => if m.running && m.moves then (match nextAct (s.core c) s.fab.device m 0 with
      | .finish info => finishCommand s c m 0 info
      | _ => s)
    else s

/-- What follows a write of this core's that is in place, or credited: with the last one the DEST entries go, and the command may be over
(R111, R115, R297). -/
def ownDone (s : State) (c : Nat) (m : Command) : State :=
  let k := (s.core c).setCommand m
  let s := s.setCore c (if lastWrite m && m.own.all OwnWrite.placed then k.freeLocksOf m (fun l => l.dest) else k)
  let s := settleHalt s c m.ticket
  if lastWrite m then endIfDone s c m.ticket else s

/-- The next step of the writes to this core: the bytes of one, or the credit of one that has its bytes (R107, R114, R196, R348). -/
def ownStep (s : State) (c : Nat) (m : Command) : State :=
  let k := s.core c
  match m.own with
  | [] => s
  | x :: rest =>
    let ch := if x.write.credit then cmdCredit m.word else none
    let after := { m with own := rest }
    if x.placed then
      match ch.filter k.isCount with
      | none => ownDone s c after
      | some n => (match k.credit n x.write.bytes.length with
        | some k => ownDone (s.setCore c k) c after
        | none => engineFault s c m causeChovf 0)
    else if ch.any (fun n => !k.isCount n) then engineRefused s c after x.before x.write.addr
    else
      let s := s.setCore c (k.writeBlock x.off x.write.bytes x.write.eff)
      ownDone s c (if ch.isSome then { m with own := { x with placed := true } :: rest } else after)

/-- Carry out writes: those that leave as packets, and this core's share, of a BCAST in a step of its own and of another command at once
(R107, R114). -/
def engineWrite (s : State) (c : Nat) (m : Command) (before mark : Nat) (ws : List Write) : State :=
  let k := s.core c
  let m1 := { m with writes := m.writes ++ remoteWrites k s.fab.device before mark ws, own := m.own ++ ownWrites k s.fab.device before mark ws }
  if m1.own ≠ [] ∧ cmdCode m.word ≠ 0x13 then ownStep (s.setCore c (k.setCommand m1)) c m1
  else
    let k2 := k.setCommand m1
    let s := sendAll (s.setCore c (if lastWrite m1 && m1.own.isEmpty then k2.freeLocksOf m (fun l => l.dest) else k2)) c m.ticket
    if lastWrite m1 then endIfDone s c m.ticket else s

/-- Carry out an act. -/
def perform (s : State) (c : Nat) (m : Command) : Act → State
  | .read m key addr len => engineRead s c m key addr len
  | .write m before mark ws => engineWrite s c m before mark ws
  | .change k => s.setCore c k
  | .skip m => s.modCore c (fun k => readDone k m)
  | .finish info => finishCommand s c m 0 info
  | .fault cause tval => engineFault s c m cause tval
  | .send m d b =>
    let k := s.core c
    if k.mayLeave d then
      let m := { m with wait := 1, unit := m.unit + 1 }
      (s.setCore c (k.setCommand m)).inject c (k.enginePacket c m d b)
    else s
  | .rest => s

/-- Bytes of the command whose writes have been made, and so are acknowledged or to be (R116, R185). -/
def Command.made (m : Command) : Nat :=
  match cmdCode m.word with
  | 0x04 => 64 * (m.row * (accStoreOf m.word).nb + m.pos)
  | 0x05 => 64 * (m.row * (accLoadOf m.word).nb + m.pos)
  | 0x20 => (filterOf m.word).size * m.kept + m.pos
  | 0x21 => 64 * m.row
  | _ => m.pos

/-- The act of a command one of whose reads is refused: it writes what it has read before that, and reads no more; then it is refused
(R116, R181, R185). -/
def refusedAct (s : State) (c : Nat) (m : Command) (addr : Dword) (a : Act) : State :=
  match a with
  | .write _ _ _ _ | .change _ | .skip _ | .fault _ _ => perform s c m a
  | _ => if m.reads = [] then refuseCommand s c m m.made addr else s

/-- A step of an engine for one command of a code: it starts, sends what it held back, or makes its next act (R102, R103, R182, R183). -/
def runEngine (code core ticket pick : Nat) (s : State) : Host.Outcome State Fault Refusal :=
  let k := s.core core
  .next (match k.command ticket with
    | none => s
    | some m =>
      if cmdCode m.word ≠ code then s
      else if m.running = false then s.setCore core (k.start s.fab.device m)
      else if m.own ≠ [] then ownStep s core m
      else if m.parked.isNone && ((m.nextRead k s.fab.device).isSome || (m.nextWrite k s.fab.device).isSome) then sendAll s core ticket
      else if m.moves then (match m.refusal with
        | some r => refusedAct s core m r.2 (nextAct k s.fab.device m pick)
        | none => perform s core m (nextAct k s.fab.device m pick))
      else s)

def execMma (core ticket pick : Nat) (s : State) := runEngine 0x01 core ticket pick s
def execMmac (core ticket pick : Nat) (s : State) := runEngine 0x02 core ticket pick s
def execAccz (core ticket : Nat) (s : State) := runEngine 0x03 core ticket 0 s
def execAccst (core ticket : Nat) (s : State) := runEngine 0x04 core ticket 0 s
def execAccld (core ticket : Nat) (s : State) := runEngine 0x05 core ticket 0 s
def execCopy (core ticket : Nat) (s : State) := runEngine 0x10 core ticket 0 s
def execGather (core ticket : Nat) (s : State) := runEngine 0x11 core ticket 0 s
def execScatter (core ticket : Nat) (s : State) := runEngine 0x12 core ticket 0 s
def execBcast (core ticket : Nat) (s : State) := runEngine 0x13 core ticket 0 s
def execDmove (core ticket : Nat) (s : State) := runEngine 0x14 core ticket 0 s
def execFilt (core ticket : Nat) (s : State) := runEngine 0x20 core ticket 0 s
def execConv (core ticket : Nat) (s : State) := runEngine 0x21 core ticket 0 s

/-! Answers -/

/-- A reply brings the block asked for. -/
def engineReply (s : State) (c ticket unit : Nat) (data : List Byte) (h : Header) : State :=
  let k := s.core c
  match k.command ticket with
  | none => s
  | some m => match m.reads.find? (fun r => r.sent && decide (r.unit = unit)) with
    | some r =>
      s.setCore c (readDone k { m with reads := m.reads.filter (fun x => decide (x.unit ≠ unit) || !x.sent), bufs := m.bufs ++ [k.bufOf m r.key data h] })
    | none => s

/-- An acknowledgement: the write is in place, one that waited for it may leave, and with the last the command is over; that of a commit
completes its DMOVE (R248 step 4). -/
def engineAck (s : State) (c ticket unit : Nat) : State :=
  let k := s.core c
  match k.command ticket with
  | none => s
  | some m =>
    if m.xfer = .committing ∧ m.unit = unit then finishCommand s c { m with wait := 0 } 0 (stf m.word 3 19 0)
    else
      let m1 := { m with writes := m.writes.filter (fun x => decide (x.unit ≠ unit) || !x.sent) }
      let s := settleHalt (sendAll (s.setCore c (k.setCommand m1)) c ticket) c ticket
      if lastWrite m1 then endIfDone s c ticket else s

/-- Bytes of the command before the packet that a NAK answers: before a write, or all that it has written where a read is refused. -/
def Command.beforeUnit (m : Command) (unit : Nat) : Nat :=
  match m.writes.find? (fun x => x.sent && decide (x.unit = unit)) with
  | some x => x.before
  | none => m.made

/-- Does the command await the answer to a packet? -/
def Command.awaits (m : Command) (unit : Nat) : Bool :=
  m.reads.any (fun r => r.sent && decide (r.unit = unit)) || m.writes.any (fun x => x.sent && decide (x.unit = unit))
    || (decide (m.xfer ≠ .idle) && decide (m.unit = unit))

/-- A packet that a NAK brings back is to be sent again (R116). -/
def Command.unsend (m : Command) (unit : Nat) : Command :=
  { m with reads := m.reads.map (fun r => if r.sent && decide (r.unit = unit) then { r with sent := false } else r),
           writes := m.writes.map (fun x => if x.sent && decide (x.unit = unit) then { x with sent := false } else x) }

/-- The command without the packet that a NAK answers. -/
def Command.without (m : Command) (unit : Nat) : Command :=
  { m with reads := m.reads.filter (fun r => decide (r.unit ≠ unit) || !r.sent), writes := m.writes.filter (fun x => decide (x.unit ≠ unit) || !x.sent) }

/-- The first of the reads refused, by its key. -/
def firstRefusal (o : Option (Nat × Dword)) (r : Nat × Dword) : Option (Nat × Dword) :=
  match o with
  | some x => some (if r.1 < x.1 then r else x)
  | none => some r

/-- A NAK: XLATE parks the command, which sends the packet again after the repair; REFUSED of a write stops it, that of a read once what
comes before is written; anything else is a fault of the gang; `cycle` that of the NAK for one with NOPARK (R66, R116, R213, R286). -/
def engineNak (s : State) (c ticket unit cause : Nat) (noPark : Bool) (addr : Dword) : State :=
  let k := s.core c
  match (k.command ticket).filter (fun m => m.awaits unit) with
  | none => s
  | some m =>
    if cause = causeXlate then
      (s.logFault c m.slot cause).setCore c (k.setCommand { m.unsend unit with parked := some (if noPark then some k.cycle else none, addr) })
    else if cause = causeRefused then
      (match m.reads.find? (fun r => r.sent && decide (r.unit = unit)), m.halted with
       | some r, none => (logRefusal s c m).setCore c (k.setCommand { m.without unit with refusal := firstRefusal m.refusal (r.key, addr) })
       | _, _ => engineRefused s c (m.without unit) (m.beforeUnit unit) addr)
    else engineFault s c m cause (if cause = causeChovf then 0 else addr)

/-- E of the reply to a move's open (R248 step 1). -/
def engineOpened (s : State) (c ticket unit eset : Nat) : State :=
  let k := s.core c
  match (k.command ticket).filter (fun m => decide (m.xfer = .opening) && decide (m.unit = unit)) with
  | none => s
  | some m => s.setCore c (k.setCommand { m with kept := 1, eset := eset, closed := 0, xfer := .idle, wait := 0 })

/-! Stops and the commit -/

/-- PROGRESS_POINT_STOP: a command that must stop does so at its progress point, keeping what it has read and not yet written; a parked
one once what it had sent is answered (R116, R290). -/
def execProgressPointStop (core ticket : Nat) (s : State) : Host.Outcome State Fault Refusal :=
  let k := s.core core
  .next (match k.command ticket with
    | none => s
    | some m =>
      let parked := m.parked.isSome && m.own.isEmpty && m.reads.all (fun r => !r.sent) && m.writes.all (fun x => !x.sent)
      if m.running && m.stopping && !m.stopped && m.done.isNone && m.halted.isNone && (parked || atPoint m) then
        s.setCore core (k.setCommand { m with stopped := true })
      else s)

/-- Has the source core answered every census of E, or has a close of it arrived (R248 step 3)? -/
def Core.moveSettled (k : Core) (m : Command) : Bool :=
  (List.range 16).all (fun t => !m.eset.testBit t || m.closed.testBit t || decide ((k.leaves[(Fin.ofNat 16 t : Fin 16)]).state ≠ .idle))

/-- COMMIT: the source of a move sends its commit and its entry becomes FREE, no RESPOND of the entry having retired in this cycle (R248
step 3, R251). The entry's other fields are 0 (log 88). -/
def execCommit (core ticket : Nat) (s : State) : Host.Outcome State Fault Refusal :=
  let k := s.core core
  .next (match k.command ticket with
    | none => s
    | some m =>
      let sent : Fin 64 := Fin.ofNat 64 (stf m.word 3 25 20)
      let e := k.dir[sent]
      if decide (cmdCode m.word = 0x14) && decide (m.kept = 1) && decide (m.pos = stf m.word 3 19 0) && m.quiet
          && m.moves && decide (e.owed = 0) && k.moveSettled m && decide (k.responded ≠ some (sent.val, k.cycle)) then
        (match (decodeAddr k.page s.fab.device (dwordAt m.word 2)).dest with
         | some d =>
           let m := { m with xfer := .committing, wait := 1, unit := m.unit + 1 }
           let k1 := { k with dir := k.dir.set sent Entry.reset }
           (s.setCore core (k1.setCommand m)).inject core (k1.enginePacket core m d (.move (.commit e.answered.toNat (stf m.word 3 31 26))))
         | none => s)
      else s)

end Sys2Proof.Machine
end

