-- ==== Sys2Proof/Machine/Messages.lean ====
section
/-! DEFINITION. SEND and SENDC (R215), CHCFG and CHCNT (R217, R218), PATSET and PATCLR (R220, R221), the matcher (R222 to
R224) and END (R228). -/

namespace Sys2Proof.Machine

/-- A delivery by a core's own slot to a channel of its own (R215). -/
def sendOwn (s : State) (ea : Dword) (off : Nat) (count : Bool) (v : Dword) : State :=
  let k := s.here
  if off < 0xC0000 ∨ 0xC03F0 < off then fatal s causeAddr ea
  else
    let c := (off - 0xC0000) / 16
    if count then
      (if k.isCount c = false then trapHere s causeRefused ea
       else match k.credit c (field v 47 0) with
         | some k => (s.setCore s.issuer.1 k).advance
         | none => fatal s causeChovf ea)
    else if k.isMsg c = false then trapHere s causeRefused ea
    else if (k.chan c).full then fatal s causeChovf ea
    else (s.setCore s.issuer.1 (k.push c (v, BitVec.ofNat 16 k.page.rank))).advance

/-- SEND and SENDC after the fence of a .rel form (R215). -/
def sendBody (s : State) (a b : BitVec 5) (count : Bool) : State :=
  let ea := s.reg a
  if aligned ea.toNat 16 = false then trapHere s causeAlign ea
  else match s.place ea with
    | .bad | .va _ => fatal s causeAddr ea
    | .own off => sendOwn s ea off count (s.reg b)
    | p => match p.dest with
      | some dest =>
        let x : Item := ⟨.send count, { s.here.element s.issuer.2 ea .store 8 (s.reg b) with cdc := 0 }, .sent⟩
        (sendItem s s.issuer.1 dest [(x, .send ea count (s.reg b))]).advance
      | none => s

/-- A message with an implied release: the release comes first, whether or not there is room for the message, which then waits for room
(R190, R192). -/
def sendReleased (s : State) (a b : BitVec 5) (count : Bool) : State :=
  withRelease s (fun s => if s.itemWaits (s.reg a) 16 1 then s.modMe (fun x => { x with fencing := true }) else sendBody s a b count)

def send (i : Instr) (a b : BitVec 5) (r : BitVec 1) (count : Bool) (s : State) : Host.Outcome State Fault Refusal :=
  issue i s (fun s => if r = 1 then sendReleased s a b count else sendBody s a b count)

def execSend (a b : BitVec 5) (r : BitVec 1) (s : State) := send (.send a b r) a b r false s
def execSendc (a b : BitVec 5) (r : BitVec 1) (s : State) := send (.sendc a b r) a b r true s

/-! Pattern descriptors (R219) -/

def patHandler (p : BitVec 256) : Nat := field p 31 0
def patPrio (p : BitVec 256) : Nat := field p 39 32
def patTerms (p : BitVec 256) : Nat := field p 47 40
def patEnabled (p : BitVec 256) : Bool := bit p 48
def patOneshot (p : BitVec 256) : Bool := bit p 49
def patIndex (p : BitVec 256) : Nat := field p 63 56
/-- Channel, zero byte and threshold of term t, from 0. -/
def patChan (p : BitVec 256) (t : Nat) : Nat := field p (71 + 48 * t) (64 + 48 * t)
def patZero (p : BitVec 256) (t : Nat) : Nat := field p (79 + 48 * t) (72 + 48 * t)
def patThresh (p : BitVec 256) (t : Nat) : Nat := field p (111 + 48 * t) (80 + 48 * t)
/-- The terms a pattern has, by number. -/
def patList (p : BitVec 256) : List Nat := List.range (min (patTerms p) 4)

/-- Is a value found twice in a list? -/
def hasDup : List Nat → Bool
  | [] => false
  | x :: l => l.contains x || hasDup l

/-! CHCFG (R217) -/

/-- Is the channel in a use that forbids a change of its kind (R217, R272)? A barrier holds it while this core is a member: a leaf that has
left by ARRIVED holds it no more, of which the rules say nothing (log 87). -/
def Core.chanUsed (k : Core) (c : Nat) : Bool :=
  k.pats.toList.any (fun p => patEnabled p && (patList p).any (fun t => decide (patChan p t = c)))
    || k.eng.cmds.any (fun m => (cmdArm m.word && (decide (cmdArm0 m.word = c) || decide (cmdArm1 m.word = c)))
        || (cmdNotify m.word && decide (cmdDone m.word = c)))
    || (!bit k.ctl.faultch 6 && decide (field k.ctl.faultch 5 0 = c))
    || k.dir.toList.any (fun e => decide (e.state ≠ .free) && decide (e.rch = c))
    || k.offered.any (fun o => decide (o.2.2 = c))
    || k.bars.toList.any (fun b => b.member && decide (b.ch = c))
    || k.cens.toList.any (fun x => decide (x.state ≠ .free) && decide (x.door = c))

/-- Does the ring [off, off + 16 n) meet the ring of another declared MSG channel? -/
def Core.ringMeets (k : Core) (c off n : Nat) : Bool :=
  (List.range 64).any (fun j => let x := k.chan j
    decide (j ≠ c) && k.isMsg j && decide (0 < x.rent) && decide (off < x.roff + 16 * x.rent) && decide (x.roff < off + 16 * n))

/-- Does CHCFG refuse the configuration word as ILLEGAL? -/
def Core.chcfgIllegal (k : Core) (c : Nat) (w : Dword) : Bool :=
  let x := k.chan c
  let count := bit w 63
  let rent := field w 43 32
  let off := field w 19 0
  decide (field w 61 48 ≠ 0)
    || (count && decide (field w 47 0 = 0))
    || (!count && (decide (field w 47 44 ≠ 0) || decide (field w 31 20 ≠ 0)))
    || (!count && decide (0 < rent) && (decide (off % 16 ≠ 0) || decide (off < 0x100) || decide (k.page.lsbytes < off + 16 * rent) || k.ringMeets c off rent))
    || (bit w 62 && (count != x.count))
    || (bit w 62 && !count && decide (0 < x.spill))
    || ((count != x.count) && k.chanUsed c)

/-- The channel as CHCFG leaves it. -/
def Channel.configure (x : Channel) (w : Dword) : Channel :=
  let keep := bit w 62
  if bit w 63 then { decl := x.decl, count := true, arm := field w 47 0, cnt := if keep then x.cnt else 0, rent := 0, roff := 0, rhead := 0, spill := 0, msgs := [] }
  else
    let rent := field w 43 32
    let off := field w 19 0
    { decl := x.decl, count := false, arm := 0, cnt := if keep then x.cnt else 0, rent := rent, roff := off,
      rhead := if x.rent = rent ∧ x.roff = off then x.rhead else 0,
      spill := if keep then x.spill else 0, msgs := if keep then x.msgs else [] }

/-- CHCFG: a channel not declared is BADTERM before the word is tested, as the operation has it (R217, against the order of R39; log 84). -/
def execChcfg (d a b : BitVec 5) (s : State) : Host.Outcome State Fault Refusal :=
  issue (.chcfg d a b) s (fun s =>
    let c := (s.reg a).toNat
    let w := s.reg b
    if s.here.page.nchan ≤ c then s.retire d (negCode 6)
    else if s.here.chcfgIllegal c w then s.retire d (negCode 2)
    else (s.modHere (fun k => k.setChan c ((k.chan c).configure w))).retire d (BitVec.ofNat 64 c))

/-- CHCNT (R218). -/
def execChcnt (d a : BitVec 5) (s : State) : Host.Outcome State Fault Refusal :=
  issue (.chcnt d a) s (fun s =>
    let c := (s.reg a).toNat
    s.retire d (if s.here.page.nchan ≤ c then 0 else (s.here.chan c).snapshot))

/-! PATSET and PATCLR (R220, R221) -/

/-- A descriptor of 32 bytes in the local store that an instruction names: own-core, 32-aligned, inside
[0x0_0100, LSBYTES); BADADDR otherwise, before anything is read (R39). -/
def State.descriptorAt (s : State) (a : Dword) : Option Nat :=
  match s.place a with
  | .own off => if off % 32 = 0 ∧ s.here.inStore off 32 then some off else none
  | _ => none

/-- Read a descriptor as one own-core load, which a DEST lock refuses (R112), and go on with it. -/
def withDescriptor (s : State) (off : Nat) (go : BitVec 256 → State) : State :=
  match s.here.firstFault s.user false off 32 with
  | some f => raise s (BitVec.ofNat 64 off) f
  | none => go (BitVec.ofNat 256 (s.here.ownLE off 32))

/-- Malformed contents of a pattern descriptor. -/
def patIllegal (p : BitVec 256) : Bool :=
  decide (patTerms p = 0) || decide (4 < patTerms p) || decide (field p 55 50 ≠ 0)
    || (patList p).any (fun t => decide (patZero p t ≠ 0) || decide (patThresh p t = 0))
    || ((List.range 4).any (fun t => decide (patTerms p ≤ t) && decide (field p (111 + 48 * t) (64 + 48 * t) ≠ 0)))
    || hasDup ((patList p).map (patChan p))

/-- The result of PATSET on a descriptor: a failure code, or none (R39, R220). -/
def Core.patCode (k : Core) (p : BitVec 256) : Option Nat :=
  if patIllegal p then some 2
  else if patHandler p % 4 ≠ 0 ∨ patHandler p < 0x100 ∨ k.page.lsbytes ≤ patHandler p then some 4
  else if (patList p).any (fun t => decide (k.page.nchan ≤ patChan p t) || (k.isMsg (patChan p t) && decide (patThresh p t ≠ 1))) then some 6
  else if k.page.npat ≤ patIndex p then some 7
  else none

def Core.setPat (k : Core) (i : Nat) (p : BitVec 256) : Core := { k with pats := k.pats.set (Fin.ofNat 32 i : Fin 32) p }

def execPatset (d a : BitVec 5) (s : State) : Host.Outcome State Fault Refusal :=
  issue (.patset d a) s (fun s =>
    match s.descriptorAt (s.reg a) with
    | none => s.retire d (negCode 4)
    | some off => withDescriptor s off (fun p =>
      match s.here.patCode p with
      | some n => s.retire d (negCode n)
      | none => (s.modHere (fun k => k.setPat (patIndex p) p)).retire d (BitVec.ofNat 64 (patIndex p))))

def execPatclr (a : BitVec 5) (s : State) : Host.Outcome State Fault Refusal :=
  issue (.patclr a) s (fun s =>
    let i := (s.reg a).toNat
    if s.here.page.npat ≤ i then s.advance else (s.modHere (fun k => k.setPat i 0)).advance)

/-! The matcher (R222, R223) -/

def Core.pat (k : Core) (i : Nat) : BitVec 256 := k.pats[(Fin.ofNat 32 i : Fin 32)]

/-- Is a term satisfied? -/
def Core.termMet (k : Core) (p : BitVec 256) (t : Nat) : Bool :=
  let c := patChan p t
  if k.isMsg c then decide (0 < (k.chan c).held)
  else k.isCount c && decide (patThresh p t ≤ (k.chan c).cnt)

/-- Is a pattern eligible? -/
def Core.eligible (k : Core) (i : Nat) : Bool :=
  decide (i < k.page.npat) && patEnabled (k.pat i) && (patList (k.pat i)).all (k.termMet (k.pat i))

/-- The lowest-numbered free user slot. -/
def Core.freeSlot (k : Core) : Option (Fin 5) :=
  (List.finRange 5).find? (fun i => decide (i.val < k.page.nslot) && decide (i.val < 4) && decide ((k.slot i).state = .free))

/-- The pattern that fires: the highest priority, the first from PTR on. -/
def Core.winner (k : Core) : Option Nat :=
  let es := (List.range 32).filter k.eligible
  let pr := es.foldl (fun m i => max m (patPrio (k.pat i))) 0
  ((List.range 32).map (fun j => (k.ptr + j) % 32)).find? (fun i => es.contains i && decide (patPrio (k.pat i) = pr))

/-- Consume one term: the core after it, what g(t+1) receives, and its sender field. -/
def Core.consume (k : Core) (p : BitVec 256) (t : Nat) : Core × Dword × Nat :=
  let c := patChan p t
  if k.isMsg c then
    match (k.chan c).msgs with
    | m :: _ => (k.pop c, m.1, m.2.toNat)
    | [] => (k, 0, 0)
  else
    let n := patThresh p t
    (k.setChan c { k.chan c with cnt := (k.chan c).cnt - n }, BitVec.ofNat 64 n, senderCount.toNat)

/-- Consume every term in order. -/
def Core.consumeAll (k : Core) (p : BitVec 256) : List Nat → Core × List (Dword × Nat)
  | [] => (k, [])
  | t :: ts =>
    let r := k.consume p t
    let q := Core.consumeAll r.1 p ts
    (q.1, r.2 :: q.2)

/-- A slot at the start of an activation (R24): g1 to g4 the terms, g5 the sender fields, g6 slot and pattern. -/
def Slot.startBody (x : Slot) (pc prio : Nat) (terms : List (Dword × Nat)) (g6 : Nat) : Slot :=
  let g5 := terms.zipIdx.foldl (fun a e => a + e.1.2 * 2 ^ (16 * e.2)) 0
  let g : Vector Dword 32 := Vector.ofFn (fun i =>
    if 1 ≤ i.val ∧ i.val ≤ 4 then ((terms[i.val - 1]?).map Prod.fst).getD 0
    else if i.val = 5 then BitVec.ofNat 64 g5
    else if i.val = 6 then BitVec.ofNat 64 g6
    else 0)
  { Slot.reset with state := .active, pc := BitVec.ofNat 64 pc, prio := prio, act := x.act + 1, g := g }

/-- One firing (R223). -/
def Core.fire (k : Core) (w : Nat) (i : Fin 5) : Core :=
  let p := k.pat w
  let r := k.consumeAll p (patList p)
  let k := r.1.modSlot i (fun x => x.startBody (patHandler p) (patPrio p) r.2 (i.val * 256 + w))
  let k := if patOneshot p then k.setPat w (p &&& ~~~(BitVec.ofNat 256 (2 ^ 48))) else k
  { k with ptr := (w + 1) % 32 }

/-- Does an arm consumption of this cycle take from a channel that the pattern names (R104, R223)? -/
def Core.armTakes (k : Core) (w : Nat) : Bool :=
  k.armCycle.2.any (fun h => (armChans h.word).any (fun c => (patList (k.pat w)).any (fun t => decide (patChan (k.pat w) t = c))))

/-- The pattern that fires in a cycle and the slot that takes its body (R223): nothing fires before the release of the gang, from a
pre-emption on, without a free slot or an eligible pattern, or where an arm test takes from a channel of the pattern's. -/
def Core.firing (k : Core) : Option (Nat × Fin 5) :=
  if k.matching = false ∨ k.ctl.pre ≠ .none then none
  else match k.winner, k.freeSlot with
    | some w, some i => if k.armTakes w then none else some (w, i)
    | _, _ => none

/-- MATCHER_FIRING. -/
def execMatcherFiring (core : Nat) (s : State) : Host.Outcome State Fault Refusal :=
  let k := s.core core
  .next (match k.firing with
    | some (w, i) => s.setCore core (k.fire w i)
    | none => s)

/-- The consumptions of a cycle, as a core's channels, patterns and slots stand at its start: the arm tests, and the firing, of which an
arm test may take the place (R104, R223, R224). -/
def Core.consumeCycle (k : Core) (start : Core) : Core :=
  match start.firing with
  | some (w, i) => k.armHeads.fire w i
  | none => k.armHeads

/-! END (R228) -/

/-- The activation ends: every register of the slot is discarded, its tag kept. -/
def Slot.ended (x : Slot) : Slot := { Slot.reset with act := x.act }

/-- A plain END: a pending AGGF traps first. -/
def execEndAct (s : State) : Host.Outcome State Fault Refusal :=
  issue .endAct s (fun s =>
    match s.me.aggf with
    | some p => trapHere (s.modMe (fun x => { x with aggf := none })) causeAggf p
    | none => s.modMe Slot.ended)

/-- The first END.EXIT of a rank tells the scheduler (R228, R263). -/
def exitRank (s : State) : State :=
  let k := s.here
  if k.exited then s
  else (s.modHere (fun k => { k with exited := true })).send
    { src := .core s.issuer.1, dst := .hub, vc := .hub, tenant := k.tenant, asid := k.asid, gang := k.gang.getD 0, slot := s.issuer.2.val,
      tag := .none, body := .hub (k.gang.getD 0) (.exit k.page.rank) }

/-- END.EXIT: each one releases, the later ones of a rank too, as the operation has it; for the rest a later one is a plain END, whose
"implies no release" the spec does not settle against that (R228; log 78). -/
def execEndExit (s : State) : Host.Outcome State Fault Refusal :=
  issue .endExit s (fun s => withRelease s (fun s => (exitRank s).modMe Slot.ended))

end Sys2Proof.Machine
end

