-- ==== Sys2Proof/Config.lean ====
section
/-! DEFINITION. What the spec leaves to the part: constants without a value in Lean, so that no proof can lean on one. -/

namespace Sys2Proof.Config

/-- What the sections of a hand-over record hold, each TYPE of R343 its own contents; last the security manager's keys. -/
inductive Section where
  | contexts (tenants : List Machine.Tenant)
  /-- of each tenant its records, with their states, levels and order -/
  | queues (pools : List (Nat × List Machine.PoolRec))
  /-- of each gang its rectangle, column, row, width and height, and its save-area base -/
  | placements (gangs : List (Nat × List Nat × Dword))
  | reservations (res : List (Nat × Option Machine.Resv))
  | counters (cached : List Machine.Counter)
  | grants (gangs : List (Nat × List Machine.BarRoot × List Nat))
  | statistics (draw : Nat)
  | partitions (sel : List (Nat × Nat)) (bank0 bank1 : List (Nat × Dword))
  | routes (table : List (Nat × BitVec 128)) (flows : List Machine.Flow)
  /-- of each link whether it is up, and the replays of its flits -/
  | links (states : List (Link × Bool × List Nat))
  /-- of each link its slots, two of each direction: loaded, IC, retiring -/
  | keySlots (slots : List (Link × List (Bool × Nat × Bool)))
  | congestion (draw : Nat)
  /-- owners of the memory's key slots, the slots of each link with what was loaded, and the secrets of the sessions -/
  | keys (owners : List (Nat × Nat)) (slots : List (Link × List Machine.KeySlot)) (secrets : List (Nat × Option (BitVec 384)))
deriving DecidableEq, Repr

/-- What R293 lists for the first 8 KiB of a core's record: `slots` the pending AGGF and the lanes entered of each slot, and
whether a CANCEL has stopped it. -/
structure EngineFacts where
  engines : Machine.Engines
  ptr : Nat
  bars : List Machine.Bar
  leaves : List Machine.Leaf
  retained : List Machine.Retained
  reqs : List Machine.Request
  slots : List (Option Dword × Nat × Bool)
  agemax : Nat
  aggfill : Nat
  next : Nat
deriving DecidableEq, Repr

/-- The gang id the scheduler gives the n-th gang it places (log 12). -/
opaque gangId : Nat → Word
/-- Which of the free pool records a launch takes, as a number to be reduced modulo their count (log 12). -/
opaque poolChoice : Nat → Nat
/-- What R310 leaves open of a packet's bytes from byte 16 on (log 20). -/
opaque wireBytes : Packet → List Byte
/-- The ephemeral session key QD of the device and its nonce nD (log 20). -/
opaque sessionKey : Nat → BitVec 776
opaque sessionNonce : Nat → BitVec 256
/-- SHA-384 and ECDSA P-384 under the device key, uninterpreted (log 20). -/
opaque sha384 : List Byte → BitVec 384
opaque ecdsaSign : BitVec 384 → BitVec 768
/-- Does an ECDSA P-384 signature over a digest verify under the key with a digest? Toravan's release key. Uninterpreted (log 20). -/
opaque ecdsaVerify : BitVec 384 → BitVec 384 → BitVec 768 → Bool
opaque releaseKey : BitVec 384
/-- How a host access travels in its session (log 75). -/
opaque accessBytes : Dword → Option (List Byte) → Nat → List Byte
/-- What R343 leaves to the images of a hand-over record: its format version, of a section its version and how it holds its contents, the
TYPE of the security manager's section, and the reason of a REJECT (log 77). -/
opaque recordFormat : Nat → Dword → Nat
opaque sectionVersion : Nat → Dword → Nat
opaque sectionBytes : Section → List Byte
opaque keyType : Nat
opaque rejectReason : Nat → Dword
/-- ECDH and HKDF-SHA-384 of R338, uninterpreted (log 20). -/
opaque ecdh : BitVec 776 → BitVec 776 → BitVec 384
opaque hkdf : BitVec 384 → BitVec 256 → BitVec 256 → Nat → BitVec 288
/-- Where the memory manager allocates the save area of a gang (log 23). -/
opaque saveBase : Nat → Dword
/-- How R293 has a gang's header held, from w, h, the gang's and the tenant's id, the root counts of its barriers and the states of its
census slots (log 23). -/
opaque saveHeader : List Nat → List Machine.BarRoot → List Machine.CenSlot → List Byte
/-- How the first 8 KiB of a core's record holds it (log 23). -/
opaque saveEngines : EngineFacts → List Byte
/-- Intermediate k of the entry of another device for a destination point (log 24). -/
opaque sourceIntermediate : Nat → Nat → Nat → Nat
/-- How a tenant context is laid out for its digest (log 20). -/
opaque contextBytes : List Nat → List Byte
/-- The TAG a request travels with, from the number of its source and what the source counts it as (log 20). -/
opaque requestTag : Nat → Tag → Nat
/-- The hub router, 0 to 7, that a packet of the hub leaves by or goes to (log 20). -/
opaque hubRouter : Body → Nat
/-- Does a station still hold a translation it may have cached? (log 34) -/
opaque translationKept : Nat → Bool

end Sys2Proof.Config
end

