-- ==== Sys2Proof/Machine/Station.lean ====
section
/-! DEFINITION. Translation stations: the walk (R57 to R63), parking and repair (R64 to R66), errors in memory (R71), and what
a station does with each request (R67, R68, R126, R193). -/

namespace Sys2Proof.Machine

/-! Device memory -/

/-- The tenant of an ASID (R57). -/
def asidTenant (asid : Nat) : Nat := nbits asid 15 8

/-- Is some byte of [pa, pa + n) in a block in error (R71)? -/
def DevMem.isBad (m : DevMem) (pa n : Nat) : Bool := m.bad.any (fun b => decide (pa < 64 * (b + 1)) && decide (64 * b < pa + n))

/-- The header of the block at a physical address (R55). -/
def DevMem.header (m : DevMem) (pa : Nat) : Header := sget 0 m.hdrs (pa / 64)

def DevMem.setHeader (m : DevMem) (pa : Nat) (h : Header) : DevMem := { m with hdrs := sset 0 m.hdrs (pa / 64) h }

def DevMem.write (m : DevMem) (pa : Nat) (bs : List Byte) : DevMem := { m with bytes := writeBytes m.bytes pa bs }

/-- A whole-block write with its header: one update, which clears an error (R71, R76). -/
def DevMem.writeBlock (m : DevMem) (pa : Nat) (bs : List Byte) (h : Header) : DevMem :=
  { (m.write pa bs).setHeader pa h with bad := m.bad.filter (fun b => decide (b ≠ pa / 64)) }

/-! The walk (R59 to R61) -/

/-- What a walk answers: the physical address, the scope and the page of the leaf, or a cause. -/
inductive Walk where
  | ok (pa scope : Nat) (level : Nat) (leaf : Dword)
  | fault (cause : Nat)
deriving DecidableEq, Repr

/-- Bytes of a page of a level (R59). -/
def pageBits (level : Nat) : Nat := if level = 0 then 16 else if level = 1 then 21 else 30

/-- The index of a VA into the table of a level (R59). -/
def tableIndex (level va : Nat) : Nat :=
  match level with
  | 0 => nbits va 20 16
  | 1 => nbits va 29 21
  | 2 => nbits va 38 30
  | _ => nbits va 55 39

/-- Does a table entry's pointer [39:8] suit the table of the level below (R59), in program memory (R54)? -/
def pointerOk (level : Nat) (e : Dword) : Bool :=
  decide (field e 47 40 = 0) && !bit e 39 && (decide (level = 1) || decide (field e 11 8 = 0))

/-- The owner of a key slot: a tenant, or none; slot 0 belongs to firmware memory (R61, R69). -/
def DevMem.keyOwner (m : DevMem) (slot : Nat) : Option Nat :=
  if slot = 0 then none
  else match sget 0 m.keys slot with
    | 0 => none
    | n + 1 => some n

/-- The tests of a leaf (R61). -/
def checkLeaf (m : DevMem) (asid va : Nat) (write : Bool) (level : Nat) (e : Dword) : Walk :=
  if level = 3 ∨ field e 50 49 ≠ level ∨ field e 47 40 ≠ 0 ∨ bit e 39 = true ∨ nbits (field e 39 16 * 65536) (pageBits level - 1) 0 ≠ 0 then .fault causeProt
  else if m.keyOwner (field e 58 51) ≠ some (asidTenant asid) then .fault causeProt
  else if bit e 62 = false then .fault causeXlate
  else if write ∧ bit e 61 = false then .fault causeProt
  else .ok (field e 39 16 * 65536 + va % 2 ^ pageBits level) (field e 60 59) level e

/-- One entry of the walk: its answer, or the next table. An entry in a block in error is MEMERR (R61, R71); XLATE_UNMAPPED is
NAKed as XLATE (R64). -/
def walkEntry (m : DevMem) (asid va : Nat) (write : Bool) (table level : Nat) : Except Walk Nat :=
  let pa := table + 8 * tableIndex level va
  let e : Dword := BitVec.ofNat 64 (readLE m.bytes pa 8)
  if m.isBad pa 8 then .error (.fault causeMemerr)
  else if bit e 63 = false then .error (.fault causeXlate)
  else if bit e 48 then .error (checkLeaf m asid va write level e)
  else if level = 0 ∨ pointerOk level e = false then .error (.fault causeProt)
  else .ok (field e 39 8 * 256)

/-- The walk from a table at a level (R61). -/
def walkTable (m : DevMem) (asid va : Nat) (write : Bool) : Nat → Nat → Walk
  | 0, table => match walkEntry m asid va write table 0 with
    | .error w => w
    | .ok _ => .fault causeProt
  | n + 1, table => match walkEntry m asid va write table (n + 1) with
    | .error w => w
    | .ok t => walkTable m asid va write n t

/-- The walk of R61. -/
def DevMem.walk (m : DevMem) (asid va : Nat) (write : Bool) : Walk :=
  match sget 0 m.roots asid with
  | 0 => .fault causeProt
  | r + 1 => walkTable m asid va write 3 r

/-! Cached translations (R62) -/

def Tlb.hits (t : Tlb) (station asid va : Nat) : Bool :=
  decide (t.station = station) && decide (t.asid = asid) && decide (t.page = va / 2 ^ pageBits t.level)

/-- Cache a translation: at most 32,768 at a station, the oldest leaving (R62). -/
def DevMem.cache (m : DevMem) (t : Tlb) : DevMem :=
  let here := (m.tlb.filter (fun x => decide (x.station = t.station)) ++ [t])
  { m with tlb := m.tlb.filter (fun x => decide (x.station ≠ t.station)) ++ (if 32768 < here.length then here.tail else here) }

/-- The first access of a tenant to a frame that is not yet its own: the frame's bytes read as zeros, its headers as RAW (R70; log 71). -/
def DevMem.claim (m : DevMem) (tenant pa : Nat) : DevMem :=
  if sget 0 m.frames (pa / 65536) = tenant + 1 then m
  else { m with
    bytes := m.bytes.filter (fun e => decide (e.1 / 65536 ≠ pa / 65536))
    hdrs := m.hdrs.filter (fun e => decide (e.1 / 1024 ≠ pa / 65536))
    frames := sset 0 m.frames (pa / 65536) (tenant + 1) }

/-- What a station looks up: a cached translation, which it may or may not still hold, or a walk; a walk where `afresh` asks for one (R62;
log 34). -/
def lookup (s : State) (station asid va : Nat) (write afresh : Bool) : Walk × State :=
  match s.mem.tlb.find? (fun t => t.hits station asid va) with
  | some t =>
    if !afresh && Config.translationKept s.fresh then (checkLeaf s.mem asid va write t.level t.leaf, s.draw)
    else (s.mem.walk asid va write, s.draw)
  | none =>
    match s.mem.walk asid va write with
    | .ok pa sc level e => (.ok pa sc level e, { s with mem := s.mem.cache ⟨station, asid, level, va / 2 ^ pageBits level, e⟩ })
    | w => (w, s)

/-- Translate at a station; a frame translated is the tenant's own from then on (R62, R70). -/
def translate (s : State) (station asid va : Nat) (write afresh : Bool) : Walk × State :=
  match lookup s station asid va write afresh with
  | (.ok pa sc level e, s) => (.ok pa sc level e, { s with mem := s.mem.claim (asidTenant asid) pa })
  | r => r

/-! Parking (R64, R66) -/

/-- The core that a station parks: a core of this device. -/
def coreSrc (p : Packet) : Option Nat :=
  match p.src with
  | .core c => some c
  | _ => none

/-- Do two 64 KiB pages lie in one page of a level? -/
def samePage (level p q : Nat) : Bool := decide (p / 2 ^ (pageBits level - 16) = q / 2 ^ (pageBits level - 16))

/-- The leaf below a table that maps a page, resident or not, with its level. -/
def DevMem.leafBelow (m : DevMem) (va : Nat) : Nat → Nat → Option (Nat × Dword)
  | 0, _ => none
  | n + 1, table =>
    let e : Dword := BitVec.ofNat 64 (readLE m.bytes (table + 8 * tableIndex n va) 8)
    if bit e 63 = false then none
    else if bit e 48 then some (n, e)
    else m.leafBelow va n (field e 39 8 * 256)

/-- The leaf that maps a VA, resident or not. -/
def DevMem.leafOf (m : DevMem) (asid va : Nat) : Option (Nat × Dword) :=
  match sget 0 m.roots asid with
  | 0 => none
  | r + 1 => m.leafBelow va 4 r

/-- The level of the page of a VA; level 0 where no leaf maps it: what is not mapped parks by the page of 64 KiB (R59, R64; log 72). -/
def DevMem.pageLevel (m : DevMem) (asid va : Nat) : Nat := ((m.leafOf asid va).map Prod.fst).getD 0

/-- Is a park entry the one of an ASID's page? A page that two levels name is the larger one. -/
def Park.isFor (e : Park) (asid level page : Nat) : Bool := decide (e.asid = asid) && samePage (max level e.level) e.page page

/-- Record the requesting core for a page; the Bool is NOPARK: no entry was free (R64, R66). -/
def parkAt (s : State) (station asid level page core : Nat) : State × Bool :=
  let ps := s.mem.parks
  let mine (e : Park) : Bool := decide (e.station = station) && e.isFor asid level page
  if ps.any mine then
    ({ s with mem := { s.mem with parks := ps.map (fun e =>
      if mine e then { e with cores := if e.cores.contains core then e.cores else e.cores ++ [core] } else e) } }, false)
  else if (ps.filter (fun e => decide (e.station = station))).length < 256 then
    ({ s with mem := { s.mem with parks := ps ++ [⟨station, asid, page, level, [core]⟩] } }, false)
  else (s, true)

/-- The NAK of a fault at a station: XLATE parks the requesting core (R64). -/
def faultAt (s : State) (p : Packet) (station : Nat) (cause : Nat) (va : Dword) : State × Body :=
  if cause = causeXlate then
    match coreSrc p with
    | some c =>
      let r := parkAt s station p.asid (s.mem.pageLevel p.asid (nbits va.toNat 55 0)) (nbits va.toNat 55 16) c
      (r.1, .nak causeXlate r.2 va)
    | none => (s, .nak causeXlate false va)
  else (s, .nak cause false va)

/-! Requests -/

/-- The answer to a packet. -/
def answer (p : Packet) (tag : Tag) (b : Body) : Packet :=
  { src := p.dst, dst := p.src, vc := if isForeign p.src then .hub else .rsp, tenant := p.tenant, asid := p.asid, gang := p.gang, slot := p.slot, tag := tag,
    body := b }

/-- The parts of [va, va + n) in one page each: offset and length (R63). -/
def pageParts (va : Dword) (n : Nat) : List (Nat × Nat) :=
  let k := 65536 - va.toNat % 65536
  if n ≤ k then [(0, n)] else [(0, k), (k, n - k)]

/-- A translated range: offset in the access, length, physical address, scope and 64 KiB page, and the leaf used, with its level. -/
structure Mapped where
  off : Nat
  len : Nat
  pa : Nat
  scope : Nat
  page : Nat
  level : Nat
  leaf : Dword
deriving DecidableEq, Repr

/-- How an access is translated: its ASID and address, whether it writes, whether it rewrites whole blocks with their headers, or sees to
blocks in error itself (R71), and the station of each VA. -/
structure Access where
  asid : Nat
  va : Dword
  write : Bool
  whole : Bool
  station : Nat → Nat

/-- Translate every part of a range before any of it is applied; the lower faulting page's fault is the range's (R63). A block
in error faults a read, and a write that does not rewrite it whole (R71). -/
def mapParts (q : Access) (afresh : Bool) : List (Nat × Nat) → State → List Mapped → State × Except (Nat × Dword) (List Mapped)
  | [], s, acc => (s, .ok acc)
  | p :: l, s, acc =>
    let a := q.va + BitVec.ofNat 64 p.1
    let x := nbits a.toNat 55 0
    match translate s (q.station x) q.asid x q.write afresh with
    | (.fault cause, s) => (s, .error (cause, a))
    | (.ok pa sc level leaf, s) =>
      if !q.whole && s.mem.isBad pa p.2 then (s, .error (causeMemerr, a))
      else mapParts q afresh l s (acc ++ [⟨p.1, p.2, pa, sc, x / 65536, level, leaf⟩])

/-- Do two translations of one access mix an old entry and a new one: does the page of one's leaf hold the other, which has used another leaf
(R62)? -/
def Mapped.mixes (m n : Mapped) : Bool := samePage m.level m.page n.page && decide ((m.level, m.leaf) ≠ (n.level, n.leaf))

/-- Translate an access: cached translations or walks, and walks alone where those would mix (R62). -/
def mapAccess (s : State) (q : Access) (l : List (Nat × Nat)) : State × Except (Nat × Dword) (List Mapped) :=
  match mapParts q false l s [] with
  | (s', .ok ms) => if ms.any (fun m => ms.any m.mixes) then mapParts q true l { s with fresh := s'.fresh } [] else (s', .ok ms)
  | r => r

/-- Translate a range at one station. -/
def mapRange (s : State) (station asid : Nat) (va : Dword) (write whole : Bool) (l : List (Nat × Nat)) : State × Except (Nat × Dword) (List Mapped) :=
  mapAccess s ⟨asid, va, write, whole, fun _ => station⟩ l

def Mapped.scopes (l : List Mapped) : List (Nat × Nat) := l.map (fun m => (m.page, m.scope))

/-- One element at a station (R193, R197): applied, or the cause of its NAK, which parks its core when it leaves (R64). -/
def stationElement (s : State) (p : Packet) (station : Nat) (e : Element) : State × ElemResult :=
  match mapRange s station p.asid e.addr true false [(0, e.width)] with
  | (s, .error (cause, va)) => (s, .naked cause false va)
  | (s, .ok ms) =>
    let pa := (ms.head?.map Mapped.pa).getD 0
    let old := readLE s.mem.bytes pa e.width
    ({ s with mem := s.mem.write pa (leBytes e.width (elemResult e.op e.width old e.value.toNat)) },
     .applied 0 ((ms.head?.map Mapped.page).getD 0) ((ms.head?.map Mapped.scope).getD 0))

/-- Bytes of a mapped access. -/
def readMapped (m : DevMem) (l : List Mapped) : List Byte := l.flatMap (fun x => readBytes m.bytes x.pa x.len)

/-- Write a mapped access, part by part in ascending order. -/
def writeMapped (m : DevMem) (l : List Mapped) (bs : List Byte) : DevMem :=
  l.foldl (fun m x => m.write x.pa ((bs.drop x.off).take x.len)) m

/-- A read at a station. -/
def stationLoad (s : State) (p : Packet) (n : Nat) (addr : Dword) (len : Nat) : State × Body :=
  match mapRange s n p.asid addr false false (pageParts addr len) with
  | (s, .error (cause, va)) => faultAt s p n cause va
  | (s, .ok ms) => (s, .reply (readMapped s.mem ms) (s.mem.header ((ms.head?.map Mapped.pa).getD 0)))

/-- A returning atomic at a station (R197, R199). -/
def stationAmo (s : State) (p : Packet) (n : Nat) (addr : Dword) (w : Nat) (op : AmoOp) (b c : Dword) : State × Body :=
  match mapRange s n p.asid addr true false [(0, w)] with
  | (s, .error (cause, va)) => faultAt s p n cause va
  | (s, .ok ms) =>
    let pa := (ms.head?.map Mapped.pa).getD 0
    let old := readLE s.mem.bytes pa w
    ({ s with mem := s.mem.write pa (leBytes w (amoResult op w old b.toNat c.toNat)) }, .reply (leBytes w old) 0)

/-- A header access at a station (R139): the header of the block, read, or written alone. -/
def stationHdr (s : State) (p : Packet) (n : Nat) (addr : Dword) (h : Option Header) : State × Body :=
  match mapRange s n p.asid addr h.isSome false [(0, 64)] with
  | (s, .error (cause, va)) => faultAt s p n cause va
  | (s, .ok ms) =>
    let pa := (ms.head?.map Mapped.pa).getD 0
    match h with
    | none => (s, .reply [] (s.mem.header pa))
    | some h => ({ s with mem := s.mem.setHeader pa h }, .ack (Mapped.scopes ms))

/-- Is the write a whole block with its header (R71, R76)? -/
def wholeBlock (e : HdrEffect) (bytes : List Byte) : Bool :=
  match e with
  | .set _ => decide (bytes.length = 64)
  | _ => false

/-- A block write at a station. -/
def stationBlock (s : State) (p : Packet) (n : Nat) (addr : Dword) (bs : List Byte) (e : HdrEffect) : State × Body :=
  match mapRange s n p.asid addr true (wholeBlock e bs) (pageParts addr bs.length) with
  | (s, .error (cause, va)) => faultAt s p n cause va
  | (s, .ok ms) =>
    let pa := (ms.head?.map Mapped.pa).getD 0
    let m := match e with
      | .set h => s.mem.writeBlock pa bs h
      | .raw => (writeMapped s.mem ms bs).setHeader pa 0
      | .keep => writeMapped s.mem ms bs
    ({ s with mem := m }, .ack (Mapped.scopes ms))

/-! Accesses that are applied block by block (R63, R156) -/

/-- The 64-byte blocks of [va, va + n), each with its physical address and its share of the bytes to write. -/
def blocksOf (va : Dword) (n : Nat) (ms : List Mapped) (bs : List Byte) : List BlockPart :=
  (blockParts va n).map (fun b =>
    let off := (b.1 - va).toNat
    let pa := ((ms.find? (fun m => decide (m.off ≤ off) && decide (off < m.off + m.len))).map (fun m => m.pa + (off - m.off))).getD 0
    ⟨pa, b.1, b.2, (bs.drop off).take b.2⟩)

/-- The answer to such an access after its last block: MEMERR of the first block in error (R71). -/
def partwayAnswer (write : Bool) (data : List Byte) (scopes : List (Nat × Nat)) (bad : Option Dword) : Body :=
  match bad with
  | some va => .nak causeMemerr false va
  | none => if write then .ack scopes else .reply data 0

/-- The next block of such an access; with the last it is answered, until then it stands where it is. -/
def takeBlock (s : State) (p : Packet) (write : Bool) (todo : List BlockPart) (data : List Byte) (scopes : List (Nat × Nat)) (bad : Option Dword) :
    State × Option Body :=
  match todo with
  | [] => (s.send (answer p p.tag (partwayAnswer write data scopes bad)), none)
  | x :: rest =>
    let err := s.mem.isBad x.pa x.len
    let data := if write || err then data else data ++ readBytes s.mem.bytes x.pa x.len
    let s : State := if write && !err then { s with mem := s.mem.write x.pa x.bytes } else s
    let bad := if err then some (bad.getD x.va) else bad
    if rest = [] then (s.send (answer p p.tag (partwayAnswer write data scopes bad)), none) else (s, some (.partway write rest data scopes bad))

/-- An access to two pages of one station: both are translated before any block is applied (R63). -/
def startPartway (s : State) (n : Nat) (p : Packet) (write : Bool) (va : Dword) (len : Nat) (bs : List Byte) : State × Option Body :=
  match mapRange s n p.asid va write true (pageParts va len) with
  | (s, .error (cause, a)) => let r := faultAt s p n cause a; (r.1.send (answer p p.tag r.2), none)
  | (s, .ok ms) => (s, some (.partway write (blocksOf va len ms bs) [] (Mapped.scopes ms) none))

/-- The step of such an access at its station: the body it stands with, none once it is answered; no step for another packet. -/
def stationPartway (s : State) (n : Nat) (p : Packet) : Body → Option (State × Option Body)
  | .partway w todo data scopes bad => some (takeBlock s p w todo data scopes bad)
  | .load a len _ => if spans a len then some (startPartway s n p false a len []) else none
  | .block a bs .keep _ _ => if spans a bs.length then some (startPartway s n p true a bs.length bs) else none
  | _ => none

/-! The held parts of R63 -/

/-- Are two parts of R63 the lower and the upper one of one access? -/
def pairOfParts (p q : Packet) : Bool :=
  decide (p.src = q.src) && (match p.tag, q.tag with
    | .request u 0, .request v 1 => decide (u = v)
    | .retained u _, .retained v _ => decide (v = u + 1)
    | _, _ => false)
    && (match p.body, q.body with
      | .heldLoad a n, .heldLoad b _ => decide (a + BitVec.ofNat 64 n = b)
      | .heldWrite a bs, .heldWrite b _ => decide (a + BitVec.ofNat 64 bs.length = b)
      | _, _ => false)

/-- The other part of the access of a part, held at its station. -/
def DevMem.otherPart (m : DevMem) (p : Packet) : Option HeldPart := m.heldParts.find? (fun h => pairOfParts p h.packet || pairOfParts h.packet p)

/-- The VA of a held part. -/
def HeldPart.va (h : HeldPart) : Dword :=
  match h.packet.body with
  | .heldLoad a _ | .heldWrite a _ => a
  | _ => 0

/-- What a held part was translated to. -/
def HeldPart.mapped (h : HeldPart) : Mapped := ⟨0, 0, h.pa, ((h.scopes.head?).map Prod.snd).getD 0, nbits h.va.toNat 55 16, h.level, h.leaf⟩

/-- A part that its station has translated. -/
def holdPart (n : Nat) (p : Packet) (m : Mapped) : HeldPart := ⟨n, p, m.pa, [(m.page, m.scope)], m.level, m.leaf⟩

/-- A part of R63: translated and held, nothing applied. Where its translation and that of the other part, held already, would mix an old
entry and a new one, both walk afresh (R62). -/
def stationHold (s : State) (p : Packet) (n : Nat) (addr : Dword) (len : Nat) (write : Bool) : State × Body :=
  let hold (s : State) (l : List HeldPart) (m : Mapped) : State × Body := ({ s with mem := { s.mem with heldParts := l ++ [holdPart n p m] } }, .held)
  let q : Access := ⟨p.asid, addr, write, true, fun _ => n⟩
  match mapParts q false [(0, len)] s [] with
  | (s', .ok [m]) =>
    (match s.mem.otherPart p with
     | none => hold s' s'.mem.heldParts m
     | some h =>
       if m.mixes h.mapped || h.mapped.mixes m then
         (match mapParts q true [(0, len)] { s with fresh := s'.fresh } [] with
          | (s, .ok [m]) =>
            (match mapParts { q with va := h.va, station := fun _ => h.station } true [(0, len)] s [] with
             | (s, .ok [x]) => hold s (s.mem.heldParts.map (fun y => if y = h then holdPart h.station h.packet x else y)) m
             | (s, .error e) => faultAt s p n e.1 e.2
             | (s, _) => (s, .held))
          | (s, .error e) => faultAt s p n e.1 e.2
          | (s, _) => (s, .held))
       else hold s' s'.mem.heldParts m)
  | (s, .error e) => faultAt s p n e.1 e.2
  | (s, _) => (s, .held)

/-- The held part that a release names (R63). -/
def DevMem.heldPart (m : DevMem) (n : Nat) (src : Node) (tag : Tag) : Option HeldPart :=
  m.heldParts.find? (fun h => decide (h.station = n) && decide (h.packet.src = src) && decide (h.packet.tag = tag))

/-- A release: the held part goes on block by block, before what its core has sent after it, or is let go (R63, R156). -/
def stationRelease (s : State) (p : Packet) (n : Nat) (apply : Bool) : State :=
  match s.mem.heldPart n p.src p.tag with
  | none => s
  | some h =>
    let s := { s with mem := { s.mem with heldParts := s.mem.heldParts.filter (fun x => decide (x ≠ h)) } }
    if apply = false then s
    else
      let go (w : Bool) (a : Dword) (n : Nat) (bs : List Byte) : Body := .partway w (blocksOf a n [{ h.mapped with len := n }] bs) [] h.scopes none
      let stand (b : Body) : State := { s with net := { h.packet with body := b } :: s.net }
      match h.packet.body with
      | .heldLoad a len => stand (go false a len [])
      | .heldWrite a bs => stand (go true a bs.length bs)
      | _ => s

/-- Answer a packet with one body. -/
def reply1 (p : Packet) (r : State × Body) : State := r.1.send (answer p p.tag r.2)

/-- A station serves a request. -/
def serveStation (s : State) (p : Packet) (n : Nat) : State :=
  match p.body with
  | .load a len _ => reply1 p (stationLoad s p n a len)
  | .heldLoad a len => reply1 p (stationHold s p n a len false)
  | .heldWrite a bs => reply1 p (stationHold s p n a bs.length true)
  | .release ap => stationRelease s p n ap
  | .amo a w op b c => reply1 p (stationAmo s p n a w op b c)
  | .hdrRead a => reply1 p (stationHdr s p n a none)
  | .hdrWrite a h => reply1 p (stationHdr s p n a (some h))
  | .block a bs e _ _ => reply1 p (stationBlock s p n a bs e)
  | _ => s

/-! The memory manager (R62, R64, R65, R71) -/

/-- Do two pages, each with its level, share a byte? -/
def pagesMeet (p q : PageRef) : Bool := samePage (max p.level q.level) p.page q.page

/-- Drop the cached translations of a page, or of an ASID (R62). -/
def DevMem.drop (m : DevMem) (asid : Nat) (page : Option PageRef) : DevMem :=
  { m with tlb := m.tlb.filter (fun t => !(decide (t.asid = asid) && page.all (fun p => pagesMeet p ⟨t.page * 2 ^ (pageBits t.level - 16), t.level⟩))) }

/-- A repair message to a core's supervisor slot (R65). -/
def repairPacket (station asid page core : Nat) : Packet :=
  { src := .station station, dst := .core core, vc := .rsp, tenant := asidTenant asid, asid := asid, gang := 0, slot := 4, tag := .none,
    body := .repair asid page }

/-- A step of the memory manager's: none while its image is absent (R65, R330). -/
def managed (s : State) (go : State) : Host.Outcome State Fault Refusal := .next (if s.fw.absent 2 then s else go)

/-- Who is told of a release: each station with each core that its entries record, once. -/
def parkedAt (parks : List Park) : List (Nat × Nat) :=
  (parks.flatMap (fun e => e.cores.map (fun c => (e.station, c)))).eraseDups

/-- A repaired page is released: the cached translation goes, the page's park entries with it, and each core recorded is told. -/
def releasePage (s : State) (asid page : Nat) : State :=
  let level := s.mem.pageLevel asid (page * 65536)
  let parks := s.mem.parks.filter (fun e => e.isFor asid level page)
  let m := s.mem.drop asid (some ⟨page, level⟩)
  let denied := m.denied.filter (fun e => !(decide (e.1 = asid) && samePage level e.2 page))
  let s := { s with mem := { m with parks := m.parks.filter (fun e => !e.isFor asid level page), denied := denied } }
  (parkedAt parks).foldl (fun s e => s.send (repairPacket e.1 asid page e.2)) s

/-- PAGE_RELEASE (R65). -/
def execPageRelease (asid page : Nat) (s : State) : Host.Outcome State Fault Refusal := managed s (releasePage s asid page)

/-- Does the 64 KiB page of a scope lie in the page of an invalidation, or is a whole ASID invalidated? -/
def underPage (page : Option PageRef) (q : Nat) : Bool := page.all (fun p => samePage p.level q p.page)

/-- An invalidation of a page or an ASID, at the stations and in the scope tables of the tenant's cores. -/
def invalidate (s : State) (asid : Nat) (page : Option PageRef) : State :=
  let clear (k : Core) : Core := { k with ni := { k.ni with scope := k.ni.scope.filter (fun e => !(decide (e.1 = asid) && underPage page e.2.1)) } }
  let s := { s with mem := s.mem.drop asid page }
  (s.cores.map Prod.fst).foldl (fun s c => if (s.core c).tenant = asidTenant asid then s.modCore c clear else s) s

/-- Does a held part, translated and not yet acknowledged, lie in the page or the ASID of an invalidation (R62, R63)? -/
def DevMem.holdsUnder (m : DevMem) (asid : Nat) (page : Option PageRef) : Bool :=
  m.heldParts.any (fun h => decide (h.packet.asid = asid) && h.scopes.any (fun x => underPage page x.1))

/-- Is an acknowledgement under the page or the ASID on its way, which would teach its core the scope, or is a packet part-way through its
station, translated there (R62, R194; log 34)? -/
def State.ackUnder (s : State) (asid : Nat) (page : Option PageRef) : Bool :=
  s.net.any (fun p => decide (p.asid = asid) && (match p.body with
    | .ack scopes | .partway _ _ _ scopes _ => scopes.any (fun x => underPage page x.1)
    | .applying _ _ done => done.any (fun r => match r with
      | .applied _ q _ => underPage page q
      | .naked _ _ _ => false)
    | _ => false))

/-- Does a block of a host access, translated and not yet read or written, lie there (R62, R326)? -/
def State.hostUnder (s : State) (asid : Nat) (page : Option PageRef) : Bool :=
  s.fab.sessions.any (fun x => x.waiting.any (fun a => decide (a.window.asid = asid)
    && a.todo.any (fun l => l.any (fun b => underPage page (b.va / 65536)))))

/-- INVALIDATION (R62, R194): it completes, in one step, once no request translated under the entry is still to be
acknowledged and no acknowledgement of one is on its way. -/
def execInvalidation (asid : Nat) (page : Option PageRef) (s : State) : Host.Outcome State Fault Refusal :=
  managed s (if s.mem.holdsUnder asid page || s.ackUnder asid page || s.hostUnder asid page then s else invalidate s asid page)

/-- A corrected error of a block or of its sideband row is reported to the error handler (R71, R286; log 47). -/
def correctedError (s : State) (pa : Nat) : State := if 2 ^ 39 ≤ pa then s else { s with hub := s.hub.note ⟨0, 7, 0, none⟩ }

/-- UNCORRECTABLE_ERROR: a block of program memory, or its sideband row, goes into error (R71). -/
def execUncorrectableError (pa : Nat) (s : State) : Host.Outcome State Fault Refusal :=
  .next (if 2 ^ 39 ≤ pa ∨ s.mem.bad.contains (pa / 64) then s else { s with mem := { s.mem with bad := (pa / 64) :: s.mem.bad } })

end Sys2Proof.Machine
end

