-- ==== Sys2Proof/Machine/Arrivals.lean ====
section
/-! DEFINITION. Packets that arrive: what a core admits (R113, R120, R126, R127, R292) and applies (R114, R195, R196, R215), and
what the issuing core does with the answers (R136, R137, R194, R199, R205 to R207, R216, R285). -/

namespace Sys2Proof.Machine

/-! Arrival -/

/-- Does a part held at a station for the same core hold back a later packet of that core (R63)? -/
def heldBack (s : State) (p : Packet) : Bool :=
  match p.dst, p.body with
  | .station _, .release _ => false
  | .station n, _ => s.mem.heldParts.any (fun h => decide (h.station = n) && decide (h.packet.src = p.src))
  | _, _ => false

/-- Does a packet leave the part (R319)? The mesh hands it to a port, in the HUB step. -/
def outbound (p : Packet) : Bool :=
  match p.dst with
  | .foreign _ _ => true
  | _ => false

/-- Is the packet the release of a held part (R63)? -/
def isRelease (p : Packet) : Bool :=
  match p.body with
  | .release _ => true
  | _ => false

/-- Is a packet sent earlier over the same way still under way? A release passes what waits behind the part it releases (R63, R193,
R308). -/
def State.behind (s : State) (k : Nat) (p : Packet) : Bool :=
  (s.net.take k).any (fun q => decide (q.src = p.src) && decide (q.dst = p.dst) && decide (q.vc = p.vc) && (isRelease q || !isRelease p))

/-- Packet k arrives in the part: it has crossed, and nothing goes before it (R18, R193, R308). -/
def State.arrival (s : State) (k : Nat) : Option (Packet × State) :=
  match s.net[k]? with
  | none => none
  | some p =>
    if s.behind k p || !s.crossed p || heldBack s p || outbound p then none
    else some (p, { s with net := s.net.eraseIdx k })

/-- The step of a packet of one kind: it arrives and is taken, or the step does nothing. -/
def onArrival (s : State) (k : Nat) (kind : Body → Bool) (take : Packet → State → State) : Host.Outcome State Fault Refusal :=
  .next (match s.arrival k with
    | some (p, s') => if kind p.body then take p s' else s
    | none => s)

/-! Admission (R126, R127) -/

/-- The rights of an access. -/
structure Rights where
  read : Bool
  write : Bool
  reduce : Bool
  send : Bool
  header : Bool
deriving DecidableEq, Repr

/-- Does a window hold every right? -/
def hasRights (w : Dword) (r : Rights) : Bool :=
  (!r.read || bit w 45) && (!r.write || bit w 46) && (!r.reduce || bit w 47) && (!r.send || bit w 48) && (!r.header || bit w 49)

/-- Is the source a core of this core's own gang (R127)? -/
def ownGang (k : Core) (p : Packet) : Bool :=
  (coreSrc p).isSome && decide (k.gang = some p.gang) && decide (p.tenant = k.tenant)

/-- Does the source match SRC of a window (R124, R127)? -/
def srcMatches (k : Core) (p : Packet) (src : Nat) : Bool :=
  let hub := decide (p.src = .hub)
  match src with
  | 0 => ownGang k p
  | 1 => !hub && decide (p.tenant = k.tenant)
  | 2 => hub
  | _ => false

/-- Does some window admit [off, off + n)? -/
def windowAdmits (k : Core) (p : Packet) (off n : Nat) (r : Rights) : Bool :=
  k.windows.toList.any (fun w => bit w 63 && srcMatches k p (field w 51 50) && decide (field w 19 0 ≤ off) && decide (off + n ≤ field w 39 20) && hasRights w r)

/-- The fixed limits of R126: reads from the local store and the accumulator, a door for a send, the local store for the
rest. -/
def fixedLimit (off n : Nat) (r : Rights) : Bool :=
  if r.send then decide (0xC0000 ≤ off) && decide (off + 16 ≤ 0xC0400) && aligned off 16
  else if off < 0x100 then false
  else if off + n ≤ 0x60000 then true
  else r.read && !r.write && !r.reduce && decide (0x80000 ≤ off) && decide (off + n ≤ 0x90000)

/-- Is a core sealed, its save under way, or its contents not yet restored (R292)? -/
def PreState.isSealed (x : PreState) : Bool := decide (x = .sealed) || decide (x = .saved)

/-- Is an arriving access admitted (R120, R126, R127, R292)? -/
def admitted (k : Core) (p : Packet) (off n : Nat) (r : Rights) : Bool :=
  k.gang.isSome && !(k.ctl.pre.isSealed && !ownGang k p)
    && (if off + n ≤ 0x100 then ownGang k p && decide (r = ⟨true, false, false, false, false⟩)
        else fixedLimit off n r && windowAdmits k p off n r)

/-- Does a DEST lock refuse a remote write of these bytes (R113)? Engines are not checked. -/
def lockRefuses (k : Core) (off n : Nat) : Bool := (List.range n).any (fun j => k.lockHits false (off + j))

/-- A write, reduction, atomic or header write is admitted: the windows, then the locks (R127). -/
def admitsWrite (k : Core) (p : Packet) (off n : Nat) (r : Rights) : Bool := admitted k p off n r && !lockRefuses k off n

/-- The offset an address names at the core where it arrives (R49). -/
def offsetOf (a : Dword) : Nat := field a 19 0

/-! A core serves a request -/

/-- The rights of an element. -/
def elementRights (op : ElemOp) : Rights := if op = .store then ⟨false, true, false, false, false⟩ else ⟨false, false, true, false, false⟩

/-- One element at a core (R193, R195): admitted and applied, with the bytes it credits, or refused. -/
def coreElement (k : Core) (p : Packet) (e : Element) : Core × ElemResult :=
  let off := offsetOf e.addr
  if admitsWrite k p off e.width (elementRights e.op) then
    let old := readLE k.ls off e.width
    (k.writeLs off (leBytes e.width (elemResult e.op e.width old e.value.toNat)), .applied (e.width * e.mult) 0 0)
  else (k, .naked causeRefused false e.addr)

/-- One element where it arrives: it has an instant of its own (R142, R346). -/
def serveElement (s : State) (p : Packet) (e : Element) : State × ElemResult :=
  match p.dst with
  | .core c => let r := coreElement (s.core c) p e; (s.setCore c r.1, r.2)
  | .station n => stationElement s p n e
  | _ => (s, .naked causeRoute false e.addr)

def ElemResult.isApplied : ElemResult → Bool
  | .applied _ _ _ => true
  | .naked _ _ _ => false

/-- The bytes that the elements of a packet credit. -/
def creditedBytes (rs : List ElemResult) : Nat :=
  (rs.map (fun r => match r with
    | .applied n _ _ => n
    | .naked _ _ _ => 0)).foldl (· + ·) 0

/-- The places of a retained tag that a test picks, by position in the packet. -/
def pickTag (t : Tag) (js : List Nat) : Tag :=
  match t with
  | .retained uid idx => .retained uid (js.filterMap (fun j => idx[j]?))
  | t => t

/-- The answers to a packet of elements: one for those applied, with their scopes or the overflow of their channel, and one NAK for each
cause (R205, R213, R310). -/
def elementAnswers (p : Packet) (rs : List ElemResult) (overflows : Bool) : List Packet :=
  let places (f : ElemResult → Bool) : List Nat := (List.range rs.length).filter (fun j => (rs[j]?).any f)
  let scopes := rs.filterMap (fun r => match r with
    | .applied _ page scope => if isStationNode p.dst then some (page, scope) else none
    | .naked _ _ _ => none)
  let causes := (rs.filterMap (fun r => match r with
    | .naked c np _ => some (c, np)
    | .applied _ _ _ => none)).eraseDups
  let is (x : Nat × Bool) (r : ElemResult) : Bool := match r with
    | .naked c np _ => decide ((c, np) = x)
    | .applied _ _ _ => false
  let va (x : Nat × Bool) : Dword := (rs.findSome? (fun r => match r with
    | .naked c np va => if (c, np) = x then some va else none
    | .applied _ _ _ => none)).getD 0
  (if rs.any ElemResult.isApplied then [answer p (pickTag p.tag (places ElemResult.isApplied)) (if overflows then .nak causeChovf false 0 else .ack scopes)] else [])
    ++ causes.map (fun x => answer p (pickTag p.tag (places (is x))) (.nak x.1 x.2 (va x)))

/-- The elements of a packet that a station has NAKed XLATE: with their NAK it records the core for each page (R64, R66). -/
def parkElements (s : State) (p : Packet) (n : Nat) : List ElemResult → State × List ElemResult
  | [] => (s, [])
  | .naked cause _ va :: l =>
    let x := faultAt s p n cause va
    let r := parkElements x.1 p n l
    (r.1, (match x.2 with
      | .nak c np a => .naked c np a
      | _ => .naked cause false va) :: r.2)
  | x :: l =>
    let r := parkElements s p n l
    (r.1, x :: r.2)

/-- Every element of a packet has had its instant: in a step of its own the credit of all of them follows, and the answers leave (R195, R205,
R213, R348). -/
def endElements (s : State) (p : Packet) (cdc : Nat) (rs : List ElemResult) : State :=
  match p.dst with
  | .station n => let r := parkElements s p n rs; (elementAnswers p r.2 false).foldl State.send r.1
  | .core c =>
    if bit (BitVec.ofNat 7 cdc) 6 && (s.core c).isCount (cdc % 64) then
      (match (s.core c).credit (cdc % 64) (creditedBytes rs) with
       | some k => (elementAnswers p rs false).foldl State.send (s.setCore c k)
       | none => (elementAnswers p rs true).foldl State.send s)
    else (elementAnswers p rs false).foldl State.send s
  | _ => (elementAnswers p rs false).foldl State.send s

/-- Is a packet refused whole, its channel being no declared COUNT channel (R196)? -/
def refusesPacket (s : State) (p : Packet) (cdc : Nat) : Bool :=
  match p.dst with
  | .core c => bit (BitVec.ofNat 7 cdc) 6 && !(s.core c).isCount (cdc % 64)
  | _ => false

/-- The elements of a packet still to be applied, its CDC, and what became of the others. -/
def elementsOf : Body → Option (List Element × Nat × List ElemResult)
  | .elements es cdc => some (es, cdc, [])
  | .applying es cdc done => some (es, cdc, done)
  | _ => none

/-- Packet k, which has arrived, stands where it is with a new body: it is part-way through, and what its source sent after it waits (R193,
R346). -/
def standAt (s : State) (k : Nat) (p : Packet) (b : Body) : State := { s with net := s.net.insertIdx k { p with body := b } }

/-- The next element of packet k, which has arrived; after the last one the packet is credited and answered. -/
def takeElement (s : State) (k : Nat) (p : Packet) (es : List Element) (cdc : Nat) (done : List ElemResult) : State :=
  match es with
  | [] => endElements s p cdc done
  | e :: rest => let r := serveElement s p e; standAt r.1 k p (.applying rest cdc (done ++ [r.2]))

/-- Answer with one body. -/
def answer1 (s : State) (p : Packet) (b : Body) : State := s.send (answer p p.tag b)

/-- A load at a core (R113, R126). -/
def serveLoad (s : State) (c : Nat) (p : Packet) (a : Dword) (n : Nat) : State :=
  let k := s.core c
  let off := offsetOf a
  if admitted k p off n ⟨true, false, false, false, false⟩ then answer1 s p (.reply (k.ownBytes off n) (k.header off))
  else answer1 s p (.nak causeRefused false a)

/-- A returning atomic at a core (R197). -/
def serveAmo (s : State) (c : Nat) (p : Packet) (a : Dword) (w : Nat) (op : AmoOp) (b x : Dword) : State :=
  let k := s.core c
  let off := offsetOf a
  if admitsWrite k p off w ⟨true, false, true, false, false⟩ && decide (off + w ≤ 0x60000) then
    let old := readLE k.ls off w
    answer1 (s.setCore c (k.writeLs off (leBytes w (amoResult op w old b.toNat x.toNat)))) p (.reply (leBytes w old) 0)
  else answer1 s p (.nak causeRefused false a)

/-- A header access at a core: it counts as an access to all 64 bytes of its block (R126, R139). -/
def serveHdr (s : State) (c : Nat) (p : Packet) (a : Dword) (h : Option Header) : State :=
  let k := s.core c
  let off := offsetOf a / 64 * 64
  match h with
  | none => if admitted k p off 64 ⟨true, false, false, false, true⟩ then answer1 s p (.reply [] (k.header off)) else answer1 s p (.nak causeRefused false a)
  | some h => if admitsWrite k p off 64 ⟨false, true, false, false, true⟩ then answer1 (s.setCore c (k.setLsHdr off h)) p (.ack []) else answer1 s p (.nak causeRefused false a)

/-- The rights of a block write (R126). -/
def blockRights (e : HdrEffect) : Rights :=
  match e with
  | .set _ => ⟨false, true, false, false, true⟩
  | _ => ⟨false, true, false, false, false⟩

/-- A block write at a core: its bytes, and where it credits a channel the credit in a step of its own (R114, R195, R196, R348). -/
def serveBlock (s : State) (n c : Nat) (p : Packet) (a : Dword) (bs : List Byte) (e : HdrEffect) (w : Writer) (ch : Option Nat) : State :=
  let k := s.core c
  let off := offsetOf a
  let ok := if w = .engine then admitted k p off bs.length (blockRights e) else admitsWrite k p off bs.length (blockRights e)
  if ch.any (fun x => !k.isCount x) || !ok then answer1 s p (.nak causeRefused false a)
  else
    let s := s.setCore c (k.writeBlock off bs e)
    match ch with
    | none => answer1 s p (.ack [])
    | some x => standAt s n p (.crediting bs.length x)

/-- The credit of a block write, and its answer (R195, R213). -/
def creditBlock (s : State) (c : Nat) (p : Packet) (bytes ch : Nat) : State :=
  let k := s.core c
  if k.isCount ch = false then answer1 s p (.ack [])
  else match k.credit ch bytes with
    | some k => answer1 (s.setCore c k) p (.ack [])
    | none => answer1 s p (.nak causeChovf false 0)

/-- The sender field of a packet's message (R24). -/
def senderField (s : State) (k : Core) (p : Packet) : BitVec 16 :=
  match p.src with
  | .core c => senderOf k c (s.core c) false
  | .foreign _ c => senderOf k c Core.reset true
  | _ => senderHub

/-- A SEND or SENDC at a core: the windows, then the channel and its room (R213, R215). -/
def serveSend (s : State) (c : Nat) (p : Packet) (a : Dword) (count : Bool) (v : Dword) : State :=
  let k := s.core c
  let off := offsetOf a
  let ch := (off - 0xC0000) / 16
  if admitted k p off 16 ⟨false, false, false, true, false⟩ = false then answer1 s p (.nak causeRefused false a)
  else if (if count then k.isCount ch else k.isMsg ch) = false then answer1 s p (.nak causeRefused false a)
  else if count then
    match k.credit ch (field v 47 0) with
    | some k1 => answer1 (s.setCore c k1) p (.ack [])
    | none => answer1 s p (.nak causeChovf false a)
  else if (k.chan ch).full then answer1 s p (.nak causeChovf false a)
  else answer1 (s.setCore c (k.push ch (v, senderField s k p))) p (.ack [])

/-- A core serves a request. -/
def serveCore (s : State) (c : Nat) (p : Packet) : State :=
  match p.body with
  | .load a n _ => serveLoad s c p a n
  | .amo a w op b x => serveAmo s c p a w op b x
  | .hdrRead a => serveHdr s c p a none
  | .hdrWrite a h => serveHdr s c p a (some h)
  | .send a cnt v => serveSend s c p a cnt v
  | _ => s

/-- Take a request where it arrives. -/
def serve (p : Packet) (s : State) : State :=
  match p.dst with
  | .core c => serveCore s c p
  | .station n => serveStation s p n
  | _ => s

/-! The requests -/

def execElements (k : Nat) (s : State) : Host.Outcome State Fault Refusal :=
  .next (match s.arrival k with
    | some (p, s') => match elementsOf p.body with
      | some (es, cdc, done) => if done = [] ∧ refusesPacket s p cdc = true then answer1 s' p (.nak causeRefused false (Body.addr p.body)) else takeElement s' k p es cdc done
      | none => s
    | none => s)

/-- A packet that a station may take block by block: it stands where it is until its last block (R156). -/
def serveBlocks (k : Nat) (p : Packet) (s : State) : State :=
  match p.dst, p.body with
  | .core c, .block a bs e w ch => serveBlock s k c p a bs e w ch
  | .core c, .crediting n ch => creditBlock s c p n ch
  | .station n, b => (match stationPartway s n p b with
    | some (s, some b) => standAt s k p b
    | some (s, none) => s
    | none => serve p s)
  | _, _ => serve p s

/-- LOAD. -/
def execLoad (k : Nat) (s : State) : Host.Outcome State Fault Refusal :=
  onArrival s k (fun b => match b with
    | .load _ _ _ | .heldLoad _ _ | .release _ | .partway false _ _ _ _ => true
    | _ => false) (serveBlocks k)

def execAmo (k : Nat) (s : State) : Host.Outcome State Fault Refusal :=
  onArrival s k (fun b => match b with
    | .amo _ _ _ _ _ => true
    | _ => false) serve

def execHdr (k : Nat) (s : State) : Host.Outcome State Fault Refusal :=
  onArrival s k (fun b => match b with
    | .hdrRead _ | .hdrWrite _ _ => true
    | _ => false) serve

/-- BLOCK. -/
def execBlock (k : Nat) (s : State) : Host.Outcome State Fault Refusal :=
  onArrival s k (fun b => match b with
    | .block _ _ _ _ _ | .heldWrite _ _ | .crediting _ _ | .partway true _ _ _ _ => true
    | _ => false) (serveBlocks k)

def execSendPacket (k : Nat) (s : State) : Host.Outcome State Fault Refusal :=
  onArrival s k (fun b => match b with
    | .send _ _ _ => true
    | _ => false) serve

/-! Slots that wait for an answer (R137, R199, R283) -/

/-- Does a user slot still run the activation that issued an access? -/
def Core.runs (k : Core) (slot act : Nat) : Bool :=
  decide (slot < 4) && decide ((k.slot (slotNo slot)).act = act) && decide ((k.slot (slotNo slot)).state ≠ .free)

/-- Does a reply still find the slot that asked, the supervisor slot always (R136)? -/
def Core.takes (k : Core) (slot act : Nat) : Bool := k.runs slot act || decide (slot = 4)

/-- EPC of a fault that an answer brings to a slot: its next instruction (R278, R286; log 15). -/
def Core.slotPc (k : Core) (slot : Nat) : Dword := if slot < 5 then (k.slot (slotNo slot)).pc else 0

/-- A slot parks: from ACTIVE alone, and at an instruction boundary; a stopped one stays stopped (R137, R199, R283). One part-way
through an instruction parks in the cycle that finds it at its boundary. -/
def parkSlot (k : Core) (slot act : Nat) : Core :=
  if k.runs slot act ∧ (k.slot (slotNo slot)).state = .active ∧ k.midway (slotNo slot) = false then k.modSlot (slotNo slot) (fun x => { x with state := .parked }) else k

/-- Does something a slot waits for still await its repair or its reply (R283)? -/
def Core.stillParked (k : Core) (i : Fin 5) : Bool :=
  k.requestParked i || ((k.slot i).fencing && k.releaseParked i.val)

/-- A slot whose parked request has been answered resumes, or is stopped where a pre-emption has begun (R283, R290). -/
def unpark (k : Core) : Core :=
  (List.finRange 5).foldl (fun k i =>
    if (k.slot i).state = .parked ∧ k.stillParked i = false then
      k.modSlot i (fun x => if k.ctl.pre = .none then { x with state := .active } else { x with state := .stopped, fencing := false })
    else k) k

/-- An acquire is over once the slot's requests are (R201). -/
def endAcquire (k : Core) (slot : Nat) : Core :=
  if slot < 5 ∧ k.acquired slot = true then k.modSlot (slotNo slot) (fun x => { x with acquire := false }) else k

/-! Replies (R136, R156, R197) -/

/-- A vector register with bytes from `off` replaced. -/
def patchVreg (v : VReg) (off : Nat) (bs : List Byte) : VReg :=
  vregOfBytes ((List.range 256).map (fun i =>
    if off ≤ i ∧ i < off + bs.length then bs.getD (i - off) 0 else BitVec.ofNat 8 (v.toNat >>> (8 * i))))

/-- Write what one part of a request was answered with into the slot's register. -/
def applyReply (k : Core) (q : Request) (p : ReqPart) (bs : List Byte) (h : Header) (x : Slot) : Slot :=
  match q.kind with
  | .load d w sg => x.setReg d (loadValue w sg (leNat (bs.take w)))
  | .ldhdr d => x.setReg d (zext h)
  | .amo d w _ _ _ => x.setReg d (amoValue w (leNat (bs.take w)))
  | .vload d | .vlanes d => x.setVreg d (patchVreg (x.vreg d) p.off bs)
  | .vdec d part => x.setVreg d (k.decodeLanes (viewBlock .fp32 h) (blockOf bs) part)

/-- What a reply itself faults with: the codebook of a CB2 block that a VDEC decodes (R85). -/
def replyFault (k : Core) (q : Request) (h : Header) : Option Nat :=
  match q.kind with
  | .vdec _ _ => k.cbFault (viewBlock .fp32 h)
  | _ => none

def setRequest (k : Core) (q : Request) : Core := k.modNi (fun ni => { ni with reqs := ni.reqs.map (fun x => if x.uid = q.uid then q else x) })
def dropRequest (k : Core) (q : Request) : Core := k.modNi (fun ni => { ni with reqs := ni.reqs.filter (fun x => decide (x.uid ≠ q.uid)) })

/-- The register a request reads into is written zero (R137, R156, R198). -/
def zeroTarget (kind : ReqKind) (x : Slot) : Slot :=
  match kind with
  | .load d _ _ | .ldhdr d | .amo d _ _ _ _ => x.setReg d 0
  | .vload d | .vlanes d | .vdec d _ => x.setVreg d 0

/-- TVAL of a refused request: the address issued; of a vector's, that of the lowest lane refused (R137, R156). -/
def refusedTval (q : Request) : Dword :=
  match q.kind with
  | .vload _ | .vlanes _ => q.refused.getD q.ea
  | _ => q.ea

/-- Write the answers of every part (R71, R136, R156). -/
def applyReplies (k : Core) (q : Request) (x : Slot) : Slot :=
  q.parts.foldl (fun x p => match p.st with
    | .got bs h => applyReply k q p bs h x
    | _ => x) x

/-- The request is over. With the last reply its register is written; on REFUSED, which has been logged, it is zero and a trap becomes pending
in the slot; the slot resumes (R137). The supervisor slot has no trap: its gang faults (log 29). -/
def settleRequest (s : State) (c : Nat) (q : Request) : State :=
  let k := dropRequest (s.core c) q
  let i := slotNo q.slot
  let bad := q.refused.isSome && !q.discard
  let k := if bad ∧ k.runs q.slot q.act = true then
      k.modSlot i (fun x => { zeroTarget q.kind x with pendTraps := x.pendTraps ++ [(causeRefused, refusedTval q)] })
    else if bad ∧ q.slot = 4 then k.modSlot i (zeroTarget q.kind)
    else if q.discard = false ∧ q.refused = none ∧ k.takes q.slot q.act = true then k.modSlot i (applyReplies k q)
    else k
  let s := s.setCore c (unpark (endAcquire k q.slot))
  if bad ∧ q.slot = 4 then failGang s c i causeRefused (k.slotPc 4) (refusedTval q) else s

/-- Part j of a request has its answer. -/
def partDone (q : Request) (j : Nat) (st : PartState) : Request := { q with parts := modifyAt q.parts j (fun p => { p with st := st }) }

/-- Has a part its final answer? -/
def PartState.final : PartState → Bool
  | .got _ _ | .refused => true
  | _ => false

/-- Has every part its answer? -/
def Request.over (q : Request) : Bool := q.parts.all (fun p => p.st.final)

/-- Keep a request with its new state, or settle it. -/
def advanceRequest (s : State) (c : Nat) (q : Request) : State :=
  if q.over then settleRequest s c q else s.setCore c (setRequest (s.core c) q)

/-- A reply to part j of a request. -/
def requestReply (s : State) (c uid j : Nat) (bs : List Byte) (h : Header) : State :=
  let k := s.core c
  match k.ni.reqs.find? (fun q => decide (q.uid = uid)) with
  | none => s
  | some q =>
    if q.parts.length ≤ j then s
    else match if q.discard then none else replyFault k q h with
      | some o => gangFaultAt (settleRequest s c { q with discard := true }) c q.slot causeLsbound (k.slotPc q.slot) (BitVec.ofNat 64 o)
      | none => advanceRequest s c (partDone q j (.got bs h))

/-- Is the kind a reply, or word that a part is held? -/
def isReply : Body → Bool
  | .reply _ _ | .held => true
  | _ => false

/-! The held pairs of R63 -/

/-- The station of a node. -/
def releaseTo (s : State) (c : Nat) (dest : Node) (slot : Nat) (tag : Tag) (ap : Bool) : State :=
  s.send ((s.core c).packet c dest slot tag (.release ap))

/-- Has a part's station answered: translated it, or faulted it? -/
def PartState.answered : PartState → Bool
  | .translated | .failed _ => true
  | _ => false

/-- A fault that a station has answered a part with. -/
def PartState.nak : PartState → Option PartNak
  | .failed n => some n
  | _ => none

/-- A part of an instruction that parks whole is marked for repair, with the NOPARK and the page of its own XLATE; one without waits for the
page of the instruction's. -/
def repairMark (va : Dword) (o : Option PartNak) : Option Nat × Dword :=
  match o.filter (fun n => decide (n.cause = causeXlate)) with
  | some n => (n.noPark, n.va)
  | none => (none, va)

/-- Is a pair of R63 to be re-sent at once: has a RETRY come since the first of its NAKs (R284)? -/
def retriedSince (ns : List PartNak) : Bool := ns.any PartNak.retried

/-- The NOPARK mark of a NAK: the cycle it came (R66). -/
def noParkMark (k : Core) (np : Bool) : Option Nat := if np then some k.cycle else none

/-- A load that parks: its slot parks, and the fault is logged (R137, R283, R286). -/
def parkRequest (s : State) (c : Nat) (q : Request) : State :=
  (s.logFault c q.slot causeXlate).setCore c (parkSlot (setRequest (s.core c) { q with parked := true }) q.slot q.act)

/-- Once both stations of a pair have answered, it is released where both have translated; else the fault of the lower page is its
fault, and what is held is let go (R63). -/
def settleSplit (s : State) (c : Nat) (q : Request) : State :=
  let k := s.core c
  let s := s.setCore c (setRequest k q)
  let release (ap : Bool) (s : State) : State :=
    (q.parts.zipIdx.filter (fun x => decide (x.1.st = .translated))).foldl (fun s x => releaseTo s c x.1.dest q.slot (.request q.uid x.2) ap) s
  let naks := q.parts.filterMap (fun p => p.st.nak)
  if q.parts.all (fun p => p.st.answered) = false then s
  else match naks with
    | [] => release true s
    | n :: _ =>
      if n.cause = causeXlate then
        let mark (p : ReqPart) : ReqPart := let m := repairMark n.va p.st.nak; { p with st := .repair m.1 m.2 }
        let s := parkRequest (release false s) c { q with parts := q.parts.map mark }
        if retriedSince naks then resendRequests s c (fun x => decide (x.uid = q.uid)) else s
      else gangFaultAt ((release false s).modCore c (fun k => unpark (dropRequest k q))) c q.slot n.cause (k.slotPc q.slot) n.va

/-- Word that a part of a load is held. -/
def requestHeld (s : State) (c : Nat) (p : Packet) (uid j : Nat) : State :=
  match (s.core c).ni.reqs.find? (fun q => decide (q.uid = uid)) with
  | none => releaseTo s c p.src p.slot p.tag false
  | some q => settleSplit s c { q with parts := modifyAt q.parts j (fun x => { x with st := .translated }) }

/-- Mark items of a retained packet. -/
def markItems (k : Core) (uid : Nat) (idx : List Nat) (st : Settle) : Core :=
  let mark (l : List Item) (j : Nat) : List Item := modifyAt l j (fun x => { x with st := st })
  k.modNi (fun ni => { ni with retained := ni.retained.map (fun r => if r.uid = uid then { r with items := idx.foldl mark r.items } else r) })

/-- The two parts of a VST, the lower first. -/
def Core.pairOf (k : Core) (uid : Nat) : List Retained :=
  k.ni.retained.filter (fun r => decide (r.uid = uid) || decide (r.pair = some uid))

/-- The same as `settleSplit` for the parts of a VST. -/
def settlePair (s : State) (c uid slot : Nat) : State :=
  let k := s.core c
  let rs := k.pairOf uid
  let release (ap : Bool) (s : State) : State :=
    (rs.filter Retained.translated).foldl (fun s r => releaseTo s c r.dest slot (.retained r.uid [0]) ap) s
  let mine (r : Retained) : Bool := rs.any (fun x => decide (x.uid = r.uid))
  let naks := rs.filterMap Retained.nak
  if rs.all (fun r => r.translated || r.nak.isSome) = false then s
  else match naks with
    | [] => release true s
    | n :: _ =>
      let s := release false s
      if n.cause = causeXlate then
        let park (r : Retained) : Retained :=
          let m := repairMark n.va r.nak
          if mine r then { r with items := r.items.map (fun x => { x with st := .repair m.1 m.2 }), translated := false, nak := none } else r
        let s := (s.logFault c slot causeXlate).modCore c (fun k => k.modNi (fun ni => { ni with retained := ni.retained.map park }))
        if retriedSince naks then resendItems s c mine else s
      else
        gangFaultAt (s.modCore c (fun k => k.modNi (fun ni => { ni with retained := ni.retained.filter (fun r => !mine r) }))) c slot n.cause (k.slotPc slot) n.va

/-- A part of a VST with its station's answer. -/
def setRetained (k : Core) (uid : Nat) (f : Retained → Retained) : Core :=
  k.modNi (fun ni => { ni with retained := ni.retained.map (fun r => if r.uid = uid then f r else r) })

/-- Word that a part of a VST is held. -/
def retainedHeld (s : State) (c : Nat) (p : Packet) (uid : Nat) : State :=
  if (s.core c).ni.retained.any (fun r => decide (r.uid = uid)) then
    settlePair (s.modCore c (fun k => setRetained k uid (fun r => { r with translated := true }))) c uid p.slot
  else releaseTo s c p.src p.slot p.tag false

/-- REPLY: a load's, an atomic's or an engine's, or word of a held part. -/
def takeReply (p : Packet) (s : State) : State :=
  match p.dst, p.tag, p.body with
  | .core c, .request uid j, .reply bs h => requestReply s c uid j bs h
  | .core c, .engine t u, .reply bs h => engineReply s c t u bs h
  | .core c, .request uid j, .held => requestHeld s c p uid j
  | .core c, .retained uid _, .held => retainedHeld s c p uid
  | _, _, _ => s

def execReply (k : Nat) (s : State) : Host.Outcome State Fault Refusal := onArrival s k isReply takeReply

/-! Acknowledgements (R194, R205) -/

/-- Settle items of a retained packet; a packet that is settled whole is freed (R205). -/
def settleItems (k : Core) (uid : Nat) (idx : List Nat) : Core :=
  let mark (l : List Item) (j : Nat) : List Item := modifyAt l j (fun x => { x with st := .settled })
  let settle (r : Retained) : Retained := if r.uid = uid then { r with items := idx.foldl mark r.items } else r
  k.modNi (fun ni => { ni with retained := (ni.retained.map settle).filter (fun r => r.items.any (fun x => decide (x.st ≠ .settled))) })

/-- The scopes of an acknowledgement enter the scope table (R194). -/
def learnScopes (k : Core) (asid : Nat) (l : List (Nat × Nat)) : Core :=
  k.modNi (fun ni => l.foldl (fun ni x => ni.learn asid x.1 x.2) ni)

/-- ACK. -/
def takeAck (p : Packet) (s : State) : State :=
  match p.dst, p.tag, p.body with
  | .core c, .retained uid idx, .ack scopes => s.setCore c (unpark (learnScopes (settleItems (s.core c) uid idx) p.asid scopes))
  | .core c, .engine t u, .ack scopes => engineAck (s.modCore c (fun k => learnScopes k p.asid scopes)) c t u
  | _, _, _ => s

def execAck (k : Nat) (s : State) : Host.Outcome State Fault Refusal :=
  onArrival s k (fun b => match b with
    | .ack _ => true
    | _ => false) takeAck

/-! NAKs (R137, R199, R205 to R207, R216) -/

/-- A NAK to part j of a request. A part of R63 that its station has not yet answered waits for the other part's answer; one that was
released, or that waits for a repair, faults at once. The first REFUSED of a request is logged as it comes, whatever becomes of its trap
(R286). -/
def requestNak (s : State) (c uid j cause : Nat) (np : Bool) (addr : Dword) : State :=
  let k := s.core c
  match k.ni.reqs.find? (fun q => decide (q.uid = uid)) with
  | none => s
  | some q =>
    if q.split ∧ (q.parts[j]?).any (fun p => decide (p.st = .sent)) = true then
      settleSplit s c { q with parts := modifyAt q.parts j (fun p => { p with st := .failed ⟨cause, noParkMark k np, addr, false⟩ }) }
    else if cause = causeXlate then parkRequest s c { q with parts := modifyAt q.parts j (fun p => { p with st := .repair (noParkMark k np) addr }) }
    else if cause = causeRefused then
      let at' (a : Dword) : Nat := q.parts.findIdx (fun p => decide (p.addr = a))
      let mine : Dword := ((q.parts[j]?).map ReqPart.addr).getD addr
      let lower : Dword := match q.refused with
        | some a => if at' a < j then a else mine
        | none => mine
      advanceRequest (if q.refused.isNone then s.logFault c q.slot causeRefused else s) c (partDone { q with refused := some lower } j .refused)
    else gangFaultAt (s.setCore c (unpark (dropRequest k q))) c q.slot cause (k.slotPc q.slot) addr

/-- A refused SEND: a trap pending in the activation that issued it, if it still runs, else a fault of the gang; logged either way (R216,
R286). -/
def sendRefused (s : State) (c : Nat) (x : Item) : State :=
  let k := s.core c
  match x.el.marks.find? (fun m => k.runs m.1 m.2) with
  | some m => (s.logFault c m.1 causeRefused).setCore c (k.modSlot (slotNo m.1) (fun y => { y with pendTraps := y.pendTraps ++ [(causeRefused, x.el.addr)] }))
  | none => gangFaultAt s c ((x.el.marks.head?.map Prod.fst).getD 4) causeRefused (k.slotPc ((x.el.marks.head?.map Prod.fst).getD 4)) x.el.addr

/-- Is the item a SEND or SENDC? -/
def isSendItem (x : Item) : Bool :=
  match x.kind with
  | .send _ => true
  | _ => false

/-- A NAK to items of a retained packet, a fault that is logged whatever becomes of it (R286); a refusal that meets the end of its gang is
counted alone (R265 step 3). -/
def retainedNak (s : State) (c uid : Nat) (idx : List Nat) (cause : Nat) (np : Bool) (addr : Dword) : State :=
  let k := s.core c
  match k.ni.retained.find? (fun r => decide (r.uid = uid)) with
  | none => s
  | some r =>
    let hit := idx.filterMap (fun j => r.items[j]?)
    let slot := ((hit.head?.bind (fun x => x.el.marks.head?)).map Prod.fst).getD 4
    if r.pair.isSome ∧ r.translated = false ∧ hit.all (fun x => !x.st.parked) = true then
      settlePair (s.setCore c (setRetained k uid (fun r => { r with nak := some ⟨cause, noParkMark k np, addr, false⟩ }))) c uid slot
    else if cause = causeXlate then (s.logFault c slot causeXlate).setCore c (markItems k uid idx (.repair (noParkMark k np) addr))
    else if cause = causeRefused ∧ s.endingAt c = true then
      let count (g : Gang) : Gang := { g with dropped := g.dropped + hit.length }
      let s := (s.logFault c slot causeRefused).setCore c (unpark (settleItems k uid idx))
      match k.gang with
      | some id => s.modGang id count
      | none => s
    else if cause = causeRefused then
      if hit.any isSendItem then hit.foldl (fun s x => sendRefused s c x) (s.setCore c (settleItems k uid idx))
      else
        let s := recordRefused ((s.logFault c slot causeRefused).setCore c (markItems k uid idx .refused)) c uid
        s.modCore c unpark
    else
      let drop (k : Core) : Core := if cause = causeChovf then settleItems k uid idx
        else k.modNi (fun ni => { ni with retained := ni.retained.filter (fun x => decide (x.uid ≠ uid) && decide (x.pair ≠ some uid)) })
      gangFaultAt (s.modCore c drop) c slot cause (k.slotPc slot) addr

/-- A CHOVF that a SEND meets names the door, that of a credit 0 (R276); other causes name the address. -/
def takeNak (p : Packet) (s : State) : State :=
  match p.dst, p.tag, p.body with
  | .core c, .retained uid idx, .nak cause np va => retainedNak s c uid idx cause np va
  | .core c, .request uid j, .nak cause np va => requestNak s c uid j cause np va
  | .core c, .engine t u, .nak cause np va => engineNak s c t u cause np va
  | _, _, _ => s

def execNak (k : Nat) (s : State) : Host.Outcome State Fault Refusal :=
  onArrival s k (fun b => match b with
    | .nak _ _ _ => true
    | _ => false) takeNak

/-! Repairs (R66, R284, R285) -/

/-- REPAIR: the message adds 1 to REPAIRS, up to 255; a sealed core discards it (R285, R287). -/
def takeRepair (p : Packet) (s : State) : State :=
  match p.dst with
  | .core c =>
    s.modCore c (fun k => if k.ctl.pre.isSealed then k else { k with ctl := { k.ctl with repairs := min 255 (k.ctl.repairs + 1) } })
  | _ => s

def execRepair (k : Nat) (s : State) : Host.Outcome State Fault Refusal :=
  onArrival s k (fun b => match b with
    | .repair _ _ => true
    | _ => false) takeRepair

/-- The cycles of the NOPARK NAKs that a core still has to answer (R66). -/
def Core.noParks (k : Core) : List Nat :=
  k.ni.reqs.flatMap (fun q => q.parts.filterMap (fun p => match p.st with
    | .repair o _ => o
    | _ => none))
    ++ k.ni.retained.flatMap (fun r => r.items.filterMap (fun x => match x.st with
      | .repair o _ => o
      | _ => none))
    ++ k.eng.cmds.filterMap (fun m => m.parked.bind Prod.fst)

/-- Have 1,024 cycles passed since a NAK with NOPARK? -/
def Core.noParkDue (k : Core) : Bool := k.noParks.any (fun n => decide (n + 1024 ≤ k.cycle))

/-- NOPARK_RETRY: 1,024 cycles after a NAK with NOPARK the supervisor slot executes RETRY, no pre-emption being in progress
(R66, R285). -/
def execNoparkRetry (core : Nat) (s : State) : Host.Outcome State Fault Refusal :=
  let k := s.core core
  .next (if k.ctl.pre = .none ∧ k.noParkDue = true then retryCore s core else s)

/-! XLATE_UNMAPPED_PROT (R64) -/

/-- Is an address of device memory in a 64 KiB page? -/
def inPage (page : Nat) (a : Dword) : Bool := bit a 63 && decide (nbits a.toNat 55 16 = page)

/-- The NAK of a page that will not be mapped, on its way: its XLATE becomes PROT. -/
def denyNak (asid page : Nat) (p : Packet) : Packet :=
  match p.body with
  | .nak cause np va => if p.asid = asid ∧ cause = causeXlate ∧ inPage page va = true then { p with body := .nak causeProt np va } else p
  | _ => p

/-- The XLATE of a part of R63 whose other part is still unanswered becomes PROT likewise. -/
def PartNak.deny (page : Nat) (n : PartNak) : PartNak := if n.cause = causeXlate ∧ inPage page n.va = true then { n with cause := causeProt } else n

def PartState.deny (page : Nat) : PartState → PartState
  | .failed n => .failed (n.deny page)
  | x => x

/-- The address whose page a part or an item waits for. -/
def PartState.awaited : PartState → Option Dword
  | .repair _ va => some va
  | _ => none

def Settle.awaited : Settle → Option Dword
  | .repair _ va => some va
  | _ => none

/-- What waits at a core for such a page takes PROT for its XLATE. -/
def denyCore (page : Nat) (s : State) (c : Nat) : State :=
  let s := s.modCore c (fun k => k.modNi (fun ni => { ni with
    reqs := ni.reqs.map (fun q => { q with parts := q.parts.map (fun p => { p with st := p.st.deny page }) }),
    retained := ni.retained.map (fun r => { r with nak := r.nak.map (PartNak.deny page) }) }))
  let reqs := (s.core c).ni.reqs.flatMap (fun q => q.parts.zipIdx.filterMap (fun x =>
    (x.1.st.awaited.filter (inPage page)).map (fun a => (q.uid, x.2, a))))
  let s := reqs.foldl (fun s x => requestNak s c x.1 x.2.1 causeProt false x.2.2) s
  let items := (s.core c).ni.retained.flatMap (fun r => r.items.zipIdx.filterMap (fun x =>
    (x.1.st.awaited.filter (inPage page)).map (fun a => (r.uid, x.2, a))))
  let s := items.foldl (fun s x => retainedNak s c x.1 [x.2.1] causeProt false x.2.2) s
  (s.core c).eng.cmds.foldl (fun s m => match m.parked with
    | some (_, a) => if inPage page a then engineFault s c m causeProt a else s
    | none => s) s

/-- The memory manager maps no page: the fault of every request that waits for it becomes PROT for its gang, and so do the hub's own
accesses until a release. -/
def denyPage (s : State) (asid page : Nat) : State :=
  let mine (e : Park) : Bool := decide (e.asid = asid) && decide (e.page = page) && decide (e.level = 0)
  let cores := ((s.mem.parks.filter mine).flatMap Park.cores).filter (fun c => decide ((s.core c).asid = asid))
  let s := { s with mem := { s.mem with parks := s.mem.parks.filter (fun e => !mine e), denied := (asid, page) :: s.mem.denied },
                    net := s.net.map (denyNak asid page) }
  cores.foldl (denyCore page) s

/-- XLATE_UNMAPPED_PROT (R64). -/
def execXlateUnmappedProt (asid page : Nat) (s : State) : Host.Outcome State Fault Refusal := managed s (denyPage s asid page)

end Sys2Proof.Machine
end

