-- ==== Sys2Proof/Machine/Census.lean ====
section
/-! DEFINITION. Directories, solicits and the repeater census (R233 to R249), directory moves at their destination (R248), and
device-generated messages that waited for room (R213). -/

namespace Sys2Proof.Machine

/-! Small parts -/

def Core.leaf (k : Core) (t : Nat) : Leaf := k.leaves[(Fin.ofNat 16 t : Fin 16)]
def Core.setLeaf (k : Core) (t : Nat) (x : Leaf) : Core := { k with leaves := k.leaves.set (Fin.ofNat 16 t : Fin 16) x }
def Core.cen (k : Core) (j : Nat) : CenSlot := k.cens[(Fin.ofNat 16 j : Fin 16)]
def Core.setCen (k : Core) (j : Nat) (x : CenSlot) : Core := { k with cens := k.cens.set (Fin.ofNat 16 j : Fin 16) x }
def Core.entry (k : Core) (e : Nat) : Entry := k.dir[(Fin.ofNat 64 e : Fin 64)]
def Core.setEntry (k : Core) (e : Nat) (x : Entry) : Core := { k with dir := k.dir.set (Fin.ofNat 64 e : Fin 64) x }

/-- A slot mask with bit t set, or cleared. -/
def setBit16 (x : BitVec 16) (t : Nat) : BitVec 16 := x ||| BitVec.ofNat 16 (2 ^ t)
def clearBit16 (x : BitVec 16) (t : Nat) : BitVec 16 := x &&& ~~~(BitVec.ofNat 16 (2 ^ t))

/-- A packet into the trees (R245): up from a core, down from the root. -/
def treeUp (k : Core) (c : Nat) (m : TreeMsg) : Packet :=
  { src := .core c, dst := .hub, vc := .hub, tenant := k.tenant, asid := 0, gang := k.gang.getD 0, slot := 0, tag := .none, body := .tree (k.gang.getD 0) m }

def treeDown (tenant gang c : Nat) (m : TreeMsg) : Packet :=
  { src := .hub, dst := .core c, vc := .hub, tenant := tenant, asid := 0, gang := gang, slot := 0, tag := .none, body := .tree gang m }

/-- Tenant slots of a core whose leaf is not IDLE. -/
def Core.busyLeaves (k : Core) : Nat := maskOf 16 (fun t => decide ((k.leaf t).state ≠ .idle))

/-- The gang slot of a tenant slot at a core. -/
def Core.gangSlotOf (k : Core) (t : Nat) : Option Nat := k.cenMap.findIdx? (fun x => decide (x = t))

/-- The cores of a tenant's sub-mesh, by tenant rank (R245). -/
def Tenant.cores (t : Tenant) : List Nat := rectCores t.x0 t.y0 t.w t.h

def State.subMesh (s : State) (tenant : Nat) : List Nat := ((s.tenant tenant).map Tenant.cores).getD []

/-! Reports (R97, R236, R246) -/

/-- Combine two values under OP (R246). -/
def combine (op : Nat) (a b : Dword) : Dword :=
  let x : Word := a.extractLsb' 0 32
  let y : Word := b.extractLsb' 0 32
  match op with
  | 0 => a + b
  | 1 => zext (rneFp32 (Fp.add (ofFp32 x) (ofFp32 y)))
  | 2 => if a.slt b then b else a
  | _ => zext (fmax x y)

/-- A value that stands alone: under OP 1 a NaN gives 0x7FC0_0000 (R246). -/
def combineFirst (op : Nat) (v : Dword) : Dword := if op = 1 ∧ (ofFp32 (v.extractLsb' 0 32)).isNan = true then 0x7FC00000#64 else v

/-- Combine reports left to right, those with count 0 skipped; counts saturate (R246). -/
def combineAll (op : Nat) (l : List (Nat × Dword)) : Nat × Dword :=
  l.foldl (fun acc r =>
    if r.1 = 0 then acc
    else (min (2 ^ 32 - 1) (acc.1 + r.1), if acc.1 = 0 then combineFirst op r.2 else combine op acc.2 r.2)) (0, 0)

/-- The responders' values in ascending entry order. -/
def insertVal (l : List (Nat × Dword)) (e : Nat) (v : Dword) : List (Nat × Dword) :=
  l.filter (fun p => decide (p.1 ≤ e)) ++ (e, v) :: l.filter (fun p => decide (e < p.1))

/-- What a leaf reports. -/
def Leaf.report (x : Leaf) : Nat × Dword := combineAll x.op (x.vals.map (fun p => (1, p.2)))

/-- Is the report condition of slot t met (R236)? -/
def Core.reportDue (k : Core) (t : Nat) : Bool :=
  decide ((k.leaf t).state = .arrived)
    && k.held.all (fun m => match m.src with
      | .responder _ x => decide (x ≠ t)
      | _ => true)
    && k.dir.toList.all (fun e => !e.owed.getLsbD t && !(decide (e.state = .pending) && e.seen.getLsbD t))

def Hub.modCensus (h : Hub) (tenant slot : Nat) (f : Census → Census) : Hub :=
  { h with census := h.census.map (fun x => if x.tenant = tenant ∧ x.slot = slot then f x else x) }

/-- Test the report condition; the leaf reports and becomes REPORTED (R236). -/
def testReport (s : State) (c tenant t : Nat) : State :=
  let k := s.core c
  if k.reportDue t then
    let r := (k.leaf t).report
    let s := s.setCore c (k.setLeaf t { k.leaf t with state := .reported })
    { s with hub := s.hub.modCensus tenant t (fun x => { x with sent := x.sent ++ [⟨c, r.1, r.2⟩] }) }
  else s

/-- Test every slot of a mask. -/
def testReports (s : State) (c tenant : Nat) (mask : BitVec 16) : State :=
  (List.range 16).foldl (fun s t => if mask.getLsbD t then testReport s c tenant t else s) s

/-- Cluster and die of a core (R10, R11). -/
def clusterOf (c : Nat) : Nat := 12 * (c / 72 / 4) + c % 72 / 6
def dieOf (c : Nat) : Nat := (if 32 ≤ c / 72 then 2 else 0) + (if 36 ≤ c % 72 then 1 else 0)

/-- The values of a list, each once, in order of first appearance. -/
def firsts (l : List Nat) : List Nat := l.foldl (fun acc x => if acc.contains x then acc else acc ++ [x]) []

/-- Reports combined by cluster, by die and at the root, children by lowest tenant rank (R97, R245, R246): `cores` in tenant
rank order. -/
def combineTree (op : Nat) (cores : List Nat) (rs : List Report) : Nat × Dword :=
  let leafVals (c : Nat) : List (Nat × Dword) := (rs.filter (fun r => decide (r.core = c))).map (fun r => (r.count, r.value))
  let cluster (n : Nat) : Nat × Dword := combineAll op ((cores.filter (fun c => decide (clusterOf c = n))).flatMap leafVals)
  let die (d : Nat) : Nat × Dword := combineAll op ((firsts ((cores.filter (fun c => decide (dieOf c = d))).map clusterOf)).map cluster)
  combineAll op ((firsts (cores.map dieOf)).map die)

/-! The result and the closes (R235, R243, R246) -/

/-- Is a gang saved, or being saved, its leaves held (R292)? -/
def Gang.away (g : Gang) : Bool := decide (g.state = .saved)

/-- Has every leaf of the tenant's sub-mesh reported, those of saved gangs included (R246, R247)? -/
def censusOver (s : State) (x : Census) : Bool :=
  x.sent.isEmpty
    && (s.subMesh x.tenant).all (fun c => decide (((s.core c).leaf x.slot).state = .reported) && x.got.any (fun r => decide (r.core = c)))
    && s.hub.gangs.all (fun g => !(decide (g.tenant = x.tenant) && g.away && g.saved.any (fun k => decide ((k.leaf x.slot).state ≠ .reported))))
    && s.net.all (fun p => match p.body with
      | .tree _ (.solicit t _ _ _ _) => !(decide (p.tenant = x.tenant) && decide (t = x.slot))
      | _ => true)

/-- Begin a close at rank 0: CLOSING, and the close leaves for the root (R235, R243). -/
def beginClose (s : State) (c j : Nat) : State :=
  let k := s.core c
  match k.cenMap[j]? with
  | none => s
  | some t => (s.setCore c (k.setCen j { k.cen j with state := .closing, closePending := false })).send (treeUp k c (.close t))

/-- The result has been delivered: DONE, or at once CLOSING where that is pending (R235). -/
def resultDelivered (s : State) (c t : Nat) : State :=
  let k := s.core c
  match k.gangSlotOf t with
  | none => s
  | some j =>
    let x := k.cen j
    let s := s.setCore c (k.setCen j { x with state := .done })
    if x.closePending then beginClose s c j else s

/-- CENSUS_RESULT: the root's message to the asker, held while its channel is full or its gang is being moved (R213, R246,
R292). -/
def deliverResult (s : State) (x : Census) : State :=
  match s.gang x.gang with
  | none => s
  | some g =>
    let c := coreAt g.x0 g.y0
    let k := s.core c
    if g.away ∨ k.ctl.pre.isSealed = true ∨ k.gang ≠ some g.id ∨ censusOver s x = false then s
    else
      let r := combineTree x.op (s.subMesh x.tenant) x.got
      let v : Dword := r.2
      let s := { s with hub := { s.hub with census := s.hub.census.filter (fun y => decide (y ≠ x)) } }
      let k := k.setCen x.gslot { k.cen x.gslot with count := r.1, value := v }
      let payload : Dword := BitVec.ofNat 64 (r.1 * 2 ^ 32 + v.toNat % 2 ^ 32)
      let d := deviceMessage (s.setCore c k) c (k.cen x.gslot).door payload senderHub (.census x.slot)
      if d.2 then resultDelivered d.1 c x.slot else d.1

/-- Deliver every result that is complete. -/
def deliverResults (s : State) : State := s.hub.census.foldl deliverResult s

/-- A close is complete: every core has acknowledged, and no gang of the tenant is away. The slot is FREE at rank 0, or is given
back where its gang has ended (R235, R243). -/
def finishClose (s : State) (x : Closing) : State :=
  if x.left ≠ [] ∨ s.hub.gangs.any (fun g => decide (g.tenant = x.tenant) && g.away) = true then s
  else
    let s := { s with hub := { s.hub with closings := s.hub.closings.filter (fun y => decide (y ≠ x)) } }
    match s.gang x.gang with
    | some g => s.modCore (coreAt g.x0 g.y0) (fun k => if k.gang = some g.id then k.setCen x.gslot CenSlot.reset else k)
    | none => s.modTenant x.tenant (fun t => { t with granted := t.granted.filter (fun p => decide (p ≠ (x.slot, x.gang))) })

def finishCloses (s : State) : State := s.hub.closings.foldl finishClose s

/-- The root starts a close: a result not delivered is discarded, and every core of the sub-mesh is told (R235, R243). -/
def startClose (s : State) (tenant slot gang gslot : Nat) : State :=
  let cs := s.subMesh tenant
  let s := { s with hub := { s.hub with
    census := s.hub.census.filter (fun x => !(decide (x.tenant = tenant) && decide (x.slot = slot)))
    closings := s.hub.closings ++ [⟨tenant, slot, gang, gslot, cs⟩] } }
  cs.foldl (fun s c => s.send (treeDown tenant gang c (.close slot))) s

/-! SOLICIT (R237) -/

/-- The channel of a door offset (R40, R237). -/
def doorChannel (off : Nat) : Option Nat := if 0xC0000 ≤ off ∧ off < 0xC0400 ∧ off % 16 = 0 then some ((off - 0xC0000) / 16) else none

def solicitBody (s : State) (d : BitVec 5) (w : BitVec 256) : State :=
  let k := s.here
  let j := stf w 3 25 22
  match doorChannel (stf w 3 19 0) with
  | none => s.retire d (negCode 4)
  | some ch =>
    if k.isMsg ch = false then s.retire d (negCode 4)
    else if k.page.rank ≠ 0 ∨ k.page.ncen ≤ j ∨ (k.cen j).state ≠ .free then s.retire d (negCode 1)
    else match k.cenMap[j]? with
      | none => s.retire d (negCode 1)
      | some t =>
        let op := stf w 3 21 20
        let m : TreeMsg := .solicit t op (stf w 0 47 0) (stf w 1 47 0) (dwordAt w 2).toNat
        ((s.modHere (fun k => k.setCen j { CenSlot.reset with state := .opened, op := op, door := ch })).send (treeUp k s.issuer.1 m)).retire d (BitVec.ofNat 64 j)

def execSolicit (d a : BitVec 5) (s : State) : Host.Outcome State Fault Refusal :=
  issue (.solicit d a) s (fun s =>
    match s.descriptorAt (s.reg a) with
    | none => s.retire d (negCode 4)
    | some off => withDescriptor s off (solicitBody s d))

/-! The solicit at a core (R234, R238) -/

/-- Does an entry match (R234)? -/
def Entry.matchesKey (e : Entry) (key mask : Nat) : Bool :=
  decide (e.state ≠ .free) && decide (((key ^^^ e.key) &&& mask &&& e.kmask) % 2 ^ 48 = 0)

/-- The payload of a responder message (R238). -/
def responderPayload (arg e t : Nat) : Dword := BitVec.ofNat 64 (arg / 65536 * 65536 + e * 256 + t)

/-- Spawn the responder of entry e for slot t. -/
def spawn (s : State) (c e t arg : Nat) : State :=
  let x := (s.core c).entry e
  let s := (deviceMessage s c x.rch (responderPayload arg e t) senderHub (.responder e t)).1
  s.modCore c (fun k => k.setEntry e { k.entry e with answered := setBit16 (k.entry e).answered t, owed := setBit16 (k.entry e).owed t })

/-- The solicit meets entry e. -/
def solicitEntry (c t key mask arg : Nat) (s : State) (e : Nat) : State :=
  let x := (s.core c).entry e
  if x.matchesKey key mask && !x.answered.getLsbD t then
    (if x.state = .pending then s.modCore c (fun k => k.setEntry e { x with seen := setBit16 x.seen t })
     else spawn s c e t arg)
  else s

/-- Has the core taken a solicit in the cycle that stands, of a tenant slot above t (R251)? -/
def Core.solicitedAbove (k : Core) (t : Nat) : Bool := k.solicited.any (fun x => decide (t < x.1) && decide (x.2 = k.cycle))

/-- Has it taken any in that cycle? -/
def Core.solicitedNow (k : Core) : Bool := k.solicited.any (fun x => decide (x.2 = k.cycle))

/-- A solicit reaches a core: one atomic step (R238). -/
def solicitAt (s : State) (c tenant t op key mask arg : Nat) : State :=
  let s := s.modCore c (fun k => { k.setLeaf t ⟨.arrived, op, arg, []⟩ with solicited := some (t, k.cycle) })
  testReport ((List.range 64).foldl (solicitEntry c t key mask arg) s) c tenant t

/-- Is the core of a tree packet one it can reach now: not sealed, and for a message to a gang's core that gang's (R292)? A
packet to a gang that is no more arrives, and finds nothing. The word back of a forwarded close is held for no one (R243). -/
def treeReaches (s : State) (p : Packet) (ofGang : Bool) : Bool :=
  match p.dst, p.body with
  | .core _, .tree _ (.closeAck _) => true
  | .core c, _ => !(s.core c).ctl.pre.isSealed && (!ofGang || decide ((s.core c).gang = some p.gang) || (s.gang p.gang).isNone)
  | _, _ => true

/-- Does a tree packet to a core come from the hub, as CLASS 2 must (R312)? What the tree carries between two leaves, an offer and the word
back to a source, does not. -/
def ofTheHub (p : Packet) (m : TreeMsg) : Bool :=
  match p.dst, m with
  | .core _, .offer _ _ | .core _, .closeAck _ => true
  | .core _, _ => decide (p.src = .hub)
  | _, _ => true

/-- A tree packet is taken where it arrives; one that no hub sent is discarded and reported (R312). -/
def takeOfHub (p : Packet) (m : TreeMsg) (take : Packet → TreeMsg → State → State) (s : State) : State :=
  if ofTheHub p m then take p m s else reportLink s

/-- The step of a tree packet. -/
def onTree (s : State) (k : Nat) (kind : TreeMsg → Bool) (ofGang : Bool) (take : Packet → TreeMsg → State → State) : Host.Outcome State Fault Refusal :=
  .next (match s.arrival k with
    | some (p, s') => match p.body with
      | .tree _ m => if kind m && treeReaches s p ofGang then takeOfHub p m take s' else s
      | _ => s
    | none => s)

def takeSolicit (p : Packet) (m : TreeMsg) (s : State) : State :=
  match p.dst, m with
  | .core c, .solicit t op key mask arg => solicitAt s c p.tenant t op key mask arg
  | _, _ => s

def isSolicit : TreeMsg → Bool
  | .solicit _ _ _ _ _ => true
  | _ => false

/-- Does a packet come to a core? -/
def toCore (p : Packet) : Bool :=
  match p.dst with
  | .core _ => true
  | _ => false

/-- Does a solicit come in its turn: of two for one core in one cycle the lower tenant slot goes first (R251)? -/
def inTurn (s : State) (p : Packet) : Bool :=
  match p.dst, p.body with
  | .core c, .tree _ (.solicit t _ _ _ _) => !(s.core c).solicitedAbove t
  | _, _ => true

/-- SOLICIT_ARRIVAL. -/
def execSolicitArrival (k : Nat) (s : State) : Host.Outcome State Fault Refusal :=
  if (s.net[k]?).all (fun p => toCore p && inTurn s p) then onTree s k isSolicit false takeSolicit else .next s

/-! RESPOND (R239) -/

def respondBody (s : State) (a b : BitVec 5) : State :=
  let k := s.here
  let tok := s.reg a
  let e := field tok 13 8
  let t := field tok 3 0
  if field tok 15 14 ≠ 0 ∨ field tok 7 4 ≠ 0 ∨ (k.entry e).owed.getLsbD t = false then trapHere s causeRefused tok
  else
    let lf := k.leaf t
    let v : Dword := if lf.op = 1 ∨ lf.op = 3 then s.reg b &&& 0xFFFFFFFF#64 else s.reg b
    let k := (k.setLeaf t { lf with vals := insertVal lf.vals e v }).setEntry e { k.entry e with owed := clearBit16 (k.entry e).owed t }
    (testReport (s.setCore s.issuer.1 { k with responded := some (e, k.cycle) }) s.issuer.1 k.tenant t).advance

def execRespond (a b : BitVec 5) (s : State) : Host.Outcome State Fault Refusal :=
  issue (.respond a b) s (fun s => withRelease s (fun s => respondBody s a b))

/-! DIRADD, DIRDEL, DIRMOVE (R240 to R242) -/

/-- What DIRADD refuses a descriptor with (R240). -/
def Core.diraddCode (k : Core) (w : BitVec 256) : Option Nat :=
  let addr := stf w 2 19 0
  let len := stf w 2 39 20
  if addr % 64 ≠ 0 ∨ len = 0 ∨ len % 64 ≠ 0 ∨ k.inStore addr len = false then some 4
  else if k.isMsg (stf w 0 53 48) = false then some 6
  else if k.dir.toList.all (fun e => decide (e.state ≠ .free)) then some 1
  else none

/-- The lowest FREE entry. -/
def Core.freeEntry (k : Core) : Nat := (k.dir.toList.findIdx? (fun e => decide (e.state = .free))).getD 0

def diraddBody (s : State) (d : BitVec 5) (w : BitVec 256) : State :=
  let k := s.here
  match k.diraddCode w with
  | some n => s.retire d (negCode n)
  | none =>
    let e := k.freeEntry
    let x : Entry := { state := .active, key := stf w 0 47 0, rch := stf w 0 53 48, kmask := stf w 1 47 0, answered := BitVec.ofNat 16 k.busyLeaves,
                       owed := 0, seen := 0, addr := stf w 2 19 0, len := stf w 2 39 20, peer := 0, pent := 0 }
    (s.modHere (fun k => k.setEntry e x)).retire d (BitVec.ofNat 64 e)

def execDiradd (d a : BitVec 5) (s : State) : Host.Outcome State Fault Refusal :=
  issue (.diradd d a) s (fun s =>
    match s.descriptorAt (s.reg a) with
    | none => s.retire d (negCode 4)
    | some off => withDescriptor s off (diraddBody s d))

/-- DIRDEL: the entry is FREE (R241), its other fields 0, which the spec leaves open (log 88). -/
def execDirdel (d a : BitVec 5) (s : State) : Host.Outcome State Fault Refusal :=
  issue (.dirdel d a) s (fun s =>
    let e := field (s.reg a) 5 0
    let x := s.here.entry e
    if x.state ≠ .active ∨ x.owed ≠ 0 then s.retire d (negCode 1)
    else (s.modHere (fun k => k.setEntry e Entry.reset)).retire d (BitVec.ofNat 64 e))

/-- The command word of a DMOVE (R108, R242): LOCK = 1, NOTIFY and DONECH from g a. -/
def dmoveWord (a b : Dword) (x : Entry) : BitVec 256 :=
  let st0 := 0x14 + 2048 + b2n (bit a 22) * 1024 + field a 21 16 * 2 ^ 32
  let st3 := x.len % 2 ^ 20 + field a 5 0 * 2 ^ 20 + field a 13 8 * 2 ^ 26
  BitVec.ofNat 256 (st0 + x.addr % 2 ^ 64 * 2 ^ 64 + b.toNat * 2 ^ 128 + st3 * 2 ^ 192)

/-- What DIRMOVE refuses (R242). -/
def Core.dirmoveCode (k : Core) (a b : Dword) : Option Nat :=
  let x := k.entry (field a 5 0)
  let rank := field b 32 20
  let w := dmoveWord a b x
  if x.state ≠ .active then some 2
  else if field b 63 62 ≠ 1 ∨ field b 61 40 ≠ 0x3FFFFE ∨ field b 39 33 ≠ 0 ∨ k.page.width * k.page.height ≤ rank ∨ b.toNat % 64 ≠ 0
      ∨ rank = k.page.rank ∨ k.inStore (field b 19 0) x.len = false then some 4
  else if k.badTerm w then some 6
  else k.roomCode 1 w (checkDmove w).ops

def execDirmove (d a b : BitVec 5) (s : State) : Host.Outcome State Fault Refusal :=
  issue (.dirmove d a b) s (fun s =>
    let k := s.here
    let ga := s.reg a
    let gb := s.reg b
    match k.dirmoveCode ga gb with
    | some n => s.retire d (negCode n)
    | none =>
      let e := field ga 5 0
      let w := dmoveWord ga gb (k.entry e)
      let k1 := (k.accept 1 s.issuer.2.val s.pc w (checkDmove w).ops).setEntry e { k.entry e with state := .forward, peer := field gb 32 20, pent := field ga 13 8 }
      (s.setCore s.issuer.1 k1).retire d (BitVec.ofNat 64 k.eng.ticket))

/-! CENCLOSE and CENST (R243, R244) -/

def execCenclose (a : BitVec 5) (s : State) : Host.Outcome State Fault Refusal :=
  issue (.cenclose a) s (fun s =>
    let k := s.here
    let j := field (s.reg a) 3 0
    let c := s.issuer.1
    (if k.page.rank ≠ 0 ∨ k.page.ncen ≤ j then s
     else match (k.cen j).state with
       | .opened => s.setCore c (k.setCen j { k.cen j with closePending := true })
       | .done => beginClose s c j
       | _ => s).advance)

/-- The word of CENST (R244). -/
def Core.censt (k : Core) (j : Nat) (full : Bool) : Dword :=
  let x := k.cen j
  let root := decide (k.page.rank = 0)
  if k.page.ncen ≤ j then 0
  else if full then (if root && decide (x.state = .done) then x.value else 0)
  else
    let t := (k.cenMap[j]?).getD 0
    let done := root && decide (x.state = .done)
    let live := root && (decide (x.state = .opened) || done)
    let leaf := match (k.leaf t).state with
      | .idle => 0
      | .arrived => 1
      | .reported => 2
    let owedn := (k.dir.toList.filter (fun e => e.owed.getLsbD t)).length
    let withn := (k.dir.toList.filter (fun e => decide (e.state = .pending) && e.seen.getLsbD t)).length
    BitVec.ofNat 64 (b2n (root && decide (x.state = .opened)) * 2 ^ 63 + b2n done * 2 ^ 62
      + b2n (root && (decide (x.state = .closing) || x.closePending)) * 2 ^ 61 + (if live then x.op % 4 else 0) * 2 ^ 56
      + leaf * 2 ^ 46 + owedn * 2 ^ 39 + withn * 2 ^ 32 + (if done then x.count % 2 ^ 32 else 0))

def execCenst (d a : BitVec 5) (s : State) : Host.Outcome State Fault Refusal :=
  issue (.censt d a) s (fun s => s.retire d (s.here.censt (field (s.reg a) 3 0) (bit (s.reg a) 4)))

/-! Reports at the root -/

/-- NODE_REPORT: report k of a census comes up the tree to its root; with the last the result leaves (R246; log 35). -/
def execNodeReport (tenant slot k : Nat) (s : State) : Host.Outcome State Fault Refusal :=
  let up (x : Census) : Census := match x.sent[k]? with
    | some r => { x with sent := x.sent.eraseIdx k, got := x.got ++ [r] }
    | none => x
  .next (deliverResults { s with hub := s.hub.modCensus tenant slot up })

/-! Closes (R243, R248) -/

/-- Does a command have its commit on the way (R248)? -/
def Command.commits (m : Command) : Bool := decide (cmdCode m.word = 0x14) && decide (m.xfer = .committing)

/-- A close clears a slot at a core. -/
def clearSlot (k : Core) (t : Nat) : Core :=
  let clear (e : Entry) : Entry := { e with answered := clearBit16 e.answered t, seen := clearBit16 e.seen t }
  let note (m : Command) : Command := if cmdCode m.word = 0x14 then { m with closed := m.closed ||| 2 ^ t } else m
  { k.setLeaf t Leaf.reset with dir := k.dir.map clear, eng := { k.eng with cmds := k.eng.cmds.map note } }

/-- The commits of a core on their way. -/
def Core.commits (k : Core) : List Command := k.eng.cmds.filter Command.commits

/-- The root waits for n acknowledgements of a core more. -/
def moreAcks (s : State) (tenant t c n : Nat) : State :=
  { s with hub := { s.hub with closings := s.hub.closings.map (fun x =>
    if x.tenant = tenant ∧ x.slot = t then { x with left := x.left ++ List.replicate n c } else x) } }

/-- A close is forwarded behind each commit on its way (R243, R248). -/
def forwardClose (s : State) (k : Core) (c gang t : Nat) : State :=
  k.commits.foldl (fun s m => match (decodeAddr k.page s.fab.device (dwordAt m.word 2)).dest with
    | some d => s.inject c { k.packet c d m.slot .none (.move (.forwardedClose t (stf m.word 3 31 26))) with gang := gang }
    | none => s) s

/-- A close reaches a core: it clears the slot and acknowledges; behind each commit on the way it first forwards the close, and
the acknowledgement waits for the destination's (R243, R248). -/
def closeAt (s : State) (c tenant gang t : Nat) : State :=
  let k := s.core c
  let s := s.setCore c (clearSlot k t)
  if k.commits = [] then s.send { treeUp k c (.closeAck t) with tenant := tenant, gang := gang, body := .tree gang (.closeAck t) }
  else forwardClose (moreAcks s tenant t c (k.commits.length - 1)) k c gang t

/-- A forwarded close at the destination of a move: it clears the slot as any close does, and word goes back to the source. Where
the destination has a commit of its own on the way it forwards the close behind that, and the root waits for that too (R243, R248). -/
def forwardedCloseAt (s : State) (p : Packet) (c t : Nat) : State :=
  let k := s.core c
  let s := forwardClose (moreAcks (s.setCore c (clearSlot k t)) k.tenant t c k.commits.length) k c p.gang t
  s.send { answer p .none (.tree p.gang (.closeAck t)) with vc := .hub }

/-- CLOSE: a close reaches a core, down the tree or forwarded behind a commit. -/
def execClose (k : Nat) (s : State) : Host.Outcome State Fault Refusal :=
  .next (match s.arrival k with
    | some (p, s') => match p.dst, p.body with
      | .core c, .tree gang (.close t) =>
        if treeReaches s p false then takeOfHub p (.close t) (fun _ _ s => closeAt s c p.tenant gang t) s' else s
      | .core c, .move (.forwardedClose t _) => forwardedCloseAt s' p c t
      | _, _ => s
    | none => s)

/-- One acknowledgement fewer to wait for. -/
def ackClose (s : State) (tenant t c : Nat) : State :=
  finishCloses { s with hub := { s.hub with closings := s.hub.closings.map (fun x =>
    if x.tenant = tenant ∧ x.slot = t then { x with left := x.left.erase c } else x) } }

/-- CLOSE_ACK: at the root, or at a source whose forwarded close has been applied, which then acknowledges. -/
def takeCloseAck (p : Packet) (m : TreeMsg) (s : State) : State :=
  match p.dst, p.src, m with
  | .hub, .core c, .closeAck t => ackClose s p.tenant t c
  | .core c, _, .closeAck t => s.send { treeUp (s.core c) c m with tenant := p.tenant, gang := p.gang, body := .tree p.gang (.closeAck t) }
  | _, _, _ => s

def execCloseAck (k : Nat) (s : State) : Host.Outcome State Fault Refusal :=
  onTree s k (fun m => match m with
    | .closeAck _ => true
    | _ => false) false takeCloseAck

/-! Directory moves at the destination (R248) -/

/-- The step of a message of a move. -/
def onMove (s : State) (k : Nat) (take : Packet → Nat → MoveMsg → State → Option State) : Host.Outcome State Fault Refusal :=
  .next (match s.arrival k with
    | some (p, s') => match p.dst, p.body with
      | .core c, .move m => (take p c m s').getD s
      | _, _ => s
    | none => s)

/-- DMOVE_OPEN: the entry becomes PENDING and E goes back, or the open is refused (R248 step 1). ANSWERED of the entry is 0, which the spec
leaves open (log 88). -/
def execDmoveOpen (k : Nat) (s : State) : Host.Outcome State Fault Refusal :=
  onMove s k (fun p c m s => match m with
    | .openMove key kmask rch len offset rank sent dent =>
      let x := s.core c
      if (x.entry dent).state = .free ∧ x.isMsg rch = true then
        let e : Entry := { state := .pending, key := key, rch := rch, kmask := kmask, answered := 0, owed := 0, seen := 0, addr := offset,
                           len := len, peer := rank, pent := sent }
        some ((s.setCore c (x.setEntry dent e)).send (answer p p.tag (.move (.openReply x.busyLeaves))))
      else some (s.send (answer p p.tag (.nak causeRefused false 0)))
    | _ => none)

/-- DMOVE_OPEN_REPLY. -/
def execDmoveOpenReply (k : Nat) (s : State) : Host.Outcome State Fault Refusal :=
  onMove s k (fun p c m s => match m, p.tag with
    | .openReply e, .engine t u => some (engineOpened s c t u e)
    | _, _ => none)

/-- Is the entry pending for a move from this sender (R248)? -/
def pendingFor (s : State) (c dent : Nat) (p : Packet) : Bool :=
  let x := (s.core c).entry dent
  decide (x.state = .pending) && (match p.src with
    | .core q => decide (x.peer = (s.core q).page.rank)
    | _ => false)

/-- ADOPTION: the withheld responders that the source has not answered are spawned, and the entry is ACTIVE (R248 step 4). Their order,
ascending, is the model's choice (log 98), as PEER and PENT of 0 are (log 88). -/
def adopt (s : State) (c dent m tenant : Nat) : State :=
  let x := (s.core c).entry dent
  let mb := BitVec.ofNat 16 m
  let owed := x.seen &&& ~~~mb
  let s := s.modCore c (fun k => k.setEntry dent { x with state := .active, answered := mb ||| x.seen, owed := 0, seen := 0, peer := 0, pent := 0 })
  let s := (List.range 16).foldl (fun s t => if owed.getLsbD t then spawn s c dent t ((s.core c).leaf t).arg else s) s
  testReports s c tenant x.seen

/-- A commit is taken before the solicits of its cycle (R251). -/
def execAdoption (k : Nat) (s : State) : Host.Outcome State Fault Refusal :=
  onMove s k (fun p c m s => match m with
    | .commit mask dent =>
      if (s.core c).solicitedNow then none else
      let s := if pendingFor s c dent p then adopt s c dent mask p.tenant else s
      some (s.send (answer p p.tag (.ack [])))
    | _ => none)

/-- ABORT, before the solicits of its cycle (R251): the PENDING entry is FREE again and its withheld reports are tested (R248 step 5). The
entry's other fields are 0 (log 88). -/
def execAbortMove (k : Nat) (s : State) : Host.Outcome State Fault Refusal :=
  onMove s k (fun p c m s => match m with
    | .abort dent =>
      if (s.core c).solicitedNow then none
      else if pendingFor s c dent p then
        let seen := ((s.core c).entry dent).seen
        some (testReports (s.modCore c (fun k => k.setEntry dent Entry.reset)) c p.tenant seen)
      else some s
    | _ => none)

/-! Messages that waited for room (R213) -/

/-- What follows once a held message has entered its channel, or been discarded. -/
def heldDone (s : State) (c : Nat) (m : Held) : State :=
  match m.src with
  | .engine t => s.modCore c (fun k => k.dropCommand t)
  | .responder _ t => testReport s c (s.core c).tenant t
  | .census t => resultDelivered s c t
  | _ => s

/-- HELD_MESSAGE_DELIVERY: the first message held for a channel enters it when it has room, or is discarded where the channel is
no longer a declared MSG channel. -/
def execHeldMessageDelivery (core ch : Nat) (s : State) : Host.Outcome State Fault Refusal :=
  let k := s.core core
  .next (match k.held.find? (fun m => decide (m.ch = ch)) with
    | none => s
    | some m =>
      let k1 := { k with held := k.held.erase m }
      if k.isMsg ch = false then heldDone ((s.setCore core k1).logDiscard core) core m
      else if (k.chan ch).full then s
      else heldDone (s.setCore core (k1.push ch (m.payload, m.sender))) core m)

end Sys2Proof.Machine
end

