-- ==== Sys2Proof/Machine/Barriers.lean ====
section
/-! DEFINITION. Gang barriers (R271 to R275) and the packets of the trees (R245). -/

namespace Sys2Proof.Machine

def Core.bar (k : Core) (j : Nat) : Bar := k.bars[(Fin.ofNat 64 j : Fin 64)]
def Core.setBar (k : Core) (j : Nat) (x : Bar) : Core := { k with bars := k.bars.set (Fin.ofNat 64 j : Fin 64) x }

/-- The core of a rank of a gang. -/
def Gang.coreOf (g : Gang) (rank : Nat) : Nat := rankCore g.x0 g.y0 g.w rank

/-! BARALLOC (R272) -/

/-- The descriptor of a BARALLOC: its bytes, ALL and the members. -/
def barDescLen (k : Core) (off : Nat) : Nat :=
  if bit (BitVec.ofNat 64 (k.ownLE off 8)) 8 then 8 else 8 + 8 * ((k.page.width * k.page.height + 63) / 64)

def barMembers (k : Core) (off : Nat) : List Nat :=
  let n := k.page.width * k.page.height
  if bit (BitVec.ofNat 64 (k.ownLE off 8)) 8 then List.range n
  else (List.range n).filter (fun r => (k.ownLE (off + 8 + r / 64 * 8) 8).testBit (r % 64))

/-- Take the offer of a BARALLOC back at every member (R272). -/
def withdraw (s : State) (o : Offer) : State :=
  match s.here.gang.bind s.gang with
  | none => s
  | some g => o.members.foldl (fun s r => s.modCore (g.coreOf r) (fun k =>
      { k with offered := k.offered.filter (fun x => decide (x ≠ (o.origin, o.slot, o.ch))) })) s

/-- The offers of a core without that of the issuing slot. -/
def State.dropOffer (s : State) (o : Offer) : State := s.modHere (fun k => { k with offers := k.offers.filter (fun x => decide (x ≠ o)) })

/-- The lowest free gang barrier at the root. -/
def Gang.freeBar (g : Gang) : Option Nat := g.bars.findIdx? (fun b => !b.alloc)

/-- Barrier j committed at the root and at every member, in one step; arrivals of an earlier use are discarded (R272, R273). -/
def commitBar (s : State) (g : Gang) (o : Offer) (j : Nat) : State :=
  let stale (p : Packet) : Bool := match p.body with
    | .tree id (.arrival b _ _) => decide (id = g.id) && decide (b = j)
    | _ => false
  let s := { s with net := s.net.filter (fun p => !stale p) }
  let s := s.modGang g.id (fun g => { g with bars := setAt g.bars j ⟨true, o.members, [], false, 0⟩ })
  o.members.foldl (fun s r => s.modCore (g.coreOf r) (fun k => k.setBar j ⟨true, true, false, false, false, o.ch, 0⟩)) s

/-- BARALLOC once every member has answered. -/
def barallocEnd (s : State) (d : BitVec 5) (o : Offer) : State :=
  let s1 := withdraw (s.dropOffer o) o
  if o.answers.any (fun x => !x.2) then s1.retire d (negCode 6)
  else match s.here.gang.bind s.gang with
    | none => s1.retire d (negCode 1)
    | some g => match g.freeBar with
      | none => s1.retire d (negCode 1)
      | some j => (commitBar s1 g o j).retire d (BitVec.ofNat 64 j)

/-- BARALLOC offers its channel to every member (R272). -/
def barallocStart (s : State) (d : BitVec 5) (off ch : Nat) : State :=
  let k := s.here
  let ms := barMembers k off
  if ms = [] then s.retire d (negCode 4)
  else if k.page.nchan ≤ ch then s.retire d (negCode 6)
  else match k.gang.bind s.gang with
    | none => s.retire d (negCode 1)
    | some g =>
      let o : Offer := { slot := s.issuer.2.val, act := s.me.act, ch := ch, members := ms, answers := [], origin := k.page.rank }
      let s := s.modHere (fun k => { k with offers := k.offers ++ [o] })
      ms.foldl (fun s r => s.send { treeUp k s.issuer.1 (.offer s.issuer.2.val ch) with dst := .core (g.coreOf r), slot := s.issuer.2.val }) s

def execBaralloc (d a : BitVec 5) (s : State) : Host.Outcome State Fault Refusal :=
  issue (.baralloc d a) s (fun s =>
    match s.offer with
    | some o => barallocEnd s d o
    | none =>
      let k := s.here
      match s.place (s.reg a) with
      | .own off =>
        if off % 8 ≠ 0 ∨ k.inStore off 8 = false ∨ k.inStore off (barDescLen k off) = false then s.retire d (negCode 4)
        else match k.firstFault s.user false off (barDescLen k off) with
          | some f => raise s (BitVec.ofNat 64 off) f
          | none => barallocStart s d off (nbits (k.ownLE off 8) 5 0)
      | _ => s.retire d (negCode 4))

/-- BARRIER_OFFER: a member leaf answers whether the channel is a declared MSG channel, and holds it, whatever its kind, until the
commit or the withdrawal (R217, R272); an offer of a gang that has left its cores meets nothing. -/
def takeOffer (p : Packet) (m : TreeMsg) (s : State) : State :=
  match p.src, p.dst, m with
  | .core o, .core c, .offer slot ch =>
    let k := s.core c
    if k.gang ≠ some p.gang ∨ (s.core o).gang ≠ some p.gang then s
    else
    let ok := k.isMsg ch
    let s := s.setCore c { k with offered := k.offered ++ [((s.core o).page.rank, slot, ch)] }
    s.modCore o (fun x => { x with offers := x.offers.map (fun y =>
      if y.slot = slot then { y with answers := y.answers ++ [(k.page.rank, ok)] } else y) })
  | _, _, _ => s

def execBarrierOffer (k : Nat) (s : State) : Host.Outcome State Fault Refusal :=
  .next (match s.arrival k with
    | some (p, s') => match p.body with
      | .tree _ (.offer slot ch) => takeOffer p (.offer slot ch) s'
      | _ => s
    | none => s)

/-! BARFREE, ARRIVE, ARRIVED, BARST (R273 to R275) -/

def execBarfree (a : BitVec 5) (s : State) : Host.Outcome State Fault Refusal :=
  issue (.barfree a) s (fun s =>
    let j := field (s.reg a) 5 0
    (if s.here.page.nbar ≤ j then s else s.send (treeUp s.here s.issuer.1 (.freeUp j))).advance)

def arriveBody (s : State) (a : BitVec 5) (drop : Bool) : State :=
  let k := s.here
  let j := field (s.reg a) 5 0
  let b := k.bar j
  if k.page.nbar ≤ j ∨ b.alloc = false ∨ b.member = false ∨ b.arrived = true then trapHere s causeRefused (s.reg a)
  else
    ((s.modHere (fun k => k.setBar j { b with arrived := true, drop := b.drop || drop })).send
      (treeUp k s.issuer.1 (.arrival j k.page.rank drop))).advance

def execArrive (a : BitVec 5) (s : State) : Host.Outcome State Fault Refusal :=
  issue (.arrive a) s (fun s => withRelease s (fun s => arriveBody s a false))

def execArrived (a : BitVec 5) (s : State) : Host.Outcome State Fault Refusal :=
  issue (.arrived a) s (fun s => withRelease s (fun s => arriveBody s a true))

def execBarst (d a : BitVec 5) (s : State) : Host.Outcome State Fault Refusal :=
  issue (.barst d a) s (fun s =>
    let j := field (s.reg a) 5 0
    s.retire d (if s.here.page.nbar ≤ j then 0 else (s.here.bar j).word))

/-- The root counts an arrival; with the last one the phase completes (R274). -/
def BarRoot.arrive (b : BarRoot) (rank : Nat) (drop : Bool) : BarRoot × Bool :=
  if b.alloc = false ∨ b.members.contains rank = false ∨ b.arrived.any (fun x => decide (x.1 = rank)) = true then (b, false)
  else
    let arr := b.arrived ++ [(rank, drop)]
    if arr.length = b.members.length then
      ({ b with members := b.members.filter (fun r => !arr.any (fun x => decide (x.1 = r) && x.2)), arrived := [], phase := !b.phase,
                phases := (b.phases + 1) % 2 ^ 32 }, true)
    else ({ b with arrived := arr }, false)

/-- BARRIER_ARRIVAL at the root. -/
def takeArrival (p : Packet) (m : TreeMsg) (s : State) : State :=
  match m, s.gang p.gang with
  | .arrival j rank drop, some g => match g.bars[j]? with
    | none => s
    | some b =>
      let r := b.arrive rank drop
      let s := s.modGang g.id (fun g => { g with bars := setAt g.bars j r.1 })
      if r.2 then b.members.foldl (fun s q => s.send (treeDown g.tenant g.id (g.coreOf q) (.completion j (b2n r.1.phase) r.1.phases))) s else s
  | _, _ => s

def isArrival : TreeMsg → Bool
  | .arrival _ _ _ => true
  | _ => false

/-- Is the gang away, so that its own core number would not be that of its restored core (R292)? -/
def gangAway (s : State) (gang : Nat) : Bool := (s.gang gang).any Gang.away

def execBarrierArrival (k : Nat) (s : State) : Host.Outcome State Fault Refusal := onTree s k isArrival false takeArrival

/-- BARRIER_COMPLETION at a member's leaf (R274). -/
def takeCompletion (p : Packet) (m : TreeMsg) (s : State) : State :=
  match p.dst, m with
  | .core c, .completion j phase phases =>
    let k := s.core c
    let b := k.bar j
    if k.gang ≠ some p.gang ∨ b.alloc = false then s
    else
      let k := k.setBar j { b with arrived := false, member := b.member && !b.drop, drop := false, phase := decide (phase = 1), phases := phases }
      (deviceMessage (s.setCore c k) c b.ch (BitVec.ofNat 64 (phases * 2 ^ 32 + phase * 256 + j)) senderHub .barrier).1
  | _, _ => s

def isCompletion : TreeMsg → Bool
  | .completion _ _ _ => true
  | _ => false

def execBarrierCompletion (k : Nat) (s : State) : Host.Outcome State Fault Refusal := onTree s k isCompletion true takeCompletion

/-! The trees (R245) -/

/-- A solicit reaches the root: the census begins, and the solicit goes to every core of the sub-mesh (R237). -/
def rootSolicit (s : State) (p : Packet) (t op key mask arg : Nat) : State :=
  match s.gang p.gang with
  | none => s
  | some g =>
    let x : Census := { tenant := p.tenant, slot := t, op := op, gang := g.id, gslot := (g.cslots.findIdx? (fun y => decide (y = t))).getD 0,
                        key := key, kmask := mask, arg := arg, sent := [], got := [] }
    let s := { s with hub := { s.hub with census := s.hub.census ++ [x] } }
    (s.subMesh p.tenant).foldl (fun s c => s.send (treeDown p.tenant g.id c (.solicit t op key mask arg))) s

/-- A free reaches the root: barrier j is free there, and every leaf of the gang is told (R273). -/
def rootFree (s : State) (p : Packet) (j : Nat) : State :=
  match s.gang p.gang with
  | none => s
  | some g =>
    if (g.bars[j]?).any BarRoot.alloc then
      let s := s.modGang g.id (fun g => { g with bars := setAt g.bars j ⟨false, [], [], false, 0⟩ })
      g.cores.foldl (fun s c => s.send (treeDown g.tenant g.id c (.freeDown j))) s
    else s

/-- A free reaches a leaf. -/
def leafFree (s : State) (p : Packet) (c j : Nat) : State :=
  s.modCore c (fun k => if k.gang = some p.gang then k.setBar j Bar.reset else k)

/-- Any packet of the trees where it arrives. -/
def takeTree (p : Packet) (m : TreeMsg) (s : State) : State :=
  match p.dst, m with
  | .hub, .solicit t op key mask arg => rootSolicit s p t op key mask arg
  | .hub, .close t =>
    (match s.gang p.gang with
     | some g => startClose s p.tenant t g.id ((g.cslots.findIdx? (fun y => decide (y = t))).getD 0)
     | none => s)
  | .hub, .closeAck _ => takeCloseAck p m s
  | .hub, .arrival _ _ _ => takeArrival p m s
  | .hub, .freeUp j => rootFree s p j
  | .core c, .freeDown j => leafFree s p c j
  | .core _, .solicit _ _ _ _ _ => takeSolicit p m s
  | .core c, .close t => closeAt s c p.tenant p.gang t
  | .core _, .closeAck _ => takeCloseAck p m s
  | .core _, .completion _ _ _ => takeCompletion p m s
  | .core _, .offer _ _ => takeOffer p m s
  | _, _ => s

/-- Is a tree message to a core meant for the core of one gang? -/
def forGang : TreeMsg → Bool
  | .completion _ _ _ | .freeDown _ => true
  | _ => false

/-- TREE: a packet of the escapement or repeater tree is received. -/
def execTree (k : Nat) (s : State) : Host.Outcome State Fault Refusal :=
  .next (match s.arrival k with
    | some (p, s') => match p.body with
      | .tree _ m => if treeReaches s p (forGang m) then takeOfHub p m takeTree s' else s
      | _ => s
    | none => s)

end Sys2Proof.Machine
end

