-- ==== Sys2Proof/Machine/Branch.lean ====
section
/-! DEFINITION. Branches and jumps (R133, R134). -/

namespace Sys2Proof.Machine

/-- A conditional branch: the target where the condition holds, else the next instruction (R133). -/
def branch (i : Instr) (a b : BitVec 5) (o : BitVec 16) (cond : Dword → Dword → Bool) (s : State) : Host.Outcome State Fault Refusal :=
  issue i s (fun s => if cond (s.reg a) (s.reg b) then s.setPc (s.pc + (sext o <<< 2)) else s.advance)

def execBeq (a b : BitVec 5) (o : BitVec 16) (s : State) := branch (.beq a b o) a b o (fun x y => x == y) s
def execBne (a b : BitVec 5) (o : BitVec 16) (s : State) := branch (.bne a b o) a b o (fun x y => x != y) s
def execBlt (a b : BitVec 5) (o : BitVec 16) (s : State) := branch (.blt a b o) a b o (fun x y => x.slt y) s
def execBge (a b : BitVec 5) (o : BitVec 16) (s : State) := branch (.bge a b o) a b o (fun x y => !x.slt y) s
def execBltu (a b : BitVec 5) (o : BitVec 16) (s : State) := branch (.bltu a b o) a b o (fun x y => x.ult y) s
def execBgeu (a b : BitVec 5) (o : BitVec 16) (s : State) := branch (.bgeu a b o) a b o (fun x y => !x.ult y) s

/-- A jump links, then goes to its target (R134). -/
def jump (s : State) (d : BitVec 5) (t : Dword) : State := s.modMe (fun x => { x.setReg d (x.pc + 4) with pc := t })

def execJal (d : BitVec 5) (o : BitVec 21) (s : State) := issue (.jal d o) s (fun s => jump s d (s.pc + (sext o <<< 2)))

/-- JALR: a target that is not 4-aligned traps ALIGN and links nothing (R134). -/
def execJalr (d a : BitVec 5) (i : BitVec 16) (s : State) := issue (.jalr d a i) s (fun s =>
  let t := s.ea a i
  if field t 1 0 ≠ 0 then trapHere s causeAlign t else jump s d t)

end Sys2Proof.Machine
end

