-- ==== Sys2Proof/Machine/Fabric.lean ====
section
/-! DEFINITION. The scale-up fabric: the pod graph (R317), routing (R318, R319), flows (R321), packets as bytes (R309, R310, R319),
and the links with their flits, keys and replays (R322 to R324). -/

namespace Sys2Proof.Machine

/-! The pod graph (R317) -/

/-- One step of a product in GF(32): a times x modulo x⁵ + x² + 1. -/
def gfDouble (a : Nat) : Nat := if 16 ≤ a then (2 * a) ^^^ 37 else 2 * a

/-- The product of two elements of GF(32). -/
def gfMul (a b : Nat) : Nat :=
  ((List.range 5).foldl (fun acc i => (if b.testBit i then acc.1 ^^^ acc.2 else acc.1, gfDouble acc.2)) (0, a)).1

/-- The homogeneous coordinates of a point. -/
def podPoint (p : Nat) : Nat × Nat × Nat :=
  if p < 1024 then (1, p / 32, p % 32) else if p < 1056 then (0, 1, p - 1024) else (0, 0, 1)

/-- Are two points orthogonal? -/
def orthogonal (p q : Nat) : Bool :=
  let u := podPoint p
  let v := podPoint q
  decide (gfMul u.1 v.1 ^^^ gfMul u.2.1 v.2.1 ^^^ gfMul u.2.2 v.2.2 = 0)

/-- The neighbours of a point in ascending order: neighbour i is on port i. -/
def podNeighbours (p : Nat) : List Nat := (List.range 1057).filter (fun q => decide (q ≠ p) && orthogonal p q)

/-- HOPS and PORT of the minimal route from p to q (R318). -/
def minimalRoute (p q : Nat) : Nat × Nat :=
  let ns := podNeighbours p
  if p = q then (0, 0)
  else match ns.findIdx? (fun n => decide (n = q)) with
    | some i => (1, i)
    | none => (2, (ns.findIdx? (fun n => orthogonal n q)).getD 0)

def devPoint (dev : Nat) : Nat := dev % 2048
def devPod (dev : Nat) : Nat := dev / 2048

/-! The routing table (R318) -/

def routeValid (e : BitVec 128) : Bool := bit e 127
def routeNint (e : BitVec 128) : Nat := field e 11 8
def routeInt (e : BitVec 128) (k : Nat) : Nat := field e (22 + 11 * k) (12 + 11 * k)
def routePort (e : BitVec 128) : Nat := field e 5 0

/-- Is an entry one that the fabric manager writes for a destination point: not valid, or as it computes it? -/
def routeLegal (own point : Nat) (e : BitVec 128) : Bool :=
  !routeValid e || (decide (routeNint e ≤ 8) && decide ((field e 7 6, routePort e) = minimalRoute own point))

/-- An entry without its reserved bits (R4). -/
def routeStored (e : BitVec 128) : BitVec 128 := e &&& ~~~((2 ^ 127 - 2 ^ 100 : Nat) : BitVec 128)

def Fabric.entry (f : Fabric) (point : Nat) : BitVec 128 := sget 0 f.routing point

/-- Does an entry leave the route of a flow as it is while packets of the flow are unacknowledged (R321)? -/
def Flow.keeps (fl : Flow) (old new : BitVec 128) : Bool :=
  (decide (fl.unacked = 0) || (routeValid new == routeValid old && (decide (fl.route = 0) || decide (routeInt new (fl.route - 1) = routeInt old (fl.route - 1)))))
    && decide (fl.route ≤ routeNint new)

/-- The fabric manager writes a routing entry (R318, R321), while its image is there (R330). -/
def writeRoute (s : State) (point : Nat) (e : BitVec 128) : State :=
  if point < 1057 ∧ routeLegal (devPoint s.fab.device) point e = true ∧ s.fw.absent 4 = false
      ∧ s.fab.flows.all (fun fl => decide (devPoint fl.ddev ≠ point) || fl.keeps (s.fab.entry point) e) = true then
    { s with fab := { s.fab with routing := sset 0 s.fab.routing point (routeStored e) } }
  else s

/-- The fabric manager places a device in a tenant's partition, or takes it out (R52, R127). -/
def placeDevice (s : State) (tenant dev : Nat) (placed : Bool) : State :=
  if s.fw.absent 4 then s
  else
    let others := s.fab.partition.filter (fun x => decide (x ≠ (tenant, dev)))
    { s with fab := { s.fab with partition := if placed then (tenant, dev) :: others else others } }

/-! Links -/

def Fabric.link (f : Fabric) (l : Link) : Option LinkState := f.links.find? (fun x => decide (x.link = l))

def State.setLink (s : State) (x : LinkState) : State :=
  { s with fab := { s.fab with links := s.fab.links.map (fun y => if y.link = x.link then x else y) } }

def Fabric.portUp (f : Fabric) (n : Nat) : Bool := (f.link (.port n)).any (fun x => x.present && x.up)

/-! Forwarding (R319) -/

/-- Where a fabric packet goes next. -/
inductive Hop where
  | here
  | port (n : Nat)
  /-- the port it would leave on is down: it waits in the hub (R329) -/
  | wait (n : Nat)
  | refuse
deriving DecidableEq, Repr

/-- A site port for another pod (R319). -/
def Fabric.sitePort (f : Fabric) (pod : Nat) : Hop :=
  match ((List.range 4).map (fun j => 33 + (pod + j) % 4)).find? f.portUp with
  | some n => .port n
  | none => .wait (33 + pod % 4)

/-- The minimal way towards a point; an entry that is not valid leads nowhere (log 24). -/
def Fabric.towards (f : Fabric) (point : Nat) : Hop :=
  let e := f.entry point
  if routeValid e = false then .refuse
  else if f.portUp (routePort e) then .port (routePort e) else .wait (routePort e)

/-- The intermediate that ROUTE = k names: of this device's table for its own packets, of the source's otherwise (log 24). -/
def Fabric.intermediate (f : Fabric) (p : FabPacket) : Nat :=
  if p.sdev = f.device then routeInt (f.entry (devPoint p.ddev)) (p.route - 1)
  else Config.sourceIntermediate p.sdev (devPoint p.ddev) (p.route - 1)

/-- The rules of R319, the first that applies; `site` where the packet has come in on a site port. -/
def Fabric.hop (f : Fabric) (site : Bool) (p : FabPacket) : FabPacket × Hop :=
  if 9 ≤ p.route ∨ 1056 < devPoint p.ddev ∨ (site = true ∧ devPod p.ddev ≠ devPod f.device) then (p, .refuse)
  else if p.ddev = f.device then (p, .here)
  else if devPod p.ddev ≠ devPod f.device then (p, f.sitePort (devPod p.ddev))
  else
    let p := if p.route ≠ 0 ∧ f.intermediate p = devPoint f.device then { p with route := 0 } else p
    (p, f.towards (if p.route = 0 then devPoint p.ddev else f.intermediate p))

/-- Queue a packet at a port. -/
def enqueue (s : State) (n : Nat) (p : FabPacket) : State :=
  match s.fab.link (.port n) with
  | some l => s.setLink { l with queue := l.queue ++ [.packet p] }
  | none => s

/-! Flows (R321) -/

/-- Answers that a packet expects, or brings. -/
def answersOf (t : Tag) : Nat :=
  match t with
  | .retained _ idx => idx.length
  | .none => 0
  | _ => 1

/-- The answers that a packet of a flow still expects, end to end: none if it is an answer itself. -/
def expectsOf (p : Packet) : Nat := if isAnswer p then 0 else answersOf p.tag

/-- What TAG stands for: an answer of some elements of a packet still carries the packet's. -/
def tagKey : Tag → Tag
  | .retained uid _ => .retained uid []
  | t => t

/-- The number of a core, of this device or another. -/
def coreNumber : Node → Nat
  | .core n | .foreign _ n => n
  | _ => 0

/-- n answers to a core under a tag have come. -/
def settleAsked (core : Nat) (tag : Tag) : Nat → List Asked → List Asked
  | _, [] => []
  | n, a :: l =>
    if a.core = core ∧ a.tag = tagKey tag then (if n < a.left then { a with left := a.left - n } :: l else settleAsked core tag (n - a.left) l)
    else a :: settleAsked core tag n l

def Flow.settle (fl : Flow) (core : Nat) (tag : Tag) (n : Nat) : Flow := { fl with out := settleAsked core tag n fl.out }

/-- A packet of the flow leaves on a port, or comes back unsent. -/
def Flow.ask (fl : Flow) (p : Packet) (port : Nat) : Flow :=
  { fl with port := port, out := if expectsOf p = 0 then fl.out else fl.out ++ [⟨coreNumber p.src, tagKey p.tag, expectsOf p⟩] }

def Flow.unask (fl : Flow) (p : Packet) : Flow := fl.settle (coreNumber p.src) p.tag (expectsOf p)

/-- The flow whose packet an answer to a core answers, whatever device has sent it. -/
def Fabric.asking (f : Fabric) (q : Packet) : Option Flow :=
  f.flows.find? (fun fl => decide (fl.tenant = q.tenant) && fl.out.any (fun a => decide (a.core = coreNumber q.dst) && decide (a.tag = tagKey q.tag)))

def Fabric.flow (f : Fabric) (tenant dev : Nat) : Flow :=
  (f.flows.find? (fun x => decide (x.tenant = tenant) && decide (x.ddev = dev))).getD ⟨tenant, dev, 0, [], [], none, 0⟩

def State.setFlow (s : State) (x : Flow) : State :=
  { s with fab := { s.fab with flows := s.fab.flows.filter (fun y => !(decide (y.tenant = x.tenant) && decide (y.ddev = x.ddev))) ++ [x] } }

/-- The packet of a foreign core as this device names its ends; it enters the mesh on the HUB channel. None for what no core sends to a
core of another device, and for a destination that is no core: only the hub sends what the hub sends, and nothing from outside reaches a
station (R308, R312; log 73). -/
def inbound (p : FabPacket) : Option Packet :=
  match p.packet.src, p.packet.dst, p.packet.body with
  | _, _, .hub _ _ | _, _, .tree _ _ | _, _, .repair _ _ | _, _, .move _ | _, _, .release _ => none
  | .core c, .foreign _ d, _ => if d < 4608 then some { p.packet with src := .foreign p.sdev c, dst := .core d, vc := .hub } else none
  | _, _, _ => none

/-- Is a packet of a KIND, CLASS or DTYPE that no device sends (R309)? -/
def isReserved (p : Packet) : Bool :=
  match p.body with
  | .reserved _ _ _ => true
  | _ => false

/-- A fabric packet enters the mesh: an answer settles the flow that asked; a request of a device outside its tenant's partition matches
no window's source (R127), and one of a reserved kind is for its destination to discard (R309). -/
def deliverFabric (s : State) (p : FabPacket) : State :=
  match inbound p with
  | none => reportLink s
  | some q =>
    if isAnswer q then
      (match s.fab.asking q with
       | some fl => s.setFlow (fl.settle (coreNumber q.dst) q.tag (answersOf q.tag))
       | none => s).send q
    else if s.fab.placed q.tenant p.sdev || isReserved q then s.send q
    else s.send (answer q q.tag (.nak causeRefused false (Body.addr q.body)))

/-- The NAK of cause ROUTE that a refused packet gets: to an answer it names nothing, for it is no answer to anything its source has asked
for. -/
def routeRefusal (p : Packet) : Packet :=
  answer p (if isAnswer p then .none else p.tag) (.nak causeRoute false (Body.addr p.body))

/-- A packet of this device for another one leaves on its flow's route; it waits in the hub where that port is down, and where the flow
would leave on another port while packets of it are unacknowledged (R319, R321). -/
def launchFabric (s : State) (dev : Nat) (p : Packet) : State :=
  let fl := s.fab.flow p.tenant dev
  let hold := s.setFlow { fl with held := fl.held ++ [p] }
  match s.fab.hop false ⟨fl.route, s.fab.device, dev, p⟩ with
  | (q, .here) => deliverFabric s q
  | (q, .port n) => if fl.unacked ≠ 0 ∧ fl.port ≠ n then hold else enqueue (s.setFlow (fl.ask p n)) n q
  | (_, .wait _) => hold
  | (_, .refuse) => s.send (routeRefusal p)

/-- A packet for a foreign device reaches the hub: it leaves, or waits there while its flow's route is to change or earlier packets
of the flow wait (R321). -/
def outboundAtHub (s : State) (dev : Nat) (p : Packet) : State :=
  let fl := s.fab.flow p.tenant dev
  if fl.next.isSome ∨ fl.held ≠ [] then s.setFlow { fl with held := fl.held ++ [p] } else launchFabric s dev p

/-- A fabric packet is refused: the NAK goes to its source, to another device in the flow of its tenant for that device, as every packet of
this device does (R321). The spec names no sender for it, and it comes as from core 0 of the device that refuses, which SDEV names
(log 92). -/
def refuseFabric (s : State) (p : FabPacket) : State :=
  let nak := routeRefusal p.packet
  if p.sdev = s.fab.device then (s.setFlow ((s.fab.flow p.packet.tenant p.ddev).unask p.packet)).send nak
  else match nak.dst with
    | .core c => outboundAtHub s p.sdev { nak with src := .core 0, dst := .foreign p.sdev c, vc := .hub }
    | _ => s

/-- Forward a fabric packet that has come in (R319); where its port is down it waits (R329). -/
def forwardFabric (s : State) (site : Bool) (p : FabPacket) : State :=
  match s.fab.hop site p with
  | (p, .here) => deliverFabric s p
  | (p, .port n) | (p, .wait n) => enqueue s n p
  | (p, .refuse) => refuseFabric s p

/-- FLOW_ROUTE_CHANGE: with nothing of the flow unacknowledged end to end its route changes, and what waits leaves; until then new
packets of the flow wait (R321). A route is minimal or an intermediate of the entry. -/
def execFlowRouteChange (tenant ddev route : Nat) (s : State) : Host.Outcome State Fault Refusal :=
  let fl := s.fab.flow tenant ddev
  .next (
    if s.fab.names ddev = false ∨ ddev = s.fab.device ∨ routeNint (s.fab.entry (devPoint ddev)) < route ∨ s.fw.absent 4 = true then s
    else if fl.unacked ≠ 0 then s.setFlow { fl with next := some route }
    else fl.held.foldl (fun s p => launchFabric s ddev p) (s.setFlow { fl with route := route, next := none, held := [] }))

/-! Packets as bytes (R309, R310, R319) -/

/-- KIND of a packet; that of a directory move's messages and of the release of a held part is the model's choice (log 99). -/
def kindCode : Body → Nat
  | .elements _ _ | .applying _ _ _ => 1
  | .partway false _ _ _ _ => 2
  | .load _ _ _ | .heldLoad _ _ => 2
  | .amo _ _ _ _ _ => 3
  | .hdrRead _ | .hdrWrite _ _ => 4
  | .block _ _ _ _ _ | .heldWrite _ _ | .crediting _ _ | .partway true _ _ _ _ => 5
  | .send _ _ _ => 6
  | .ack _ | .held => 7
  | .nak _ _ _ => 8
  | .reply _ _ => 9
  | .tree _ _ => 10
  | .hub _ _ | .release _ | .move _ => 11
  | .repair _ _ => 12
  | .reserved k _ _ => k

/-- Data flits of a packet. -/
def dataFlits : Body → Nat
  | .elements es _ => (es.length + 3) / 4
  | .block _ bs _ _ _ | .heldWrite _ bs | .reply bs _ => (bs.length + 63) / 64
  | _ => 0

/-- DTYPE of a node. -/
def nodeType : Node → Nat
  | .station _ => 1
  | .hub => 2
  | _ => 0

/-- CLASS of a packet: 1 between a core and a station, 2 where an end is a hub router, else 0. -/
def packetClass (p : Packet) : Nat :=
  match p.body with
  | .reserved _ c _ => c
  | _ => if nodeType p.src = 2 ∨ nodeType p.dst = 2 then 2 else if nodeType p.src = 1 ∨ nodeType p.dst = 1 then 1 else 0

/-- DTYPE of a packet: what DEST names. -/
def packetType (p : Packet) : Nat :=
  match p.body with
  | .reserved _ _ d => d
  | _ => nodeType p.dst

/-- The number in SRC or DEST of a node: core, station or hub router. -/
def nodeNumber (b : Body) : Node → Nat
  | .core n | .station n | .foreign _ n => n
  | .hub => Config.hubRouter b % 8

/-- TAG: an answer returns its request's unchanged. -/
def packetTag (p : Packet) : Nat := Config.requestTag (nodeNumber p.body (if isAnswer p then p.dst else p.src)) (tagKey p.tag)

/-- The channel a packet credits. -/
def creditOf : Body → Option Nat
  | .elements _ cdc => if cdc.testBit 6 then some (cdc % 64) else none
  | .block _ _ _ _ ch => ch
  | _ => none

/-- The first 16 bytes of the header flit; TENANT is 0 in the hub's own packets (R309). -/
def headerBytes (p : Packet) : List Byte :=
  let ch := creditOf p.body
  let n := match p.body with
    | .elements es _ => es.length
    | _ => 0
  leBytes 8 (kindCode p.body % 256 * 2 ^ 56 + (if p.src = .hub then 0 else p.tenant % 256) * 2 ^ 48 + packetClass p % 4 * 2 ^ 46 + packetType p % 4 * 2 ^ 44
      + dataFlits p.body % 8 * 2 ^ 41 + b2n ch.isSome * 2 ^ 40 + ch.getD 0 % 64 * 2 ^ 34 + nodeNumber p.body p.src % 8192 * 2 ^ 13
      + nodeNumber p.body p.dst % 8192)
    ++ leBytes 8 ((if packetClass p = 1 then p.asid % 65536 * 2 ^ 48 else 0) + n % 32 * 2 ^ 43 + p.slot % 8 * 2 ^ 40 + packetTag p % 65536)

/-- The record of an element (R310). -/
def elementBytes (station : Bool) (e : Element) : List Byte :=
  let addr := if station then field e.addr 55 0 else field e.addr 19 0 + e.mult % 65536 * 2 ^ 20
  leBytes 8 e.value.toNat ++ leBytes 8 (widthCode e.width * 2 ^ 62 + ItemKind.code .elem e.op * 2 ^ 57 + addr)

/-- Exactly n bytes of a list, zeros where it ends. -/
def padTo (n : Nat) (l : List Byte) : List Byte := (l ++ List.replicate n 0#8).take n

/-- Mask and cause of the answer to an ELEMENTS packet (R310). -/
def answerBytes (p : Packet) : List Byte :=
  let mask := match p.tag with
    | .retained _ idx => idx.foldl (fun a j => a + 2 ^ j) 0
    | _ => 0
  match p.body with
  | .nak cause _ _ => leBytes 2 mask ++ leBytes 1 cause
  | _ => leBytes 2 mask

/-- A mesh packet as bytes; what R309 and R310 leave open is free (log 20). -/
def packetBytes (p : Packet) : List Byte :=
  match p.body with
  | .elements es _ => headerBytes p ++ List.replicate 48 0#8 ++ padTo (64 * dataFlits p.body) (es.flatMap (elementBytes (decide (packetType p = 1))))
  | .ack _ | .nak _ _ _ => headerBytes p ++ padTo 48 (answerBytes p)
  | b => headerBytes p ++ padTo (48 + 64 * dataFlits b) (Config.wireBytes p)

/-- Bytes of the mesh packet: PLEN. -/
def packetLen (p : Packet) : Nat := 64 * (1 + dataFlits p.body)

/-- The fabric header (R319). -/
def fabricHeader (p : FabPacket) : List Byte :=
  leBytes 8 (p.route % 16 * 2 ^ 44 + p.sdev % 2 ^ 22 * 2 ^ 22 + p.ddev % 2 ^ 22) ++ leBytes 8 (packetLen p.packet)

def fabricBytes (p : FabPacket) : List Byte := fabricHeader p ++ packetBytes p.packet
def fabricLen (p : FabPacket) : Nat := 16 + packetLen p.packet

def Cargo.bytes : Cargo → List Byte
  | .packet p => fabricBytes p
  | .message bs => bs

def Cargo.len : Cargo → Nat
  | .packet p => fabricLen p
  | .message bs => bs.length

/-- FABRIC_PACKET: a packet whose bytes a port has received whole, in order, is taken and forwarded (R319, R322). -/
def execFabricPacket (port : Nat) (p : FabPacket) (s : State) : Host.Outcome State Fault Refusal :=
  .next (match s.fab.link (.port port) with
    | none => s
    | some l =>
      if l.rxBytes.take (fabricLen p) ≠ fabricBytes p then s
      else forwardFabric (s.setLink { l with rxBytes := l.rxBytes.drop (fabricLen p) }) (decide (33 ≤ port)) p)

/-! Sealing flits (R322, R323) -/

/-- The most IC may reach under one key (R323). -/
def icLimit : Nat := 2 ^ 62

def LinkState.txSlot (l : LinkState) : KeySlot := if l.cur = 0 then l.tx0 else l.tx1
def LinkState.setTx (l : LinkState) (n : Nat) (x : KeySlot) : LinkState := if n = 0 then { l with tx0 := x } else { l with tx1 := x }
def LinkState.tx (l : LinkState) (n : Nat) : KeySlot := if n = 0 then l.tx0 else l.tx1
def LinkState.rx (l : LinkState) (n : Nat) : KeySlot := if n = 0 then l.rx0 else l.rx1
def LinkState.setRx (l : LinkState) (n : Nat) (x : KeySlot) : LinkState := if n = 0 then { l with rx0 := x } else { l with rx1 := x }

/-- The session a flit of a link names. -/
def linkSession : Link → Nat
  | .port _ => 0
  | .prenor n => n

/-- Is a link a session of the Prenor link? -/
def isPrenor : Link → Bool
  | .prenor _ => true
  | .port _ => false

/-- Seal a flit under the slot in use: its IC counts (R322). -/
def LinkState.sealFlit (l : LinkState) (typ lseq : Nat) (payload : List Byte) : LinkState × Flit :=
  let k := l.txSlot
  (l.setTx l.cur { k with ic := k.ic + 1 },
   { typ := typ, ks := l.cur, session := linkSession l.link, len := payload.length, lseq := lseq, ic := k.ic, payload := payload, authentic := true })

/-- Seal a DATA or MARKER flit: it takes the next LSEQ and stays until it is acknowledged (R323, R324; log 20). -/
def LinkState.sealSequenced (l : LinkState) (typ : Nat) (payload : List Byte) : LinkState :=
  let r := l.sealFlit typ l.lseq payload
  { r.1 with lseq := (l.lseq + 1) % 2 ^ 32, unacked := r.1.unacked ++ [⟨r.2, 0⟩] }

/-- The bytes of the packets at a port that are not sealed yet. -/
def LinkState.unsealed (l : LinkState) : List Byte := (l.queue.flatMap Cargo.bytes).drop l.sealed

/-- The sender of a link seals its next flit of a type: nothing goes out on a link that is down or without a key, no DATA flit where
IC has reached its limit (R322, R323). -/
def sealNext (s : State) (link : Link) (typ : Nat) : State :=
  match s.fab.link link with
  | none => s
  | some l =>
    if l.up = false ∨ l.txSlot.loaded = false then s
    else match typ with
      | 0 => s.setLink (l.sealFlit 0 l.lseq []).1
      | 1 =>
        let bs := l.unsealed.take 224
        if bs = [] ∨ icLimit ≤ l.txSlot.ic then s else s.setLink { l.sealSequenced 1 bs with sealed := l.sealed + bs.length }
      | _ =>
        (match l.owed.find? (fun o => decide (o.1 = typ)) with
         | some o => s.setLink { (l.sealFlit typ l.lseq (leBytes 4 o.2)).1 with owed := l.owed.erase o }
         | none => s)

/-- KEY_SWITCH: a MARKER ends the use of the slot, and every later flit is sealed under the other, which must be loaded (R323). -/
def execKeySwitch (link : Link) (s : State) : Host.Outcome State Fault Refusal :=
  .next (match s.fab.link link with
    | none => s
    | some l =>
      let o := 1 - l.cur
      if l.up = false ∨ l.txSlot.loaded = false ∨ (l.tx o).loaded = false ∨ (l.tx o).retiring = true then s
      else
        let m := l.sealSequenced 2 []
        s.setLink { m.setTx m.cur { m.txSlot with retiring := true } with cur := o })

/-- The salt of the k-th key that a session's link takes in a direction, from the session's secret (R338); a port's salt is agreed
outside the part. -/
def slotSalt (f : Fabric) (link : Link) (toHost : Bool) (k : Nat) (salt : Word) : Word :=
  match link with
  | .port _ => salt
  | .prenor n => match f.sessions.find? (fun x => decide (x.id = n)) with
    | some x => match x.z with
      | some z => (Config.hkdf z x.nt x.nd (2 * k + b2n toHost)).extractLsb' 256 32
      | none => salt
    | none => salt

/-- Load an idle slot of the sending direction: the slot in use if it is not loaded, else the other. -/
def LinkState.loadTx (l : LinkState) (salt : Nat → Word) : LinkState :=
  let n := if l.txSlot.loaded then 1 - l.cur else l.cur
  if (l.tx n).loaded then l else { l.setTx n ⟨true, 0, salt l.txLoads, false⟩ with txLoads := l.txLoads + 1 }

/-- Load an idle slot of the receiving direction: one not loaded, or whose use a MARKER has ended. -/
def LinkState.loadRx (l : LinkState) (salt : Nat → Word) : LinkState :=
  let n := if l.rx0.loaded && !l.rx0.retiring then 1 else 0
  if (l.rx n).loaded && !(l.rx n).retiring then l else { l.setRx n ⟨true, 0, salt l.rxLoads, false⟩ with rxLoads := l.rxLoads + 1 }

/-- KEY_SLOT_LOAD: a slot in each direction that may be loaded (R323, R338). Loads wait while the security manager's image is
replaced (R330). -/
def execKeySlotLoad (link : Link) (salt : Word) (s : State) : Host.Outcome State Fault Refusal :=
  .next (match s.fab.link link with
    | none => s
    | some l =>
      if s.fw.absent 6 then s
      else s.setLink ((l.loadTx (fun k => slotSalt s.fab link true k salt)).loadRx (fun k => slotSalt s.fab link false k salt)))

/-! Receiving flits (R322 to R324) -/

/-- A flit that fails or comes out of order is discarded; the first LSEQ lacking is NAKed, and again when it is that flit itself which
comes and fails (R324). -/
def LinkState.lack (l : LinkState) (itself : Bool) : LinkState :=
  if l.nakSent && !itself then l else { l with nakSent := true, owed := l.owed ++ [(4, l.rxSeq)] }

/-- A sequenced flit in its turn. -/
def LinkState.accept (l : LinkState) (bytes : List Byte) : LinkState :=
  { l with rxBytes := l.rxBytes ++ bytes, rxSeq := (l.rxSeq + 1) % 2 ^ 32, nakSent := false, owed := l.owed ++ [(3, l.rxSeq)] }

/-- Packets whose last byte is acknowledged leave the port. -/
def dropAcked : List Cargo → Nat → Nat → List Cargo × Nat × Nat
  | [], sealed, acked => ([], sealed, acked)
  | p :: l, sealed, acked => if p.len ≤ acked then dropAcked l (sealed - p.len) (acked - p.len) else (p :: l, sealed, acked)

/-- Sequenced flits up to an LSEQ are acknowledged; a slot whose flits all are retires (R323, R324). -/
def LinkState.acknowledge (l : LinkState) (flits : List Sent) (rest : List Sent) : LinkState :=
  let bytes := (flits.map (fun x => if x.flit.typ = 1 then x.flit.len else 0)).foldl (· + ·) 0
  let q := dropAcked l.queue l.sealed (l.acked + bytes)
  let l := { l with unacked := rest, queue := q.1, sealed := q.2.1, acked := q.2.2 }
  let retire (n : Nat) (l : LinkState) : LinkState :=
    if (l.tx n).retiring && !l.unacked.any (fun x => decide (x.flit.ks = n)) then l.setTx n KeySlot.reset else l
  retire 1 (retire 0 l)

/-- An ACK of an LSEQ: that flit and every earlier one (R324). -/
def takeFlitAck (l : LinkState) (n : Nat) : LinkState :=
  match l.unacked.findIdx? (fun x => decide (x.flit.lseq = n)) with
  | some i => l.acknowledge (l.unacked.take (i + 1)) (l.unacked.drop (i + 1))
  | none => l

/-- The fabric packets at a port, oldest first. -/
def LinkState.packets (l : LinkState) : List FabPacket :=
  l.queue.filterMap (fun x => match x with
    | .packet p => some p
    | .message _ => none)

/-- A packet of a flow of this device comes back to the hub, before any later one of the flow (R321). -/
def heldAgain (s : State) (p : FabPacket) : State :=
  let fl := (s.fab.flow p.packet.tenant p.ddev).unask p.packet
  s.setFlow { fl with held := p.packet :: fl.held }

/-- The port hands back what it has not had acknowledged: the hub holds the packets of its own flows; those of other devices are
forwarded again, in order, and wait at the port only where no other leads on (R321, R329). -/
def handBack (s : State) (l : LinkState) : State :=
  let mine (p : FabPacket) : Bool := decide (p.sdev = s.fab.device)
  let messages := l.queue.filter (fun x => match x with
    | .packet _ => false
    | .message _ => true)
  let t := (l.packets.filter mine).reverse.foldl heldAgain s
  let t := t.setLink { l with up := false, queue := messages, sealed := 0, acked := 0, unacked := [] }
  (l.packets.filter (fun p => !mine p)).foldl (fun s p => forwardFabric s false p) t

/-- A link as a report names it: a port by its number, a session of the Prenor link from 64 on (log 74). -/
def linkCode : Link → Nat
  | .port n => n
  | .prenor n => 64 + n

/-- The port marks its link down: the loss is logged and told to the host through session 0 (R324, R329). -/
def linkLost (s : State) (l : LinkState) : State := (reportLink (handBack s l)).tellHost 0 0 8 0 [BitVec.ofNat 64 (linkCode l.link)]

/-- A NAK of an LSEQ: earlier flits have arrived, that one and every later one are replayed as they were sealed; a flit that has been
replayed three times marks the link down (R324). -/
def takeFlitNak (s : State) (l : LinkState) (n : Nat) : State :=
  match l.unacked.findIdx? (fun x => decide (x.flit.lseq = n)) with
  | none => s
  | some i =>
    let l := l.acknowledge (l.unacked.take i) (l.unacked.drop i)
    if l.unacked.any (fun x => decide (3 ≤ x.replays)) then linkLost s l
    else s.setLink { l with unacked := l.unacked.map (fun x => { x with replays := x.replays + 1 }) }

/-- Is a session of the Prenor link open: confirmed, with its keys (R325, R338)? -/
def Fabric.sessionOpen (f : Fabric) (n : Nat) : Bool := f.sessions.any (fun x => decide (x.id = n) && x.confirmed)

/-- A flit arrives at a link: one of a session that is not open, session 0 too, is discarded and reported (R325); one that does not
authenticate under a live slot, or a sequenced one out of order, is discarded and NAKed; a reserved TYPE is discarded and reported (R322).
-/
def receiveFlit (s : State) (link : Link) (f : Flit) : State :=
  match s.fab.link link with
  | none => reportLink s
  | some l =>
    if l.up = false then s
    else if isPrenor link = true ∧ s.fab.sessionOpen f.session = false then reportLink s
    else if f.session ≠ linkSession link ∨ f.authentic = false ∨ (l.rx f.ks).loaded = false ∨ 224 < f.len then s.setLink (l.lack (decide (f.lseq = l.rxSeq)))
    else match f.typ with
      | 0 => s
      | 1 => s.setLink (if f.lseq = l.rxSeq then l.accept (f.payload.take f.len) else l.lack false)
      | 2 => s.setLink (if f.lseq = l.rxSeq then (l.accept []).setRx f.ks { l.rx f.ks with retiring := true } else l.lack false)
      | 3 => s.setLink (takeFlitAck l (leNat (f.payload.take 4)))
      | 4 => takeFlitNak s l (leNat (f.payload.take 4))
      | _ => reportLink s

/-- The step of a flit of one TYPE; those of a reserved TYPE come with any of them. -/
def flitStep (typ : Nat) (link : Link) (f : Flit) (s : State) : Host.Outcome State Fault Refusal :=
  .next (if f.typ = typ ∨ 4 < f.typ then receiveFlit s link f else s)

def execFlitIdle (link : Link) (f : Flit) (s : State) := flitStep 0 link f s
def execFlitData (link : Link) (f : Flit) (s : State) := flitStep 1 link f s
def execFlitMarker (link : Link) (f : Flit) (s : State) := flitStep 2 link f s
def execFlitAck (link : Link) (f : Flit) (s : State) := flitStep 3 link f s
def execFlitNak (link : Link) (f : Flit) (s : State) := flitStep 4 link f s

end Sys2Proof.Machine
end

