-- ==== Sys2Proof/Machine/Fetch.lean ====
section
/-! DEFINITION. Fetching an instruction (R53, R141), choosing the slot that issues (R227), and the cycle of a core. -/

namespace Sys2Proof.Machine

/-- The word at an offset of the local store. -/
def Core.wordAt (k : Core) (off : Nat) : BitVec 32 := BitVec.ofNat 32 (readLE k.ls off 4)

/-- The word a slot issues: one fetched ahead, or the local store's (R141). -/
def Core.slotWord (k : Core) (i : Fin 5) : BitVec 32 :=
  match (k.slot i).fetched.find? (fun p => decide (p.1 = (k.slot i).pc.toNat)) with
  | some (_, w) => w
  | none => k.wordAt (k.slot i).pc.toNat

/-- What a fetch at an offset faults with: outside 0x0_0100 up to LSBYTES (R53), or a DEST lock (R112). -/
def Core.fetchCause (k : Core) (pc : Nat) : Option (Nat × Nat) :=
  if pc < 0x100 then some (causeLsbound, pc)
  else match (List.range 4).find? (fun j => decide (k.page.lsbytes ≤ pc + j)) with
    | some j => some (causeLsbound, pc + j)
    | none => ((List.range 4).find? (fun j => k.lockHits false (pc + j))).map (fun j => (causeRange, pc + j))

/-- What the fetch of a slot faults with; a word fetched ahead has passed its check. -/
def Core.slotFault (k : Core) (i : Fin 5) : Option (Nat × Nat) :=
  if (k.slot i).fetched.any (fun p => decide (p.1 = (k.slot i).pc.toNat)) then none else k.fetchCause (k.slot i).pc.toNat

/-- A word as the instruction the step executes: a word that is none takes the ILLEGAL step (R29). -/
def instrOfWord (w : BitVec 32) : Instr :=
  match decodeWord w with
  | .ok i => i
  | .error _ => .illegal w

/-- Can the oldest pending asynchronous trap of slot i be taken (R279)? -/
def Core.trapDue (k : Core) (i : Fin 5) : Bool := !(k.slot i).pendTraps.isEmpty && !(k.slot i).intrap && !k.midway i

/-- What a slot executes next: a pending trap first (R279), a fault of its fetch, or the word at its pc. -/
def Core.nextInstr (k : Core) (c : Nat) (i : Fin 5) : Instr :=
  if k.trapDue i then .asyncTrap c i.val
  else if (k.slotFault i).isSome then .fetchFault
  else instrOfWord (k.slotWord i)

/-- The state in which slot i of core c executes. -/
def State.asIssuer (s : State) (c : Nat) (i : Fin 5) : State := { s with issuer := (c, i) }

/-- Is a slot ready to issue (R227, R283)? -/
def State.ready (s : State) (c : Nat) (i : Fin 5) : Bool :=
  decide (((s.core c).slot i).state = .active) && !waitsAt ((s.core c).nextInstr c i) (s.asIssuer c i)

/-- The user slot that issues (R227): the highest priority, and after the slot that last issued at that priority; at a priority at which
none has issued yet slot 0 comes first, and a save keeps what has issued (the spec is silent: log 79). -/
def State.chooseSlot (s : State) (c : Nat) : Option (Fin 5) :=
  let k := s.core c
  let rs := (List.range 4).filter (fun i => s.ready c (slotNo i))
  let p := rs.foldl (fun m i => max m (k.slot (slotNo i)).prio) 0
  let start := match k.lastIssue.find? (fun e => decide (e.1 = p)) with
    | some (_, i) => i + 1
    | none => 0
  (((List.range 4).map (fun j => (start + j) % 4)).find? (fun i => rs.contains i && decide ((k.slot (slotNo i)).prio = p))).map slotNo

/-! What a cycle of a core does beside issuing -/

/-- The user slots. -/
def userSlots : List (Fin 5) := [0, 1, 2, 3]

/-- A slot at an instruction boundary parks for a request of its own that awaits its repair, or for what its release waits for (R137,
R199, R201, R283). -/
def Core.parkDue (k : Core) (i : Fin 5) : Core :=
  if (k.slot i).state = .active ∧ k.midway i = false ∧ (k.requestParked i || ((k.slot i).fencing && k.releaseParked i.val)) = true then
    k.modSlot i (fun x => { x with state := .parked })
  else k

/-- Has the end of its gang reached a core, whose slots are to stop (R265 step 1)? -/
def State.stopsHere (s : State) (c : Nat) : Bool := s.endingAt c && !(s.core c).matching && decide ((s.core c).ctl.pre = .none)

/-- A slot that was part-way through a VSTS or VSCATTER stops at its boundary. -/
def Core.stopDue (k : Core) (i : Fin 5) : Core :=
  if (k.slot i).state = .active ∧ (k.slot i).lanes = 0 then k.modSlot i (fun x => { x with state := .stopped }) else k

/-- A slot whose access waits only for buffers to leave makes them due (R190). -/
def sendDue (s : State) (c : Nat) (i : Fin 5) : State :=
  let x := (s.core c).nextInstr c i
  let t := s.asIssuer c i
  if ((s.core c).slot i).state = .active ∧ operandsWait x t = false ∧ specialWait x t = true then
    s.modCore c (fun k => k.modNi (fun ni => ni.makeDue (sendsFirst x t)))
  else s

/-- A core's clock passes one cycle: CYCLE counts, slots park or stop at their boundary, the NI tests its buffers, and a record waiting
for the fault ring is tried again (R25, R190, R209). -/
def tickCore (s : State) (c : Nat) : State :=
  let s := s.modCore c (fun k => userSlots.foldl Core.parkDue { k with cycle := k.cycle + 1 })
  let s := if s.stopsHere c then s.modCore c (fun k => userSlots.foldl Core.stopDue k) else s
  recordWaiting (niCycle (userSlots.foldl (fun s i => sendDue s c i) s) c) c

/-- Slot i of core c begins to issue: its word is no longer held as fetched ahead, and it has issued last at its priority
(R141, R227). -/
def State.startIssue (s : State) (c : Nat) (i : Fin 5) : State :=
  (s.modCore c (fun k =>
    let x := k.slot i
    { k.setSlot i { x with fetched := x.fetched.filter (fun p => decide (p.1 ≠ x.pc.toNat)) } with
      lastIssue := sset 4 k.lastIssue x.prio i.val })).asIssuer c i

/-- The ILLEGAL step (R29). -/
def execIllegal (word : BitVec 32) (s : State) : Host.Outcome State Fault Refusal :=
  .next (fatal s causeIllegal (zext word))

/-- The fault of a fetch: LSBOUND ends the gang, RANGE is a user trap (R53, R112). -/
def execFetchFault (s : State) : Host.Outcome State Fault Refusal :=
  match s.here.slotFault s.issuer.2 with
  | some f => .next (raise s s.pc f)
  | none => .next s

end Sys2Proof.Machine
end

