-- ==== Sys2Proof/Machine/Pool.lean ====
section
/-! DEFINITION. Launch records, dependence counters and the pool (R257 to R264), the end of a record (R265 steps 5 to 8, R266),
LAUNCH (R262) and cancelling (R270). -/

namespace Sys2Proof.Machine

/-! Launch records (R259) -/

def recImage (r : BitVec 512) : Dword := dwordAt r 0
def recWaitCtr (r : BitVec 512) : Dword := dwordAt r 1
def recWaitVal (r : BitVec 512) : Dword := dwordAt r 2
def recSigCtr (r : BitVec 512) : Dword := dwordAt r 3
def recCompRec (r : BitVec 512) : Dword := dwordAt r 4
def recPrioEn (r : BitVec 512) : Bool := bit r 320
def recNewGraph (r : BitVec 512) : Bool := bit r 321
def recNotEn (r : BitVec 512) : Bool := bit r 322
def recProcSet (r : BitVec 512) : Bool := bit r 323
def recPrio (r : BitVec 512) : Nat := field r 335 328
def recNotRank (r : BitVec 512) : Nat := field r 348 336
def recNotCh (r : BitVec 512) : Nat := field r 357 352
def recProcId (r : BitVec 512) : Nat := field r 367 360

/-! The image header (R257) -/

def imgW (h : BitVec 512) : Nat := field h 55 48
def imgH (h : BitVec 512) : Nat := field h 63 56
def imgLsBytes (h : BitVec 512) : Nat := field h 95 64
def imgLoadLen (h : BitVec 512) : Nat := field h 127 96
def imgNchan (h : BitVec 512) : Nat := field h 135 128
def imgNpat (h : BitVec 512) : Nat := field h 143 136
def imgNslot (h : BitVec 512) : Nat := field h 151 144
def imgNbar (h : BitVec 512) : Nat := field h 159 152
def imgNcen (h : BitVec 512) : Nat := field h 167 160
def imgPrio (h : BitVec 512) : Nat := field h 175 168
def imgTrapVec (h : BitVec 512) : Nat := field h 223 192
def imgFaultCh (h : BitVec 512) : BitVec 7 := h.extractLsb' 224 7
def imgFaultRing (h : BitVec 512) : Nat := field h 287 256
def imgCbTab (h : BitVec 512) : Nat := field h 319 288
def imgSrSeed (h : BitVec 512) : Dword := dwordAt h 5
def imgChanOff (h : BitVec 512) : Nat := field h 415 384
def imgPatOff (h : BitVec 512) : Nat := field h 447 416
def imgCbMask (h : BitVec 512) : Nat := field h 463 448

/-- Does a header keep R257? -/
def headerOk (h : BitVec 512) : Bool :=
  decide (field h 31 0 = 0x464F4C31) && decide (field h 47 32 = 1)
    && decide (1 ≤ imgW h) && decide (imgW h ≤ 72) && decide (1 ≤ imgH h) && decide (imgH h ≤ 64)
    && decide (512 ≤ imgLsBytes h) && decide (imgLsBytes h ≤ 393216) && aligned (imgLsBytes h) 64
    && aligned (imgLoadLen h) 64 && decide (imgLoadLen h ≤ imgLsBytes h - 256)
    && decide (imgNchan h ≤ 64) && decide (imgNpat h ≤ 32) && decide (1 ≤ imgNslot h) && decide (imgNslot h ≤ 4)
    && decide (imgNbar h ≤ 64) && decide (imgNcen h ≤ 16)
    && decide (field h 191 176 = 0) && decide (field h 255 232 = 0) && decide (field h 511 464 = 0)
    && aligned (imgTrapVec h) 4 && aligned (imgFaultRing h) 256 && aligned (imgCbTab h) 1024
    && aligned (imgChanOff h) 64 && aligned (imgPatOff h) 64
    && (decide (imgCbMask h = 0) || decide (imgCbTab h ≠ 0))

/-! The hub's accesses to device memory -/

/-- The cause of a hub access that cannot be translated: PROT where the memory manager has refused to map the page (R64). -/
def hubCause (m : DevMem) (asid : Nat) (e : Nat × Dword) : Nat :=
  if e.1 = causeXlate ∧ m.denied.contains (asid, nbits e.2.toNat 55 16) = true then causeProt else e.1

/-- A read of the hub under an ASID; an address in no device-memory form is PROT (log 31). -/
def hubRead (s : State) (asid : Nat) (va : Dword) (n : Nat) : State × Except Nat (List Byte × Header) :=
  if field va 63 56 ≠ 0x80 then (s, .error causeProt)
  else match mapRange s (stationOf (nbits va.toNat 55 0)) asid va false false (pageParts va n) with
    | (s, .error e) => (s, .error (hubCause s.mem asid e))
    | (s, .ok ms) => (s, .ok (readMapped s.mem ms, s.mem.header ((ms.head?.map Mapped.pa).getD 0)))

/-- A write of the hub under an ASID, its bytes only; the cause where it fails. -/
def hubWrite (s : State) (asid : Nat) (va : Dword) (bs : List Byte) : State × Option Nat :=
  if field va 63 56 ≠ 0x80 then (s, some causeProt)
  else match mapRange s (stationOf (nbits va.toNat 55 0)) asid va true false (pageParts va bs.length) with
    | (s, .error e) => (s, some (hubCause s.mem asid e))
    | (s, .ok ms) => ({ s with mem := writeMapped s.mem ms bs }, none)

/-! Dependence counters (R260) -/

def Hub.counter (h : Hub) (asid va : Nat) : Option Counter :=
  h.counters.find? (fun c => decide (c.asid = asid) && decide (c.va = va))

def Hub.setCounter (h : Hub) (c : Counter) : Hub :=
  { h with counters := h.counters.filter (fun x => !(decide (x.asid = c.asid) && decide (x.va = c.va))) ++ [c] }

/-- A counter's value: cached, or loaded the first time a record names it. -/
def loadCounter (s : State) (asid : Nat) (va : Dword) : State × Except Nat Dword :=
  match s.hub.counter asid va.toNat with
  | some c => (s, .ok c.value)
  | none =>
    match hubRead s asid va 8 with
    | (s, .error e) => (s, .error e)
    | (s, .ok r) =>
      let v := BitVec.ofNat 64 (leNat r.1)
      ({ s with hub := s.hub.setCounter ⟨asid, va.toNat, v, false⟩ }, .ok v)

/-- The scheduler evicts a counter, writing its word back; it stays while its page is not resident. -/
def evictCounter (s : State) (asid va : Nat) : State :=
  match s.hub.counter asid va with
  | none => s
  | some c =>
    let gone (s : State) : State := { s with hub := { s.hub with counters := s.hub.counters.filter (fun x => decide (x ≠ c)) } }
    match hubWrite s asid (BitVec.ofNat 64 va) (leBytes 8 c.value.toNat) with
      | (s', some cause) => if cause = causeXlate then s else gone s'
      | (s', none) => gone s'

/-! The pool -/

def Tenant.record (t : Tenant) (index : Nat) : Option PoolRec := t.pool.find? (fun r => decide (r.index = index))

def State.setRec (s : State) (tenant : Nat) (r : PoolRec) : State :=
  s.modTenant tenant (fun t => { t with pool := t.pool.map (fun x => if x.index = r.index then r else x) })

/-- Gangs left and graphs left go down (R263): a job's end is told to its tenant. -/
def graphLeft (s : State) (tenant graph : Nat) : State :=
  match s.tenant tenant with
  | none => s
  | some t =>
    match t.graphs.find? (fun g => decide (g.id = graph)) with
    | none => s
    | some g =>
      if 1 < g.left then s.modTenant tenant (fun t => { t with graphs := t.graphs.map (fun x => if x.id = graph then { x with left := x.left - 1 } else x) })
      else
        let s := s.modTenant tenant (fun t => { t with graphs := t.graphs.filter (fun x => decide (x.id ≠ graph)) })
        match t.jobs.find? (fun j => decide (j.id = g.job)) with
        | none => s
        | some j =>
          if 1 < j.left then s.modTenant tenant (fun t => { t with jobs := t.jobs.map (fun x => if x.id = g.job then { x with left := x.left - 1 } else x) })
          else (s.modTenant tenant (fun t => { t with jobs := t.jobs.filter (fun x => decide (x.id ≠ g.job)) })).tellTenant tenant [BitVec.ofNat 64 g.job]

/-- What the completion record says (R266). -/
structure EndInfo where
  status : Nat
  flags : Nat
  rank : Nat
  gangId : Nat
  tval : Dword
  epc : Dword
  dropped : Nat
deriving DecidableEq, Repr

/-- The 32 bytes of a completion record (R266). -/
def EndInfo.bytes (e : EndInfo) : List Byte :=
  leBytes 2 (e.status % 256) ++ leBytes 2 e.flags ++ leBytes 4 e.rank ++ leBytes 4 e.gangId ++ leBytes 8 e.tval.toNat
    ++ leBytes 4 e.epc.toNat ++ leBytes 4 0 ++ leBytes 4 e.dropped

/-- Waiting records that a counter now lets go on (R260). -/
def wakeWaiting (s : State) (tenant asid : Nat) (va v : Dword) : State :=
  s.modTenant tenant (fun t => { t with pool := t.pool.map (fun r =>
    if r.state = .waiting ∧ r.asid = asid ∧ recWaitCtr r.record = va ∧ (recWaitVal r.record).toNat ≤ v.toNat then { r with state := .headerWait } else r) })

/-- Step 6: SIGCTR counts by 1 modulo 2^64 (R265). -/
def signal (s : State) (tenant asid : Nat) (va v : Dword) : State :=
  wakeWaiting { s with hub := s.hub.setCounter ⟨asid, va.toNat, v + 1, true⟩ } tenant asid va (v + 1)

/-- Step 7: the notice to the issuing gang, if that still runs (R266). -/
def notice (s : State) (r : PoolRec) (e : EndInfo) : State :=
  match r.issuer.bind s.gang with
  | none => s
  | some g =>
    if recNotEn r.record = false ∨ r.host = true ∨ g.ending = true ∨ g.w * g.h ≤ recNotRank r.record then s
    else
      let payload : Dword := BitVec.ofNat 64 (e.gangId * 2 ^ 32 + e.status % 256 * 2 ^ 16 + r.index)
      s.send { treeDown g.tenant g.id (g.coreOf (recNotRank r.record)) (.closeAck 0) with body := .hub g.id (.notice (recNotCh r.record) payload) }

/-- A record leaves the pool: its place is free, and a reservation it owned is dropped (R265, R267). -/
def Tenant.without (t : Tenant) (r : PoolRec) : Tenant :=
  { t with pool := t.pool.filter (fun x => decide (x.index ≠ r.index)), res := t.res.filter (fun q => decide (q.owner ≠ r.index)),
           passDue := t.passDue || r.gang.isSome }

/-- Steps 5 to 8 of R265 for a record; none while the page of COMPREC or of SIGCTR is not resident. An access that faults
otherwise is left out (log 31). -/
def finishRecord (s : State) (tenant : Nat) (r : PoolRec) (e : EndInfo) : Option State :=
  let sig := recSigCtr r.record
  let comp := recCompRec r.record
  let ctr := if sig = 0 then (s, .error 0) else loadCounter s r.asid sig
  let wr := if comp = 0 then (ctr.1, none) else hubWrite ctr.1 r.asid comp e.bytes
  let waits := (match ctr.2 with
    | .error c => decide (c = causeXlate)
    | .ok _ => false) || decide (wr.2 = some causeXlate)
  if waits then none
  else
    let s := match ctr.2 with
      | .ok v => signal wr.1 tenant r.asid sig v
      | .error _ => wr.1
    let s := notice s r e
    let s := s.modTenant tenant (fun t => t.without r)
    some (graphLeft s tenant r.graph)

/-- FLAGS of R266. -/
def endFlags (cancelled notRun : Bool) : Nat := b2n cancelled + 2 * b2n notRun

/-- A record is freed without having run (R265, R266, R270). -/
def freeUnrun (s : State) (tenant : Nat) (r : PoolRec) (status : Nat) (cancelled : Bool) : State :=
  let e : EndInfo := ⟨status, endFlags cancelled true, 0, 0, 0, 0, 0⟩
  match finishRecord s tenant r e with
  | some s => s
  | none => s.setRec tenant { r with state := .ending status cancelled }

/-- SIGCTR is loaded when a record first names it, tried again at the next test where its page is not resident; the cause where it
faults otherwise (R260). -/
def signalCounter (s : State) (r : PoolRec) : State × Option Nat :=
  if recSigCtr r.record = 0 then (s, none)
  else match loadCounter s r.asid (recSigCtr r.record) with
    | (s, .error cause) => (s, if cause = causeXlate then none else some cause)
    | (s, .ok _) => (s, none)

/-- Test the counter a record waits for; then its header is to be read (R260). -/
def testWait (s : State) (tenant : Nat) (r : PoolRec) : State :=
  if recWaitCtr r.record = 0 then s.setRec tenant { r with state := .headerWait }
  else match loadCounter s r.asid (recWaitCtr r.record) with
    | (s, .error cause) => if cause = causeXlate then s.setRec tenant { r with state := .pageWait } else freeUnrun s tenant r cause false
    | (s, .ok v) => s.setRec tenant { r with state := if (recWaitVal r.record).toNat ≤ v.toNat then .headerWait else .waiting }

/-- Test a record that is WAITING or in PAGE-WAIT, or that has just entered (R260). -/
def testRecord (s : State) (tenant : Nat) (r : PoolRec) : State :=
  match signalCounter s r with
  | (s, some cause) => freeUnrun s tenant r cause false
  | (s, none) => testWait s tenant r

/-- HEADER_READ: the record becomes READY at the tail of its level, waits for the page, or is freed; one in PAGE-WAIT is tested again
(R260, R261). -/
def execHeaderRead (tenant index : Nat) (s : State) : Host.Outcome State Fault Refusal :=
  .next (match (s.tenant tenant).bind (fun t => t.record index) with
    | none => s
    | some r =>
      if r.state = .pageWait then testRecord s tenant r
      else if r.state ≠ .headerWait then s
      else match hubRead s r.asid (recImage r.record) 64 with
        | (s, .error cause) => if cause = causeXlate then s.setRec tenant { r with state := .pageWait } else freeUnrun s tenant r cause false
        | (s, .ok b) =>
          let h : BitVec 512 := BitVec.ofNat 512 (leNat b.1)
          if headerOk h = false ∨ (recImage r.record).toNat % 64 ≠ 0 then freeUnrun s tenant r 1 false
          else
            let o := ((s.tenant tenant).map Tenant.order).getD 0
            (s.setRec tenant { r with state := .ready, header := h, order := o }).modTenant tenant (fun t => { t with order := t.order + 1, passDue := true }))

/-! Entering the pool (R262, R264) -/

/-- The indexes of the free records. -/
def Tenant.freeIndexes (t : Tenant) : List Nat := (List.range 1024).filter (fun i => !t.pool.any (fun r => decide (r.index = i)))

/-- The next id from n on that is not alive: 32 bits, never 0 (R264). -/
def nextId (live : List Nat) (n : Nat) : Nat :=
  let at_ (j : Nat) : Nat := (n - 1 + j) % (2 ^ 32 - 1) + 1
  (((List.range (live.length + 1)).map at_).find? (fun i => !live.contains i)).getD (at_ 0)

/-- A new graph of a job, with no gang yet; a graph of a job that is cancelling is cancelling (R264, R270). -/
def newGraph (t : Tenant) (job : Nat) : Tenant × Nat :=
  let id := nextId (t.graphs.map Graph.id) t.nextGraph
  let cancelling := t.jobs.any (fun j => decide (j.id = job) && j.cancelling)
  ({ t with graphs := t.graphs ++ [⟨id, job, 0, cancelling⟩], nextGraph := id + 1,
            jobs := t.jobs.map (fun j => if j.id = job then { j with left := j.left + 1 } else j) }, id)

/-- A new job, with no graph yet. -/
def newJob (t : Tenant) : Tenant × Nat :=
  let id := nextId (t.jobs.map Graph.id) t.nextJob
  ({ t with jobs := t.jobs ++ [⟨id, 0, 0, false⟩], nextJob := id + 1 }, id)

/-- What enters the pool with a record. -/
structure Entering where
  record : BitVec 512
  asid : Nat
  depth : Nat
  job : Nat
  graph : Nat
  issuer : Option Nat
  host : Bool
deriving DecidableEq, Repr

/-- A record enters the pool, in a free place, and gangs left of its graph goes up, at one instant; a record of a cancelling graph
is freed at once (R262, R264, R270). -/
def enterPool (s : State) (t : Tenant) (e : Entering) : State × Nat :=
  let free := t.freeIndexes
  let i := (free[Config.poolChoice s.fresh % free.length]?).getD 0
  let r : PoolRec := { index := i, record := e.record, asid := e.asid, state := .waiting, order := 0, header := 0, depth := e.depth, job := e.job,
                       graph := e.graph, issuer := e.issuer, host := e.host, gang := none }
  let s := s.draw.modTenant t.id (fun _ => { t with
    pool := t.pool ++ [r], graphs := t.graphs.map (fun g => if g.id = e.graph then { g with left := g.left + 1 } else g) })
  let cancelling := t.graphs.any (fun g => decide (g.id = e.graph) && g.cancelling) || t.jobs.any (fun j => decide (j.id = e.job) && j.cancelling)
  (if cancelling then freeUnrun s t.id r 0 true else testRecord s t.id r, i)

/-! LAUNCH (R262) -/

/-- Is a VA field zero, or in device-memory form and aligned (R259, R262)? -/
def vaFieldOk (va : Dword) (n : Nat) : Bool := decide (va = 0) || (decide (field va 63 56 = 0x80) && aligned va.toNat n)

def recordOk (r : BitVec 512) : Bool :=
  vaFieldOk (recImage r) 64 && vaFieldOk (recWaitCtr r) 8 && vaFieldOk (recSigCtr r) 8 && vaFieldOk (recCompRec r) 32

/-- LAUNCH with its record read. -/
def launchRecord (s : State) (d : BitVec 5) (r : BitVec 512) : State :=
  let k := s.here
  if recordOk r = false then s.retire d (negCode 4)
  else if k.page.depth = 8 then s.retire d (negCode 5)
  else match s.tenant k.tenant with
    | none => s.retire d (negCode 1)
    | some t =>
      if t.freeIndexes = [] then s.retire d (negCode 1)
      else
        let job := k.page.job.toNat
        let g := if recNewGraph r then newGraph t job else (t, k.page.graph.toNat)
        let asid := k.tenant * 256 + (if recProcSet r then recProcId r else k.asid % 256)
        let res := enterPool s g.1 ⟨r, asid, k.page.depth + 1, job, g.2, k.gang, false⟩
        res.1.retire d (BitVec.ofNat 64 res.2)

def launchBody (s : State) (d a : BitVec 5) : State :=
  match s.place (s.reg a) with
  | .own off =>
    if off % 64 ≠ 0 ∨ s.here.inStore off 64 = false then s.retire d (negCode 4)
    else match s.here.firstFault s.user false off 64 with
      | some f => raise s (BitVec.ofNat 64 off) f
      | none => launchRecord s d (BitVec.ofNat 512 (s.here.ownLE off 64))
  | _ => s.retire d (negCode 4)

def execLaunch (d a : BitVec 5) (s : State) : Host.Outcome State Fault Refusal :=
  issue (.launch d a) s (fun s => withRelease s (fun s => launchBody s d a))

/-! Ends and cancels (R263, R265, R270) -/

/-- A gang begins to end, unless it does already: normally or cancelled, but not cancelled once its last exit has reached the scheduler.
Its save, if it has one, is discarded, and it is no longer to be placed (R265, R270, R295). -/
def endGang (s : State) (id : Nat) (cancelled : Bool) : State :=
  match s.gang id with
  | none => s
  | some g =>
    if g.ending || (cancelled && g.leaving) then s
    else
      (s.modGang id (fun g => { g with state := .ending, cancelled := cancelled, saved := [], area := [] })).modTenant g.tenant (fun t =>
        { t with pool := t.pool.map (fun r => if r.gang = some id then { r with state := .running } else r) })

/-- Cancel what a test of a tenant's records picks: gangs end, records without one are freed (R270). -/
def cancelRecords (s : State) (tenant : Nat) (picks : PoolRec → Bool) : State :=
  (((s.tenant tenant).map Tenant.pool).getD []).foldl (fun s r =>
    if picks r = false then s
    else match r.gang with
      | some id => endGang s id true
      | none => match r.state with
        | .ending _ _ => s
        | _ => freeUnrun s tenant r 0 true) s

/-- CANCEL level 2: a graph of a tenant, which stays cancelling (R270). -/
def cancelGraph (s : State) (tenant graph : Nat) : State :=
  cancelRecords (s.modTenant tenant (fun t => { t with graphs := t.graphs.map (fun g => if g.id = graph then { g with cancelling := true } else g) }))
    tenant (fun r => decide (r.graph = graph))

/-- CANCEL level 3: a job of a tenant (R270). -/
def cancelJob (s : State) (tenant job : Nat) : State :=
  cancelRecords (s.modTenant tenant (fun t =>
    { t with jobs := t.jobs.map (fun j => if j.id = job then { j with cancelling := true } else j),
             graphs := t.graphs.map (fun g => if g.job = job then { g with cancelling := true } else g) }))
    tenant (fun r => decide (r.job = job))

/-- The scheduler takes a cancel of a gang. -/
def takeCancel (s : State) (gang level : Nat) : State :=
  match s.gang gang with
  | none => s
  | some g =>
    match (s.tenant g.tenant).bind (fun t => t.record g.index) with
    | none => s
    | some r =>
      match level with
      | 1 => endGang s gang true
      | 2 => cancelGraph s g.tenant r.graph
      | _ => cancelJob s g.tenant r.job

/-- CANCEL: the scheduler is told, and the issuing slot issues nothing more (R270). Level 0 traps ILLEGAL. -/
def execCancel (l : BitVec 2) (s : State) : Host.Outcome State Fault Refusal :=
  issue (.cancel l) s (fun s =>
    if l = 0 then fatal s causeIllegal (wordOf (.cancel l))
    else
      let k := s.here
      let s := s.send { treeUp k s.issuer.1 (.closeAck 0) with asid := k.asid, slot := s.issuer.2.val, body := .hub (k.gang.getD 0) (.cancel l.toNat) }
      s.modMe (fun x => { x with pc := x.pc + 4, state := if s.user then .stopped else x.state, cancelled := s.user }))

end Sys2Proof.Machine
end

