-- ==== Sys2Proof/Machine/Scheduler.lean ====
section
/-! DEFINITION. Passes, placement and reservations (R255, R256, R261, R267), the launch sequence (R269), the end of a gang
(R265). -/

namespace Sys2Proof.Machine

/-! Placement (R256, R267) -/

/-- The queue level of a record (R260). -/
def PoolRec.level (r : PoolRec) : Nat := if recPrioEn r.record then recPrio r.record else imgPrio r.header

def insertByOrder (r : PoolRec) : List PoolRec → List PoolRec
  | [] => [r]
  | x :: l => if r.order < x.order then r :: x :: l else x :: insertByOrder r l

/-- The READY records: the highest level first, the oldest first in each (R261). -/
def Tenant.ready (t : Tenant) : List PoolRec :=
  (List.range 256).flatMap (fun i =>
    (t.pool.filter (fun r => decide (r.state = .ready) && decide (r.level = 255 - i))).foldl (fun l r => insertByOrder r l) [])

/-- Barriers of the package that no gang holds (R256). -/
def freeBars (s : State) : Nat := 64 - (s.hub.gangs.map (fun g => g.bars.length)).foldl (· + ·) 0

/-- Census slots of a tenant that no gang holds, ascending (R235, R256). -/
def Tenant.freeCens (t : Tenant) : List Nat := (List.range 16).filter (fun i => !t.granted.any (fun p => decide (p.1 = i)))

/-- The barriers and census slots that placing a record takes; a saved gang still holds its own. -/
def PoolRec.needs (r : PoolRec) : Nat × Nat := if r.gang.isSome then (0, 0) else (imgNbar r.header, imgNcen r.header)

/-- Does a record declare barriers or census slots (R267)? -/
def PoolRec.declares (r : PoolRec) : Bool := decide (imgNbar r.header ≠ 0) || decide (imgNcen r.header ≠ 0)

/-- Are there enough free for a record? -/
def grantable (s : State) (t : Tenant) (r : PoolRec) : Bool := decide (r.needs.1 ≤ freeBars s) && decide (r.needs.2 ≤ t.freeCens.length)

/-- Busy cores among a list (R267). -/
def busyCores (s : State) (cs : List Nat) : Nat := (cs.filter (fun c => (s.core c).gang.isSome)).length

/-- Origins at which a shape lies in the sub-mesh: by row, then by column. -/
def Tenant.origins (t : Tenant) (w h : Nat) : List (Nat × Nat) :=
  if w ≤ t.w ∧ h ≤ t.h then
    (List.range (t.h - h + 1)).flatMap (fun y => (List.range (t.w - w + 1)).map (fun x => (t.x0 + x, t.y0 + y)))
  else []

/-- Do two rectangles overlap? -/
def rectsMeet (x y w h x' y' w' h' : Nat) : Bool := overlaps x w x' w' && overlaps y h y' h'

/-- Does a rectangle overlap a reservation? -/
def Resv.meets (r : Resv) (x y w h : Nat) : Bool := rectsMeet r.x r.y r.w r.h x y w h

/-- The first rectangle a record can be placed on. -/
def spotFor (s : State) (t : Tenant) (r : PoolRec) : Option (Nat × Nat) :=
  let w := imgW r.header
  let h := imgH r.header
  if grantable s t r = false then none
  else (t.origins w h).find? (fun o =>
    decide (busyCores s (rectCores o.1 o.2 w h) = 0) && !t.res.any (fun q => decide (q.owner ≠ r.index) && q.meets o.1 o.2 w h))

/-- The rectangle with the fewest busy cores, the first of them (R267). -/
def leastBusy (s : State) (t : Tenant) (w h : Nat) : Option (Nat × Nat) :=
  ((t.origins w h).foldl (fun (best : Option ((Nat × Nat) × Nat)) o =>
    let n := busyCores s (rectCores o.1 o.2 w h)
    match best with
    | some b => if n < b.2 then some (o, n) else best
    | none => some (o, n)) none).map Prod.fst

/-- A core that takes a gang: busy, and closed to every program until it is loaded. -/
def Core.assign (k : Core) (gang tenant asid : Nat) (pre : PreState) : Core :=
  { k with gang := some gang, tenant := tenant, asid := asid, matching := false, exited := false, windows := Vector.replicate 8 0,
           ctl := { k.ctl with pre := pre } }

def assignCores (s : State) (g : Gang) (asid : Nat) (pre : PreState) : State :=
  g.cores.foldl (fun s c => s.modCore c (fun k => k.assign g.id g.tenant asid pre)) s

/-- Place a new gang (R256, R263, R269). -/
def placeNew (s : State) (t : Tenant) (r : PoolRec) (x y : Nat) : State :=
  let id := s.hub.nextGang
  let w := imgW r.header
  let h := imgH r.header
  let cs := t.freeCens.take (imgNcen r.header)
  let g : Gang := { id := id, tenant := t.id, index := r.index, x0 := x, y0 := y, w := w, h := h, state := .loading, live := w * h, fault := none,
                    cancelled := false, dropped := 0, bars := List.replicate (imgNbar r.header) ⟨false, [], [], false, 0⟩, cslots := cs,
                    clusters := [], preemptLater := false, saved := [], restoring := false }
  let s := { s with hub := { s.hub with gangs := s.hub.gangs ++ [g], nextGang := id + 1 } }
  let s := s.modTenant t.id (fun t => { t with granted := t.granted ++ cs.map (fun c => (c, id)) })
  assignCores (s.setRec t.id { r with state := .running, gang := some id }) g r.asid .none

/-- Where a packet or a report of a gang's core goes once the gang has a new rectangle. -/
def movedCore (g : Gang) (x y c : Nat) : Nat :=
  match (List.range (g.w * g.h)).find? (fun r => decide (g.coreOf r = c)) with
  | some r => rankCore x y g.w r
  | none => c

/-- The trees and the hub deliver what they hold for a gang to its new cores (R292, R294). -/
def readdress (g : Gang) (x y : Nat) (p : Packet) : Packet :=
  let moved : Packet := match p.dst with
    | .core c => { p with dst := .core (movedCore g x y c) }
    | _ => p
  match p.body with
  | .tree id (.completion _ _ _) | .tree id (.freeDown _) => if id = g.id then moved else p
  | .hub id (.notice _ _) => if id = g.id then moved else p
  | _ => p

/-- The reports a saved gang has made count at the tree places of its new cores (R247). -/
def moveReports (g : Gang) (x y : Nat) (z : Census) : Census :=
  let mine (q : Report) : Bool := (List.range (g.w * g.h)).any (fun r => decide (g.coreOf r = q.core)
    && ((g.saved[r]?).any (fun k => decide ((k.leaf z.slot).state = .reported))))
  let left (l : List Report) : List Report := l.map (fun q => if mine q then { q with count := 0 } else q)
  let again (l : List Report) : List Report := (l.filter mine).map (fun q => { q with core := movedCore g x y q.core })
  if z.tenant = g.tenant then { z with sent := left z.sent ++ again z.sent, got := left z.got ++ again z.got } else z

/-- Place a saved gang on a rectangle, to be restored there (R247, R292, R294). -/
def placeSaved (s : State) (t : Tenant) (r : PoolRec) (g : Gang) (x y : Nat) : State :=
  let s := { s with net := s.net.map (readdress g x y), hub := { s.hub with census := s.hub.census.map (moveReports g x y) } }
  let s := s.modGang g.id (fun g => { g with x0 := x, y0 := y, restoring := true })
  assignCores (s.setRec t.id { r with state := .running }) { g with x0 := x, y0 := y } r.asid .saved

/-- Place a record on a rectangle. -/
def place (s : State) (t : Tenant) (r : PoolRec) (x y : Nat) : State :=
  match r.gang with
  | none => placeNew s t r x y
  | some id => match s.gang id with
    | some g => placeSaved s t r g x y
    | none => s

/-! Pre-emption is asked for (R290, R295) -/

/-- SAVEVA of rank r (R293). -/
def saveVa (base : Dword) (r : Nat) : Dword := base + BitVec.ofNat 64 (0xA0000 * (r + 1))

/-- The scheduler pre-empts a gang: PREEMPT to every core; held while the gang is loading, awaits its release or is being
restored; ignored where it is being saved, ends, or has sent its last END.EXIT (R290, R295). -/
def requestPreempt (s : State) (id : Nat) : State :=
  match s.gang id with
  | none => s
  | some g =>
    if g.leaving then s
    else match g.state with
    | .running =>
      let base := Config.saveBase s.fresh
      let s := s.draw.modGang id (fun g => { g with state := .preempting })
      g.cores.zipIdx.foldl (fun s c =>
        s.send { treeDown g.tenant id c.1 (.closeAck 0) with body := .hub id (.preempt (saveVa base c.2)) }) s
    | .loading | .releasing => s.modGang id (fun g => { g with preemptLater := true })
    | .saved => if g.restoring then s.modGang id (fun g => { g with preemptLater := true }) else s
    | _ => s

/-! Freeing cores (R265 step 4, R293) -/

/-- A freed core: every channel, pattern, directory entry, lock, barrier and census slot is free, the slots hold nothing; stores
and headers stay as the gang left them, which no window opens. -/
def Core.freed (k : Core) : Core :=
  { k with
    gang := none, matching := false, exited := false, ctl := { k.ctl with pre := .none, repairs := 0 },
    slots := Vector.ofFn (fun i => if i.val < 4 then (k.slot i).ended else k.slot i),
    windows := Vector.replicate 8 0, chans := Vector.replicate 64 Channel.reset, pats := Vector.replicate 32 0,
    dir := Vector.replicate 64 Entry.reset, locks := Vector.replicate 16 none, eng := { k.eng with cmds := [] },
    ni := { k.ni with bufs := Vector.replicate 16 none, retained := [], reqs := [] },
    held := [], cenMap := [], cens := Vector.replicate 16 CenSlot.reset, bars := Vector.replicate 64 Bar.reset, offered := [], offers := [] }

/-- Free a core of a gang: its leaf goes on for the tenant, with nothing owed any more; `fresh` where the gang keeps the leaf's own
values for a restored core (R236, R247). -/
def freeCore (s : State) (fresh : Bool) (c : Nat) : State :=
  let k := (s.core c).freed
  let k := if fresh then { k with leaves := k.leaves.map (fun l => { l with vals := [] }) } else k
  testReports (s.setCore c k) c k.tenant (BitVec.allOnes 16)

/-- The cores that a gang occupies now. -/
def occupied (s : State) (g : Gang) : List Nat := g.cores.filter (fun c => decide ((s.core c).gang = some g.id))

/-- The cores of saved gangs of a tenant are freed at the next pass (R293). -/
def freeSaved (s : State) (tenant : Nat) : State :=
  s.hub.gangs.foldl (fun s g =>
    if g.tenant = tenant ∧ g.state = .saved ∧ g.restoring = false then (occupied s g).foldl (fun s c => freeCore s true c) s else s) s

/-! The pass (R267) -/

/-- Records that wait are tested again, those that wait for the page of their completion record too (R260, R265). -/
def retest (s : State) (tenant : Nat) : State :=
  (((s.tenant tenant).map Tenant.pool).getD []).foldl (fun s r =>
    match r.state with
    | .waiting | .pageWait => testRecord s tenant r
    | .ending st cancelled => freeUnrun s tenant r st cancelled
    | _ => s) s

/-- Records whose shape exceeds the sub-mesh are freed as they come first. -/
def dropOversize (s : State) (t : Tenant) : State :=
  (t.ready.takeWhile (fun r => decide (t.w < imgW r.header) || decide (t.h < imgH r.header))).foldl (fun s r =>
    if r.gang.isSome then s else freeUnrun s t.id r 1 false) s

def State.setRes (s : State) (tenant : Nat) (r : Option Resv) : State := s.modTenant tenant (fun t => { t with res := r })

/-- One record of the pass, with H: it is placed, or where it is H and no reservation stands, it gets one. The Bool says that a
reservation was made. -/
def passRecord (tenant : Nat) (h : PoolRec) (acc : State × Bool) (q : PoolRec) : State × Bool :=
  let s := acc.1
  match s.tenant tenant with
  | none => acc
  | some t =>
    let lacks := t.ready.any (fun r => decide (r.index = h.index)) && !grantable s t h
    if q.index ≠ h.index ∧ lacks = true ∧ q.declares = true then acc
    else match spotFor s t q with
      | some o =>
        let s := place s t q o.1 o.2
        (if t.res.any (fun r => decide (r.owner = q.index)) then s.setRes tenant none else s, acc.2)
      | none =>
        if q.index = h.index ∧ t.res = none then
          match leastBusy s t (imgW q.header) (imgH q.header) with
          | some o => (s.setRes tenant (some ⟨q.index, o.1, o.2, imgW q.header, imgH q.header, 0⟩), true)
          | none => acc
        else acc

/-- The reservation ages; past DISPLIM every gang that overlaps it is pre-empted. -/
def ageReservation (s : State) (tenant : Nat) (made : Bool) : State :=
  match s.tenant tenant with
  | none => s
  | some t => match t.res with
    | none => s
    | some r =>
      let age := if made then r.age else r.age + 1
      let s := s.setRes tenant (some { r with age := age })
      if t.displim ≠ 65535 ∧ t.displim < age then
        s.hub.gangs.foldl (fun s g => if g.tenant = tenant ∧ r.meets g.x0 g.y0 g.w g.h = true then requestPreempt s g.id else s) s
      else s

/-- One pass of a tenant. -/
def runPass (s : State) (tenant : Nat) : State :=
  let s := retest (freeSaved s tenant) tenant
  match s.tenant tenant with
  | none => s
  | some t =>
    let s := dropOversize s t
    match s.tenant tenant with
    | none => s
    | some t =>
      match t.ready with
      | [] => s.setRes tenant none
      | h :: rest =>
        let s := if t.res.any (fun r => decide (r.owner ≠ h.index)) then s.setRes tenant none else s
        let r := (h :: rest).foldl (passRecord tenant h) (s, false)
        ageReservation r.1 tenant r.2

/-- Has what a pass waits for occurred: an event, or 65,536 cycles of the scheduler's core (R267)? -/
def passReady (s : State) (t : Tenant) : Bool :=
  t.passDue || decide (sget 0 s.hub.lastPass t.id + 65536 ≤ s.hub.cycles[1])

/-- PASS. -/
def execPass (tenant : Nat) (s : State) : Host.Outcome State Fault Refusal :=
  .next (match s.tenant tenant with
    | none => s
    | some t =>
      if passReady s t = false ∨ s.fw.absent 1 = true then s
      else
        let s := s.modTenant tenant (fun t => { t with passDue := false })
        let s := { s with hub := { s.hub with lastPass := sset 0 s.hub.lastPass tenant s.hub.cycles[1] } }
        runPass s tenant)

/-! The launch sequence (R269) -/

/-- Blocks of 64 bytes with their headers, read under an ASID. -/
def hubBlocks (asid : Nat) : Nat → Dword → State → State × Except Nat (List (List Byte × Header))
  | 0, _, s => (s, .ok [])
  | n + 1, va, s =>
    match hubRead s asid va 64 with
    | (s, .error e) => (s, .error e)
    | (s, .ok b) => match hubBlocks asid n (va + 64) s with
      | (s, .error e) => (s, .error e)
      | (s, .ok l) => (s, .ok (b :: l))

/-- The bytes of blocks. -/
def blockBytes (l : List (List Byte × Header)) : List Byte := l.flatMap Prod.fst

/-- A core as a table is checked against: every channel declared as MSG, nothing in use (R211, R257). -/
def tableCore (h : BitVec 512) : Core :=
  { Core.reset with
    page := { GangPage.reset with lsbytes := imgLsBytes h, nchan := imgNchan h, npat := imgNpat h, nslot := imgNslot h },
    chans := Vector.ofFn (fun i => { Channel.reset with decl := decide (i.val < imgNchan h) }) }

/-- Install the channel table; none where an entry breaks R217 or has KEEP = 1 (R257). -/
def installChannels (k : Core) (bs : List Byte) (n : Nat) : Option Core :=
  (List.range n).foldl (fun o c => o.bind (fun k =>
    let w : Dword := BitVec.ofNat 64 (leNat ((bs.drop (8 * c)).take 8))
    if bit w 62 || k.chcfgIllegal c w then none else some (k.setChan c ((k.chan c).configure w)))) (some k)

/-- Install the pattern table; none where a descriptor breaks R220 or stands in another's place (R257). -/
def installPatterns (k : Core) (bs : List Byte) (n : Nat) : Option Core :=
  (List.range n).foldl (fun o i => o.bind (fun k =>
    let p : BitVec 256 := BitVec.ofNat 256 (leNat ((bs.drop (32 * i)).take 32))
    if p = 0 then some k
    else if patIndex p ≠ i ∨ (k.patCode p).isSome then none
    else some (k.setPat i p))) (some k)

/-- The default codebook table (R86). -/
def defaultTable : List Byte := (List.range 256).flatMap (fun k => leBytes 4 (defaultEntry k))

/-- The codebook tables the image does not supply (R48, R269 step 2). -/
def loadTables (h : BitVec 512) (ls : Memory) : Memory :=
  if imgCbTab h = 0 then ls
  else (List.range 16).foldl (fun m t =>
    let a := imgCbTab h + 1024 * t
    if (imgCbMask h).testBit t = false ∧ a + 1024 ≤ imgLsBytes h then writeBytes m a defaultTable else m) ls

/-- The launch windows (R125). -/
def launchWindows (lsbytes nchan : Nat) : Vector Dword 8 :=
  Vector.ofFn (fun i =>
    if i.val = 0 then BitVec.ofNat 64 (2 ^ 63 + 0b10111 * 2 ^ 45 + lsbytes * 2 ^ 20 + 0x100)
    else if i.val = 1 then BitVec.ofNat 64 (2 ^ 63 + 0b01000 * 2 ^ 45 + (0xC0000 + 16 * nchan) * 2 ^ 20 + 0xC0000)
    else 0)

/-- The gang page of a rank (R119). -/
def launchPage (g : Gang) (r : PoolRec) (rank : Nat) (shape : BitVec 1024) : GangPage :=
  let h := r.header
  { rank := rank, gangId := Config.gangId g.id, tenant := BitVec.ofNat 8 g.tenant, orgx := g.x0, orgy := g.y0, width := g.w, height := g.h,
    rootcore := coreAt g.x0 g.y0, depth := r.depth, graph := BitVec.ofNat 32 r.graph, job := BitVec.ofNat 32 r.job, lsbytes := imgLsBytes h,
    nchan := imgNchan h, npat := imgNpat h, nslot := imgNslot h, nbar := imgNbar h, ncen := imgNcen h, prio := imgPrio h, shape := shape }

/-- The control registers of a launch (R25, R269 step 4). SAVEVA is 0, which the spec leaves open (log 103). -/
def launchControl (x : Control) (h : BitVec 512) : Control :=
  { x with trapvec := BitVec.ofNat 64 (imgTrapVec h) &&& 0xFFFFC#64, faultch := imgFaultCh h, faultring := BitVec.ofNat 64 (imgFaultRing h) &&& 0xFFF00#64,
           srseed := imgSrSeed h, cbtab := BitVec.ofNat 64 (imgCbTab h) &&& 0xFFC00#64, agemax := 256, aggfill := 16, repairs := 0, pre := .none, saveva := 0 }

/-- Everything an image gives its cores. -/
structure Loaded where
  tables : Core
  shape : BitVec 1024
  content : List (List Byte × Header)

/-- Steps 2 to 6 of R269 for one core. -/
def launchCore (g : Gang) (r : PoolRec) (m : Loaded) (rank : Nat) (k : Core) : Core :=
  let h := r.header
  let n := imgLsBytes h
  { k with
    page := launchPage g r rank m.shape,
    slots := Vector.ofFn (fun i => if i.val < 4 then (k.slot i).ended else k.slot i),
    ls := loadTables h (writeBytes (sclear k.ls 0 n) 0x100 (blockBytes m.content)),
    lsHdr := m.content.zipIdx.foldl (fun l b => sset 0 l (4 + b.2) b.1.2) (sclear k.lsHdr 0 (n / 64)),
    acc := [], accBase := accHeader, accHdr := [], ctl := launchControl k.ctl h, windows := launchWindows n (imgNchan h),
    chans := m.tables.chans, pats := m.tables.pats, ptr := 0, matching := false, lastIssue := [],
    dir := Vector.replicate 64 Entry.reset, locks := Vector.replicate 16 none, eng := ⟨[], 0, 0, 0⟩,
    ni := { k.ni with bufs := Vector.replicate 16 none, retained := [], reqs := [], next := 0, seq := 0 },
    held := [], cenMap := g.cslots, cens := Vector.replicate 16 CenSlot.reset, bars := Vector.replicate 64 Bar.reset, offered := [], offers := [],
    exited := false }

/-- Step 1 and the content: the tables, the shape record and the content of an image; the cause or 1 for a table that breaks its
rules. -/
def readImage (s : State) (r : PoolRec) : State × Except Nat Loaded :=
  let h := r.header
  let base := recImage r.record
  let part (off n : Nat) (s : State) : State × Except Nat (List (List Byte × Header)) :=
    if off = 0 then (s, .ok []) else hubBlocks r.asid ((n + 63) / 64) (base + BitVec.ofNat 64 off) s
  match part (imgChanOff h) (8 * imgNchan h) s with
  | (s, .error e) => (s, .error e)
  | (s, .ok ch) => match part (imgPatOff h) (32 * imgNpat h) s with
    | (s, .error e) => (s, .error e)
    | (s, .ok pt) =>
      let k := if imgChanOff h = 0 then some (tableCore h) else installChannels (tableCore h) (blockBytes ch) (imgNchan h)
      match k.bind (fun k => if imgPatOff h = 0 then some k else installPatterns k (blockBytes pt) (imgNpat h)) with
      | none => (s, .error 1)
      | some k => match part 0x80 128 s with
        | (s, .error e) => (s, .error e)
        | (s, .ok sh) => match part 0x100 (imgLoadLen h) s with
          | (s, .error e) => (s, .error e)
          | (s, .ok c) => (s, .ok ⟨k, BitVec.ofNat 1024 (leNat (blockBytes sh)), c⟩)

/-- The gang is taken off its cores and given up. -/
def unplace (s : State) (g : Gang) : State :=
  let s := (occupied s g).foldl (fun s c => freeCore s false c) s
  let s := { s with hub := { s.hub with gangs := s.hub.gangs.filter (fun x => decide (x.id ≠ g.id)) } }
  s.modTenant g.tenant (fun t => { t with granted := t.granted.filter (fun p => decide (p.2 ≠ g.id)), passDue := true })

/-- The clusters that hold ranks of a gang, by the lowest rank of each (R11, R269 step 7). -/
def Gang.clusterList (g : Gang) : List Nat := firsts (g.cores.map clusterOf)

/-- IMAGE_LOAD: steps 1 to 6 of R269 on every core of a gang; a page that is not resident is waited for. -/
def execImageLoad (gang : Nat) (s : State) : Host.Outcome State Fault Refusal :=
  .next (match s.gang gang with
    | none => s
    | some g =>
      match (s.tenant g.tenant).bind (fun t => t.record g.index) with
      | none => s
      | some r =>
        if g.state ≠ .loading then s
        else match readImage s r with
          | (s', .error cause) => if cause = causeXlate then s else freeUnrun (unplace s' g) g.tenant { r with gang := none } cause false
          | (s', .ok m) =>
            let s := g.cores.zipIdx.foldl (fun s c => s.modCore c.1 (launchCore g r m c.2)) s'
            s.modGang gang (fun g => { g with state := .releasing, clusters := g.clusterList }))

/-- A core's launch activation: slot 0 at 0x0_0100 with priority 255 and g6 = 0xFF, the matcher running (R226). -/
def Core.launchActivation (k : Core) : Core := { (k.modSlot 0 (fun x => x.startBody 0x100 255 [] 0xFF)) with matching := true }

/-- A restored core goes on: its slots resume in the state they were saved in, one that CANCEL has stopped not at all, its engines where they
stopped (R226, R270, R294). -/
def Core.resume (k : Core) : Core :=
  { k with
    slots := k.slots.map (fun x => if x.state = .stopped ∧ x.cancelled = false then { x with state := .active } else x),
    eng := { k.eng with cmds := k.eng.cmds.map (fun m => { m with stopped := false, stopping := false }) },
    matching := true, ctl := { k.ctl with pre := .none } }

/-- CLUSTER_RELEASE: release reaches the next cluster of a gang; with the last the gang runs, and a pre-emption held for it is
sent (R269 step 7, R295). -/
def execClusterRelease (gang : Nat) (s : State) : Host.Outcome State Fault Refusal :=
  .next (match s.gang gang with
    | none => s
    | some g =>
      match g.clusters with
      | [] => s
      | cl :: rest =>
        if g.state ≠ .releasing then s
        else
          let start (k : Core) : Core := if g.restoring then k.resume else k.launchActivation
          let s := (g.cores.filter (fun c => decide (clusterOf c = cl))).foldl (fun s c => s.modCore c start) s
          if rest = [] then
            let s := s.modGang gang (fun g => { g with clusters := [], state := .running, restoring := false, preemptLater := false })
            if g.preemptLater then requestPreempt s gang else s
          else s.modGang gang (fun g => { g with clusters := rest }))

/-! The end of a gang (R265) -/

/-- Step 1 and 2 at a core: slots stop, one part-way through a VSTS or VSCATTER at its boundary, the matcher fires no more, queued commands
are discarded and running ones stop at their next progress point; step 3: loads parked are dropped, and no answer is written any more. -/
def Core.endSteps (k : Core) : Core :=
  let queued := k.eng.cmds.filter (fun m => !m.running)
  let k := queued.foldl (fun k m => (k.freeLocksOf m (fun _ => true)).dropCommand m.ticket) k
  let atomic (q : Request) : Bool := match q.kind with
    | .amo _ _ _ _ _ => true
    | _ => false
  { k with
    slots := Vector.ofFn (fun i => let x := k.slot i
      if i.val < 4 ∧ x.state ≠ .free ∧ ¬(x.state = .active ∧ x.lanes ≠ 0) then { x with state := .stopped } else x),
    matching := false,
    eng := { k.eng with cmds := k.eng.cmds.map (fun m => { m with stopping := true }) },
    ni := { k.ni with reqs := (k.ni.reqs.filter (fun q => atomic q || !q.parts.any (fun p => p.st.parked))).map (fun q => { q with discard := true }) },
    ctl := { k.ctl with pre := .none } }

/-- The same with the buffers sent; a core that was sealed executes RETRY (R265 step 3, R285). -/
def endCore (s : State) (c : Nat) : State :=
  let was := (s.core c).ctl.pre
  let s := s.modCore c Core.endSteps
  leaveAll (if was = .sealed ∨ was = .saved ∨ was = .restoring then retryCore s c else s) c

/-- Is a close of a gang in progress? -/
def State.closes (s : State) (gang : Nat) : Bool := s.hub.closings.any (fun x => decide (x.gang = gang))

/-- The last exit of a gang is counted, once no close of the gang is in progress (log 80). -/
def countLast (s : State) (gang : Nat) : State :=
  if (s.gang gang).any Gang.leaving = true ∧ s.closes gang = false then endGang (s.modGang gang (fun g => { g with live := 0, leaving := false })) gang false
  else s

/-- GANG_END: steps 1 to 3 of R265. -/
def execGangEnd (gang : Nat) (t : State) : Host.Outcome State Fault Refusal :=
  let s := countLast t gang
  .next (match s.gang gang with
    | none => s
    | some g => if g.ending then (occupied s g).foldl endCore s else s)

/-- Has a core of an ending gang nothing more to settle (R265 step 3)? -/
def Core.endSettled (k : Core) : Bool :=
  k.slots.toList.all (fun x => decide (x.state ≠ .active) && decide (x.state ≠ .parked) && decide (x.state ≠ .debug)) && !k.matching && decide (k.ctl.pre = .none)
    && k.eng.cmds.all (fun m => m.stopped || m.done.isSome) && k.ni.bufs.toList.all Option.isNone && k.ni.retained.isEmpty && k.ni.reqs.isEmpty

/-- Does the hub still await a word of the gang itself: an exit or a cancel on its way? -/
def hubWordsOf (s : State) (gang : Nat) : Bool :=
  s.net.any (fun p => match p.body with
    | .hub g (.cancel _) => decide (g = gang)
    | _ => false)

/-- What the completion record of a gang says. -/
def Gang.endInfo (g : Gang) : EndInfo :=
  match g.fault with
  | some f => ⟨f.cause, endFlags g.cancelled false, f.rank, (Config.gangId g.id).toNat, f.tval, f.epc, g.dropped⟩
  | none => ⟨0, endFlags g.cancelled false, 0, (Config.gangId g.id).toNat, 0, 0, g.dropped⟩

/-- The hub closes every census slot of a gang that is no more, where no close is in progress (R235). -/
def closeSlots (s : State) (g : Gang) : State :=
  g.cslots.zipIdx.foldl (fun s t =>
    if s.hub.closings.any (fun x => decide (x.tenant = g.tenant) && decide (x.slot = t.1)) then s else startClose s g.tenant t.1 g.id t.2) s

/-- Step 4 of R265. -/
def freeGang (s : State) (g : Gang) : State :=
  let s := (occupied s g).foldl (fun s c => freeCore s false c) s
  let s := { s with hub := { s.hub with gangs := s.hub.gangs.filter (fun x => decide (x.id ≠ g.id)) } }
  finishCloses (deliverResults (closeSlots s g))

/-- GANG_END_SETTLED: steps 4 to 8 of R265, once steps 1 to 3 are over at every core; a page of COMPREC or SIGCTR that is not
resident is waited for. -/
def execGangEndSettled (gang : Nat) (s : State) : Host.Outcome State Fault Refusal :=
  .next (match s.gang gang with
    | none => s
    | some g =>
      if g.ending && (occupied s g).all (fun c => (s.core c).endSettled) && !hubWordsOf s gang then
        match (s.tenant g.tenant).bind (fun t => t.record g.index) with
        | none => freeGang s g
        | some r => (finishRecord (freeGang s g) g.tenant r g.endInfo).getD s
      else s)

end Sys2Proof.Machine
end

