-- ==== Sys2Proof/Machine/Preempt.lean ====
section
/-! DEFINITION. Pre-emption: the stop, the drain, the save and the restore (R290 to R295), and the packets of the hub channel
(R266, R308). -/

namespace Sys2Proof.Machine

/-! The stop (R290) -/

/-- PREEMPT at a core: STOPPING; user slots stop at their boundary, parked and debugged ones stay as they are; the matcher fires no
more; running commands stop at their next progress point. A release that waits is issued afresh later, its sending included. -/
def Core.stopFor (k : Core) (va : Dword) : Core :=
  { k with
    ctl := { k.ctl with pre := .stopping, saveva := va },
    slots := Vector.ofFn (fun i => let x := k.slot i
      if i.val < 4 ∧ x.state = .active then { x with state := .stopped, fencing := false } else x),
    matching := false,
    eng := { k.eng with cmds := k.eng.cmds.map (fun m => { m with stopping := true }) } }

def takePreempt (p : Packet) (c : Nat) (va : Dword) (s : State) : State :=
  let k := s.core c
  if k.gang = some p.gang ∧ k.ctl.pre = .none ∧ s.endingAt c = false then s.setCore c (k.stopFor va) else s

/-- PREEMPT. -/
def execPreempt (k : Nat) (s : State) : Host.Outcome State Fault Refusal :=
  .next (match s.arrival k with
    | some (p, s') => match p.dst, p.body with
      | .core c, .hub _ (.preempt va) => if p.src ≠ .hub then reportLink s' else takePreempt p c va s'
      | _, _ => s
    | none => s)

/-! The drain (R291) -/

/-- Is a request answered, or parked? -/
def Request.atRest (q : Request) : Bool := q.parts.all (fun p => p.st.final || p.st.parked)

/-- Has a draining core nothing more to wait for (R291)? -/
def Core.drained (k : Core) : Bool :=
  k.ni.bufs.toList.all Option.isNone
    && k.ni.retained.all (fun r => r.items.all (fun x => decide (x.st = .settled) || x.st.parked))
    && k.ni.reqs.all Request.atRest

/-- Has everything that a core sent into the trees arrived, a close it has forwarded and the word back of it among them (R243, R291)? -/
def treesQuiet (s : State) (c : Nat) : Bool :=
  s.net.all (fun p => match p.body with
    | .tree _ (.closeAck _) => decide (p.src ≠ .core c) && decide (p.dst ≠ .core c)
    | .tree _ _ | .move (.forwardedClose _ _) => decide (p.src ≠ .core c)
    | _ => true)

/-- CORE_SEALED: with its slots and engines stopped a core drains, its buffers leaving; with its accesses settled or parked it is
SEALED. -/
def execCoreSealed (core : Nat) (s : State) : Host.Outcome State Fault Refusal :=
  let k := s.core core
  .next (match k.ctl.pre with
    | .stopping =>
      if k.eng.cmds.all (fun m => !m.running || m.stopped || m.done.isSome) then
        leaveAll (s.setCore core { k with ctl := { k.ctl with pre := .draining } }) core
      else s
    | .draining =>
      if k.drained && treesQuiet s core then s.setCore core { k with ctl := { k.ctl with pre := .sealed } } else leaveAll s core
    | _ => s)

/-! The save (R293) -/

/-- The dwords of a window of a core. -/
def windowBytes (n : Nat) (at_ : Nat → Dword) : List Byte := (List.range (n / 8)).flatMap (fun i => leBytes 8 (at_ (8 * i)).toNat)

/-- A ring entry of R212. -/
def ringEntry (m : Option (Dword × BitVec 16)) : List Byte :=
  match m with
  | some x => leBytes 8 x.1.toNat ++ leBytes 2 x.2.toNat ++ leBytes 6 0
  | none => leBytes 16 0

/-- The hardware queues of R293. -/
def Core.queueBytes (k : Core) : List Byte :=
  (List.range 64).flatMap (fun c => (List.range 8).flatMap (fun i => ringEntry ((k.chan c).msgs[i]?)))

/-- Headers of n blocks from an offset, 4 bytes each. -/
def Core.headerBytes (k : Core) (off n : Nat) : List Byte := (List.range n).flatMap (fun i => leBytes 4 (k.header (off + 64 * i)).toNat)

/-- All that R293 lists for the first part of a core's record. -/
def Core.engineFacts (k : Core) : Config.EngineFacts where
  engines := k.eng
  ptr := k.ptr
  bars := k.bars.toList
  leaves := k.leaves.toList
  retained := k.ni.retained
  reqs := k.ni.reqs
  slots := k.slots.toList.map (fun x => (x.aggf, x.lanes, x.cancelled))
  agemax := k.ctl.agemax
  aggfill := k.ctl.aggfill
  next := k.ni.next

def Core.engineBytes (k : Core) : List Byte := (Config.saveEngines k.engineFacts).take 0x2000

/-- The parts of a core's record, each at its offset, in the order of R293. -/
def Core.recordParts (k : Core) : List (Nat × List Byte) :=
  [(0, k.engineBytes),
   (0x2000, (List.range 4).flatMap (fun i => windowBytes 0x3000 (k.readRegWin (Fin.ofNat 5 i)))),
   (0xE000, windowBytes 0x2000 k.readCtlWin),
   (0x10000, k.queueBytes),
   (0x20000, readBytes k.acc 0 0x10000),
   (0x30000, k.headerBytes 0x80000 1024),
   (0x31000, k.headerBytes 0 6144),
   (0x40000, readBytes k.ls 0 k.page.lsbytes)]

/-- The gang header at the base of the save area, then rank r's record at its SAVEVA (R293). -/
def saveArea (g : Gang) (s : State) : Memory :=
  let root := s.core (coreAt g.x0 g.y0)
  let header := (Config.saveHeader [g.w, g.h, (Config.gangId g.id).toNat, g.tenant] g.bars (root.cens.toList.take g.cslots.length)).take 0xA0000
  g.cores.foldl (fun m c => let k := s.core c
    k.recordParts.foldl (fun m x => writeBytes m (k.ctl.saveva.toNat + x.1) x.2) m) (writeBytes [] (root.ctl.saveva - 0xA0000#64).toNat header)

/-- A core as its record holds it: neither CYCLE nor the scope table is saved. -/
def Core.record (k : Core) : Core := { k with cycle := 0, responded := none, solicited := none, ni := { k.ni with scope := [] } }

/-- A place at the head of a level (R261). -/
def Tenant.headOrder (t : Tenant) : Int := (t.pool.map PoolRec.order).foldl (fun a b => min a b) 0 - 1

/-- SAVE: with every core sealed, the records are written under the tenant's key, the cores are SAVED, and the record is READY again at the
head of its level. -/
def execSave (gang : Nat) (s : State) : Host.Outcome State Fault Refusal :=
  .next (match s.gang gang with
    | none => s
    | some g =>
      if g.state = .preempting ∧ g.leaving = false ∧ g.cores.all (fun c => decide ((s.core c).ctl.pre = .sealed)) = true then
        let saved := g.cores.map (fun c => (s.core c).record)
        let area := saveArea g s
        let key := ((s.tenant g.tenant).map Tenant.keySlot).getD 0
        let s := g.cores.foldl (fun s c => s.modCore c (fun k => { k with ctl := { k.ctl with pre := .saved }, ni := { k.ni with scope := [] } })) s
        let s := s.modGang gang (fun g => { g with state := .saved, saved := saved, area := area, areaKey := key, restoring := false })
        s.modTenant g.tenant (fun t =>
          { t with passDue := true, pool := t.pool.map (fun r => if r.index = g.index then { r with state := .ready, order := t.headOrder } else r) })
      else s)

/-! The restore (R294) -/

/-- A core written back from its record: CYCLE, the drain hold and the microcode bank are the core's own, and so is the local store
above the declared bytes. -/
def restored (g : Gang) (saved target : Core) : Core :=
  let n := saved.page.lsbytes
  { saved with
    gang := some g.id, cycle := target.cycle, matching := false,
    page := { saved.page with orgx := g.x0, orgy := g.y0, rootcore := coreAt g.x0 g.y0 },
    ls := saved.ls.filter (fun p => decide (p.1 < n)) ++ sclear target.ls 0 n,
    ctl := { saved.ctl with pre := .restoring, bank := target.ctl.bank, switched := target.ctl.switched },
    ni := { saved.ni with scope := [], hold := target.ni.hold, uid := max saved.ni.uid target.ni.uid } }

/-- Is a solicit, or a close, of a tenant slot on its way to a core? -/
def solicitTo (tenant t c : Nat) (p : Packet) : Bool :=
  decide (p.tenant = tenant) && decide (p.dst = .core c) && (match p.body with
    | .tree _ (.solicit x _ _ _ _) => decide (x = t)
    | _ => false)

def closeTo (tenant t c : Nat) (p : Packet) : Bool :=
  decide (p.tenant = tenant) && decide (p.dst = .core c) && (match p.body with
    | .tree _ (.close x) => decide (x = t)
    | _ => false)

/-- A census in progress reaches a restored core once: its solicit if the core had not seen it, and not again if it had (R247, R292). -/
def heldSolicit (c : Nat) (s : State) (x : Census) : State :=
  if ((s.core c).leaf x.slot).state = .idle then
    (if s.net.any (solicitTo x.tenant x.slot c) then s else s.send (treeDown x.tenant x.gang c (.solicit x.slot x.op x.key x.kmask x.arg)))
  else { s with net := s.net.filter (fun p => !solicitTo x.tenant x.slot c p) }

/-- A close in progress reaches a restored core, which the root then waits for (R243, R292). -/
def heldClose (c : Nat) (s : State) (x : Closing) : State :=
  if s.net.any (closeTo x.tenant x.slot c) then s
  else
    let more (y : Closing) : Closing := if y.tenant = x.tenant ∧ y.slot = x.slot then { y with left := y.left ++ [c] } else y
    { s with hub := { s.hub with closings := s.hub.closings.map more } }.send (treeDown x.tenant x.gang c (.close x.slot))

/-- What the trees held for a restored core. -/
def deliverHeld (tenant : Nat) (s : State) (c : Nat) : State :=
  let s := (s.hub.census.filter (fun x => decide (x.tenant = tenant))).foldl (heldSolicit c) s
  (s.hub.closings.filter (fun x => decide (x.tenant = tenant))).foldl (heldClose c) s

/-- RESTORE: a saved gang that has its rectangle is written back core by core; every supervisor slot executes RETRY; the trees deliver
what they held; release follows. -/
def execRestore (gang : Nat) (s : State) : Host.Outcome State Fault Refusal :=
  .next (match s.gang gang with
    | none => s
    | some g =>
      if g.state = .saved ∧ g.restoring = true then
        let s := (g.cores.zip g.saved).foldl (fun s x => s.modCore x.1 (restored g x.2)) s
        let s := s.modGang gang (fun g => { g with state := .releasing, saved := [], area := [], clusters := g.clusterList })
        let s := g.cores.foldl retryCore s
        let s := g.cores.foldl (deliverHeld g.tenant) s
        finishCloses (deliverResults s)
      else s)

/-! The hub channel (R266, R290, R308) -/

/-- An exit reaches the scheduler: with the last live rank the gang ends normally, whatever cancel reaches it later (R228, R263, R270).
The last of a gang that runs is counted once the closes of the gang have reached every core, as R254 finds it (log 80); that of one being
saved at once, for its cores hold the closes back (R292, R295). -/
def takeExit (s : State) (gang : Nat) : State :=
  match s.gang gang with
  | none => s
  | some g =>
    if g.live ≤ 1 ∧ s.closes gang = true ∧ g.state = .running then s.modGang gang (fun g => { g with leaving := true })
    else
      let s := s.modGang gang (fun g => { g with live := g.live - 1 })
      if g.live ≤ 1 then endGang s gang false else s

/-- A notice reaches its core: a message of the hub, for the gang it was sent to (R266). -/
def takeNotice (s : State) (p : Packet) (c ch : Nat) (payload : Dword) : State :=
  if (s.core c).gang = some p.gang then (deviceMessage s c ch payload senderHub .notice).1 else s

/-- Is a notice held for a gang that is sealed, saved or not yet restored (R292)? -/
def noticeHeld (s : State) (p : Packet) (c : Nat) : Bool := (s.core c).ctl.pre.isSealed || gangAway s p.gang

/-- A packet of the hub channel where it arrives. -/
def takeHub (s s' : State) (p : Packet) : State :=
  match p.dst, p.body with
  | .hub, .hub g (.exit _) => takeExit s' g
  | .hub, .hub g (.cancel level) => takeCancel s' g level
  | .core c, .hub _ (.notice ch payload) => if p.src ≠ .hub then reportLink s' else if noticeHeld s p c then s else takeNotice s' p c ch payload
  | .core c, .hub _ (.preempt va) => if p.src ≠ .hub then reportLink s' else takePreempt p c va s'
  | _, .reserved _ _ _ => reportLink s'
  | _, _ => s

/-- A packet for a foreign device: it is handed to the fabric in the order of its source (R308, R313, R319). -/
def takeOutbound (s : State) (k : Nat) (p : Packet) : State :=
  match p.dst with
  | .foreign dev _ =>
    if s.behind k p || !s.crossed p then s
    else outboundAtHub { s with net := s.net.eraseIdx k } dev p
  | _ => s

/-- HUB. -/
def execHub (k : Nat) (s : State) : Host.Outcome State Fault Refusal :=
  .next (match s.arrival k with
    | some (p, s') => takeHub s s' p
    | none => match s.net[k]? with
      | some p => takeOutbound s k p
      | none => s)

end Sys2Proof.Machine
end

