-- ==== Sys2Proof/Machine/Mesh.lean ====
section
/-! DEFINITION. The mesh as its managers set it: mode changes (R17), gating of routers (R316), partition entries and the
drain and swap of a tenant's routes (R311, R314). -/

namespace Sys2Proof.Machine

/-! Modes (R17) -/

/-- A mode is asked for: it waits while a change is in progress, or while the power manager's image is replaced; the later request wins
over any that waited (R17, R330). -/
def Mesh.askMode (m : Mesh) (absent : Bool) (mode : Nat) : Mesh :=
  if m.modeNext.isNone ∧ absent = false then { m with modeNext := some mode, modeLater := none } else { m with modeLater := some mode }

/-- MODE_CHANGE: the change in progress completes, or the one asked for meanwhile; a later request takes its place. Nothing else changes. -/
def execModeChange (s : State) : Host.Outcome State Fault Refusal :=
  .next (match s.mesh.modeNext.or s.mesh.modeLater with
    | none => s
    | some m =>
      if s.fw.absent 5 then s
      else { s with mesh := { s.mesh with mode := m, modeNext := if s.mesh.modeNext.isSome then s.mesh.modeLater else none, modeLater := none } })

/-! Gating (R316) -/

def Mesh.router (m : Mesh) (n : Nat) : Gating := sget (.on 0) m.gating n
def Mesh.setRouter (m : Mesh) (n : Nat) (g : Gating) : Mesh := { m with gating := sset (.on 0) m.gating n g }

/-- One cycle of a router: set-up reached it or did not. Two cycles without count towards gating; a gated router that sees set-up takes
two cycles to wake. -/
def Gating.cycle (g : Gating) (setup : Bool) : Gating :=
  match g with
  | .on n => if setup then .on 0 else .on (min 2 (n + 1))
  | .gated => if setup then .waking 1 else .gated
  | .waking n => .waking (n - 1)

def routerCycle (s : State) (n : Nat) (setup : Bool) : State :=
  if n < 4608 then { s with mesh := s.mesh.setRouter n ((s.mesh.router n).cycle setup) } else s

/-- ROUTER_GATE: at the end of the second cycle in a row without set-up a router gates itself off. -/
def execRouterGate (router : Nat) (s : State) : Host.Outcome State Fault Refusal :=
  .next (if s.mesh.router router = .on 2 then { s with mesh := s.mesh.setRouter router .gated } else s)

/-- ROUTER_WAKE: a router that has woken for two cycles is on again. -/
def execRouterWake (router : Nat) (s : State) : Host.Outcome State Fault Refusal :=
  .next (if s.mesh.router router = .waking 0 then { s with mesh := s.mesh.setRouter router (.on 0) } else s)

/-! Partition entries (R311) -/

/-- An entry without its reserved bits [61:58] and [31:0], which a write does not set (R4, R311). -/
def partStored (e : Dword) : Dword := e &&& 0xC3FFFFFF00000000#64

/-- The entry of a tenant's sub-mesh. -/
def Tenant.meshEntry (t : Tenant) (yFirst : Bool) : Dword :=
  BitVec.ofNat 64 (2 ^ 63 + b2n yFirst * 2 ^ 62 + (t.x0 + t.w - 1) * 2 ^ 51 + (t.y0 + t.h - 1) * 2 ^ 45 + t.x0 * 2 ^ 38 + t.y0 * 2 ^ 32)

/-- Is an entry the tenant's, with either order? -/
def Tenant.owns (t : Tenant) (e : Dword) : Bool := decide (e = t.meshEntry (bit e 62))

/-- The cores of an entry's rectangle. -/
def entryCores (e : Dword) : List Nat :=
  if e = 0 then [] else rectCores (field e 44 38) (field e 37 32) (field e 57 51 + 1 - field e 44 38) (field e 50 45 + 1 - field e 37 32)

/-- Write a tenant's entry into the bank that is in use, or into the other. -/
def Mesh.setEntry (m : Mesh) (t : Nat) (idle : Bool) (e : Dword) : Mesh :=
  if decide (sget 0 m.bankSel t = 0) == !idle then { m with bank0 := sset 0 m.bank0 t e } else { m with bank1 := sset 0 m.bank1 t e }

/-- The fabric manager sets up a tenant without a gang: membership of its routers and its entry; those of a tenant that is no more it
clears. -/
def writePartition (s : State) (tenant : Nat) (word : Dword) : State :=
  let e := partStored word
  if s.fw.absent 4 = true ∨ s.hub.gangs.any (fun g => decide (g.tenant = tenant)) = true then s
  else if (s.tenant tenant).any (fun t => t.owns e) || ((s.tenant tenant).isNone && decide (e = 0)) then
    { s with mesh := { s.mesh.setEntry tenant false e with members := sset 0 s.mesh.members tenant e.toNat } }
  else s

/-! Drain and swap (R314) -/

/-- Cores of the old and the new rectangle of a tenant. -/
def swapCores (s : State) (tenant : Nat) (e : Dword) : List Nat :=
  entryCores (BitVec.ofNat 64 (sget 0 s.mesh.members tenant)) ++ entryCores e

def setHolds (s : State) (cs : List Nat) (on : Bool) : State := cs.foldl (fun s c => s.modCore c (fun k => { k with ni := { k.ni with hold := on } })) s

/-- The entry in the bank not in use. -/
def Mesh.idleEntry (m : Mesh) (t : Nat) : Dword := sget 0 (if sget 0 m.bankSel t = 0 then m.bank1 else m.bank0) t

/-- ROUTE_SWAP: steps 1 and 2: the idle bank is written, and HOLD is set at the tenant's cores. -/
def execRouteSwap (tenant : Nat) (entry : Dword) (s : State) : Host.Outcome State Fault Refusal :=
  let e := partStored entry
  .next (if (s.tenant tenant).any (fun t => t.owns e) = true ∧ s.fw.absent 4 = false then
      setHolds { s with mesh := s.mesh.setEntry tenant true e } (swapCores s tenant e) true
    else s)

/-- Is a packet CLASS 0 of a tenant: from core to core of this device (R309)? -/
def classZero (tenant : Nat) (p : Packet) : Bool := decide (p.tenant = tenant) && (coreSrc p).isSome && isCoreNode p.dst

/-- BANK_FLIP: steps 3 to 5: with HOLD set and no packet of the tenant in flight, bank select flips and HOLD clears. -/
def execBankFlip (tenant : Nat) (s : State) : Host.Outcome State Fault Refusal :=
  let e := s.mesh.idleEntry tenant
  let cs := swapCores s tenant e
  .next (if entryCores e = [] ∨ cs.all (fun c => (s.core c).ni.hold) = false ∨ s.net.any (classZero tenant) = true ∨ s.fw.absent 4 = true then s
    else
      let m := s.mesh
      setHolds { s with mesh := { m with bankSel := sset 0 m.bankSel tenant (1 - sget 0 m.bankSel tenant), members := sset 0 m.members tenant e.toNat } } cs false)

end Sys2Proof.Machine
end

