-- ==== Sys2Proof/Machine/Firmware.lean ====
section
/-! DEFINITION. The firmware of the hub: mailboxes (R331, R332), the hand-over of an image (R340 to R343), the replacement of
microcode (R344), package reset (R335, R336). -/

namespace Sys2Proof.Machine

/-! Mailboxes (R331) -/

def boxNo (i j : Nat) : Fin 64 := Fin.ofNat 64 (8 * i + j)
def hubNo (i : Nat) : Fin 8 := Fin.ofNat 8 i

def Firmware.box (w : Firmware) (i j : Nat) : List Dword := w.boxes[boxNo i j]
def Firmware.setBox (w : Firmware) (i j : Nat) (l : List Dword) : Firmware := { w with boxes := w.boxes.set (boxNo i j) l }

/-- Append a word to mailbox (i, j); a full one discards it and sets OVF. -/
def Firmware.post (w : Firmware) (i j : Nat) (x : Dword) : Firmware :=
  if (w.box i j).length < 16 then w.setBox i j (w.box i j ++ [x])
  else { w with ovf := w.ovf.set (hubNo i) (w.ovf[hubNo i] ||| BitVec.ofNat 8 (2 ^ (j % 8))) }

/-- Take the head word of mailbox (i, j); an empty one changes nothing. -/
def Firmware.take (w : Firmware) (i j : Nat) : Firmware := w.setBox i j ((w.box i j).drop 1)

/-- Counts in the layout of MBST and MBFREE. -/
def packCounts (f : Nat → Nat) : Dword := BitVec.ofNat 64 (((List.range 8).map (fun i => f i * 2 ^ (5 * i))).foldl (· + ·) 0)

/-- What a 64-bit read of core self finds at an offset of the mailbox registers; 0 where there is no register to read. MBFREE gives 16 for an
empty mailbox, after reset too, where its Reset column has 0 (R331; log 95). -/
def Firmware.register (w : Firmware) (self offset : Nat) : Dword :=
  if offset % 8 ≠ 0 then 0
  else if 0x100 ≤ offset ∧ offset < 0x140 then ((w.box ((offset - 0x100) / 8) self).head?).getD 0
  else if offset = 0x200 then packCounts (fun i => (w.box i self).length)
  else if offset = 0x208 then packCounts (fun j => 16 - (w.box self j).length)
  else if offset = 0x210 then zext w.ovf[hubNo self]
  else if offset = 0x218 then zext w.ie[hubNo self]
  else 0

/-- Is a hub core interrupted: an enabled mailbox with a word (R331)? -/
def Firmware.interrupt (w : Firmware) (self : Nat) : Bool := (List.range 8).any (fun i => w.ie[hubNo self].getLsbD i && !(w.box i self).isEmpty)

/-- A read of core self gives a value. -/
def Firmware.setRead (w : Firmware) (self : Nat) (x : Dword) : Firmware := { w with reads := w.reads.set (hubNo self) x }

/-- A word of a TYPE (R332). -/
def boxWord (typ : Nat) (arg : Dword) : Dword := BitVec.ofNat 64 (typ * 2 ^ 56 + field arg 55 0)
def wordType (x : Dword) : Nat := field x 63 56
def wordArg (x : Dword) : Dword := BitVec.ofNat 64 (field x 55 0)

/-- The TYPE of the head word of a mailbox; 0 for an empty one. -/
def Firmware.headType (w : Firmware) (i j : Nat) : Nat := ((w.box i j).head?.map wordType).getD 0

/-! The hand-over machine (R341) -/

/-- The core u that runs the machine (R340, R342). -/
def Firmware.runner (w : Firmware) : Nat := if w.target = 7 then 6 else 7

/-- The cycles of the runner's clock. -/
def State.runnerClock (s : State) : Nat := s.hub.cycles[hubNo s.fw.runner]

/-- Start the watchdog afresh. -/
def State.startWatchdog (s : State) : State := { s with fw := { s.fw with watchdog := some s.runnerClock } }

/-- Is the watchdog still to act (R342)? -/
def State.watched (s : State) : Bool := s.fw.watchdog.any (fun t0 => decide (s.runnerClock < t0 + 2 ^ 27))

/-- The reply to the UPDATE that asked; none waits any more. -/
def State.answerUpdate (s : State) (status : Nat) : State :=
  let s' : State := { s with fw := { s.fw with asker := none, watchdog := none } }
  match s.fw.asker with
  | some a => s'.tellHost a.1 a.2.1 status a.2.2 []
  | none => s'

/-- The measurement entry of a function. -/
def Firmware.measure (w : Firmware) (f : Nat) : Measure := (w.measures[f]?).getD Measure.reset
def Firmware.setMeasure (w : Firmware) (f : Nat) (m : Measure) : Firmware := { w with measures := setAt w.measures f m }

/-- The bytes of an image with its manifest, in the order of R335; how the spec has them lie it does not say (log 91). -/
def signedBytes (x : FwImage) : List Byte :=
  leBytes 8 x.function ++ leBytes 8 x.version.toNat ++ leBytes 8 x.svn.toNat ++ leBytes 8 x.formats.length
    ++ x.formats.flatMap (fun f => leBytes 8 f.1 ++ leBytes 8 f.2.1 ++ leBytes 8 f.2.2) ++ leBytes 8 x.content.length ++ x.content

/-- Its SHA-384 digest, which is signed (R335). -/
def imageDigest (x : FwImage) : BitVec 384 := Config.sha384 (signedBytes x)

/-- What an image measures as (R336). -/
def imageMeasure (x : FwImage) (prov : Bool) : Measure := ⟨prov, x.svn, x.version, imageDigest x⟩

/-- Stop a hub core's image, and start one. -/
def Firmware.stop (w : Firmware) (f : Nat) : Firmware := { w with stopped := f :: w.stopped.filter (fun x => decide (x ≠ f)) }
def Firmware.start (w : Firmware) (f : Nat) : Firmware := { w with stopped := w.stopped.filter (fun x => decide (x ≠ f)) }

/-! The hand-over record (R343; log 77) -/

/-- The context of a tenant, without its pool and its graphs. -/
def Tenant.context (t : Tenant) : Tenant := { t with pool := [], res := none, graphs := [], jobs := [], granted := [], passDue := false }

/-- The rectangle of a gang and its save-area base. -/
def State.placement (s : State) (g : Gang) : Nat × List Nat × Dword :=
  (g.id, [g.x0, g.y0, g.w, g.h], (g.saved.head?.getD (s.core (coreAt g.x0 g.y0))).ctl.saveva - 0xA0000#64)

def LinkState.slots (l : LinkState) : List KeySlot := [l.tx0, l.tx1, l.rx0, l.rx1]

/-- The sections that a function writes: TYPE, REQUIRED and contents. Those of the security manager's record are its keys; of the other
functions' the spec names none. -/
def State.sections (s : State) (f : Nat) : List (Nat × Bool × Config.Section) :=
  let ts := s.hub.tenants
  let gs := s.hub.gangs
  let ls := s.fab.links
  match f with
  | 1 => [(0x0101, true, .contexts (ts.map Tenant.context)), (0x0102, true, .queues (ts.map (fun t => (t.id, t.pool)))),
          (0x0103, true, .placements (gs.map s.placement)), (0x0104, true, .reservations (ts.map (fun t => (t.id, t.res)))),
          (0x0105, true, .counters s.hub.counters), (0x0106, true, .grants (gs.map (fun g => (g.id, g.bars, g.cslots)))), (0x0107, false, .statistics s.fresh)]
  | 4 => [(0x0401, true, .partitions s.mesh.bankSel s.mesh.bank0 s.mesh.bank1), (0x0402, true, .routes s.fab.routing s.fab.flows),
          (0x0403, true, .links (ls.map (fun l => (l.link, l.up, l.unacked.map Sent.replays)))),
          (0x0404, true, .keySlots (ls.map (fun l => (l.link, l.slots.map (fun k => (k.loaded, k.ic, k.retiring)))))), (0x0405, false, .congestion s.fresh)]
  | 6 => [(Config.keyType % 65536, true, .keys s.mem.keys (ls.map (fun l => (l.link, l.slots))) (s.fab.sessions.map (fun x => (x.id, x.z))))]
  | _ => []

/-- A directory entry: TYPE, REQUIRED, section version, offset, length. -/
structure SectionEntry where
  typ : Nat
  required : Bool
  version : Nat
  off : Nat
  len : Nat
deriving DecidableEq, Repr

def SectionEntry.bytes (e : SectionEntry) : List Byte := leBytes 2 e.typ ++ leBytes 2 (b2n e.required) ++ leBytes 4 e.version ++ leBytes 4 e.off ++ leBytes 4 e.len

/-- The directory of sections whose bytes begin at an offset. -/
def recordDirectory (version : Dword) : List (Nat × Bool × Config.Section) → Nat → List SectionEntry
  | x :: l, off =>
    let n := (Config.sectionBytes x.2.2).length
    ⟨x.1, x.2.1, Config.sectionVersion x.1 version, off, n⟩ :: recordDirectory version l (off + n)
  | [], _ => []

/-- The record that the old image of a function writes at its n-th hand-over, with the sections that it holds. -/
def handoverRecord (f n : Nat) (version : Dword) (secs : List (Nat × Bool × Config.Section)) : List Byte :=
  let body := (recordDirectory version secs (128 + 16 * secs.length)).flatMap SectionEntry.bytes ++ secs.flatMap (fun x => Config.sectionBytes x.2.2)
  leBytes 4 0x4F4D4552 ++ leBytes 1 f ++ leBytes 1 0 ++ leBytes 2 (Config.recordFormat f version) ++ leBytes 4 secs.length ++ leBytes 4 version.toNat
    ++ leBytes 8 n ++ leBytes 8 (128 + body.length) ++ leBytes 48 0 ++ leBytes 48 (Config.sha384 body).toNat ++ body

/-- A field of a record: n bytes at an offset. -/
def recordField (r : List Byte) (off n : Nat) : Nat := leNat ((r.drop off).take n)

/-- The directory entry at an index of a record. -/
def sectionAt (r : List Byte) (i : Nat) : SectionEntry :=
  let at_ := 0x80 + 16 * i
  ⟨recordField r at_ 2, (recordField r (at_ + 2) 2).testBit 0, recordField r (at_ + 4) 4, recordField r (at_ + 8) 4, recordField r (at_ + 12) 4⟩

/-- Does an image's manifest accept a version of a TYPE? -/
def acceptsVersion (x : FwImage) (typ version : Nat) : Bool := x.formats.any (fun f => decide (f.1 = typ) && decide (f.2.1 ≤ version) && decide (version ≤ f.2.2))

/-- Does a new image accept a record? Sections that are not REQUIRED do not matter. -/
def acceptsRecord (x : FwImage) (r : List Byte) : Bool :=
  decide (recordField r 0 4 = 0x4F4D4552) && decide (recordField r 4 1 = x.function) && acceptsVersion x 0 (recordField r 6 2)
    && (List.range (recordField r 8 4)).all (fun i => let e := sectionAt r i; !e.required || acceptsVersion x e.typ e.version)
    && decide (recordField r 0x50 48 = (Config.sha384 ((r.drop 128).take (recordField r 0x18 8 - 128))).toNat)

/-- Does the staged image accept the record it is started with? -/
def Firmware.recordAccepted (w : Firmware) : Bool := w.stagedImg.any (fun x => acceptsRecord x w.recordBytes)

/-- HANDED in QUIESCING: the target stops, the new image is loaded behind the closed gate and is to start with RESUME. -/
def handOver (s : State) (record : Dword) : State :=
  let f := s.fw.target
  let n := sget 0 s.fw.handovers f + 1
  let w := { s.fw.stop f with update := .starting, record := record, gate := true, oldMeasure := some (s.fw.measure f),
                              recordBytes := handoverRecord f n (s.fw.measure f).version (s.sections f), handovers := sset 0 s.fw.handovers f n }
  let w := match s.fw.stagedImg with
    | some x => w.setMeasure f (imageMeasure x true)
    | none => w
  { s.draw with fw := w.post w.runner f (boxWord 0xF2 record) }.startWatchdog

/-- STARTING to RESUMING: the target stops, the old image is loaded and is to start with RESUME and the same record. -/
def rollBack (s : State) : State :=
  let f := s.fw.target
  let w := { s.fw.stop f with update := .resuming, gate := false }
  let w := match s.fw.oldMeasure with
    | some m => w.setMeasure f m
    | none => w
  { s with fw := w.post w.runner f (boxWord 0xF2 s.fw.record) }.startWatchdog

/-- STARTING to IDLE: the update commits. -/
def commitUpdate (s : State) : State :=
  let f := s.fw.target
  { s with fw := { s.fw.setMeasure f { s.fw.measure f with prov := false } with update := .idle, gate := false, stagedImg := none, oldMeasure := none } }.answerUpdate 0

/-- RESUMING to IDLE: the old image runs again. -/
def endRollback (s : State) : State :=
  { s with fw := { s.fw with update := .idle, stagedImg := none, oldMeasure := none } }.answerUpdate 7

/-- RESUMING to FAILED: the core stops. -/
def failUpdate (s : State) : State :=
  (reportLink { s with fw := { s.fw.stop s.fw.target with update := .failed, failedFns := s.fw.failedFns ++ [s.fw.target] } }).answerUpdate 8

/-- The new image is seen to fail, or the old one that resumes (R341). -/
def imageFails (s : State) : State :=
  match s.fw.update with
  | .starting => rollBack s
  | .resuming => failUpdate s
  | _ => s

/-- A word of the update protocol from the target to the runner: it enters the mailbox, where it has room, and counts as it enters, before
the watchdog acts; later it is discarded (R342). -/
def protocolWord (s : State) (word : Dword) (act : State → State) : State :=
  let w := s.fw
  if s.watched = false ∨ w.stopped.contains w.target = true then s
  else
    let t : State := { s with fw := w.post w.target w.runner word }
    if 16 ≤ (w.box w.target w.runner).length then t else act t

/-- HANDED acts in QUIESCING (R341). -/
def takeHanded (s : State) (word : Dword) : State :=
  if s.fw.update = .quiescing then protocolWord s word (fun s => handOver s (wordArg word)) else s

/-- ALIVE commits the update, or ends the rollback (R341). -/
def takeAlive (s : State) (word : Dword) : State :=
  match s.fw.update with
  | .starting => protocolWord s word commitUpdate
  | .resuming => protocolWord s word endRollback
  | _ => s

/-- REJECT starts the rollback (R341). -/
def takeReject (s : State) (word : Dword) : State := if s.fw.update = .starting then protocolWord s word rollBack else s

/-- Is a word of this TYPE from core i one that the machine waits for, or one that comes after the watchdog has acted (R342)? -/
def Firmware.awaits (w : Firmware) (i j typ : Nat) : Bool :=
  decide (i = w.target) && decide (j = w.runner) &&
    (match w.update with
      | .quiescing => decide (typ = 0xF1)
      | .staged => w.late && decide (typ = 0xF1)
      | .starting => decide (typ = 0xF3) || decide (typ = 0xF4)
      | .resuming => decide (typ = 0xF3)
      | _ => false)

/-- Is a core behind the closed gate (R342)? -/
def Firmware.gated (w : Firmware) (i : Nat) : Bool := w.gate && decide (w.update = .starting) && decide (w.target = i)

/-- Does a hub core's image run at all? -/
def Firmware.runs (w : Firmware) (i : Nat) : Bool := decide (i < 8) && !w.stopped.contains i && !w.failedFns.contains i

/-- A write of TX[j] by core i (R331, R342). -/
def writeTx (s : State) (i j : Nat) (x : Dword) : State :=
  let w := s.fw
  if w.gated i = true ∧ j ≠ w.runner then rollBack s
  else if w.awaits i j (wordType x) then
    (if wordType x = 0xF1 then takeHanded s x else if wordType x = 0xF3 then takeAlive s x else takeReject s x)
  else { s with fw := w.post i j x }

/-- TX_WRITE: a core writes TX[j]. -/
def execTxWrite (self j : Nat) (word : Dword) (s : State) : Host.Outcome State Fault Refusal :=
  .next (if s.fw.runs self = true ∧ j < 8 then writeTx s self j word else s)

/-- A 64-bit read of RX[i] gives the head word of mailbox (i, self), or 0, and takes it; an image behind the closed gate reads and
consumes nothing (R331, R342). -/
def readRx (s : State) (self i : Nat) : State :=
  let w := s.fw.setRead self (s.fw.register self (0x100 + 8 * i))
  { s with fw := if s.fw.gated self then w else w.take i self }

/-- RX_READ. -/
def execRxRead (self i : Nat) (s : State) : Host.Outcome State Fault Refusal :=
  .next (if s.fw.runs self = true ∧ i < 8 then readRx s self i else s)

/-- A read of the mailbox registers: other widths than 64 bits read 0 (R331). -/
def mailRead (s : State) (self offset width : Nat) : State :=
  if s.fw.runs self = false then s
  else if width ≠ 8 then { s with fw := s.fw.setRead self 0 }
  else if 0x100 ≤ offset ∧ offset < 0x140 ∧ offset % 8 = 0 then readRx s self ((offset - 0x100) / 8)
  else { s with fw := s.fw.setRead self (s.fw.register self offset) }

/-- A write that a core behind the gate may not make rolls the update back (R342). -/
def behindGate (s : State) (self : Nat) (act : State → State) : State :=
  if s.fw.runs self = false then s else if s.fw.gated self then rollBack s else act s

/-- MBOVF: a 1 clears its bit. -/
def clearOvf (self : Nat) (bits : BitVec 8) (s : State) : State :=
  { s with fw := { s.fw with ovf := s.fw.ovf.set (hubNo self) (s.fw.ovf[hubNo self] &&& ~~~bits) } }

/-- MBOVF_CLEAR. -/
def execMbovfClear (self : Nat) (bits : BitVec 8) (s : State) : Host.Outcome State Fault Refusal :=
  .next (behindGate s self (clearOvf self bits))

/-- A 64-bit write at an offset of the mailbox registers; those without a register ignore it (R331). -/
def writeHubRegister (self offset : Nat) (value : Dword) (s : State) : State :=
  if offset = 0x218 then { s with fw := { s.fw with ie := s.fw.ie.set (hubNo self) (BitVec.ofNat 8 value.toNat) } }
  else if offset = 0x210 then clearOvf self (BitVec.ofNat 8 value.toNat) s
  else s

/-- REGISTER_WRITE: other widths than 64 bits write nothing (R331). -/
def execRegisterWrite (self offset : Nat) (value : BusWord) (s : State) : Host.Outcome State Fault Refusal :=
  .next (if value.width = 8 ∧ offset < 64 ∧ offset % 8 = 0 then (if s.fw.runs self then writeTx s self (offset / 8) value.data else s)
    else behindGate s self (fun s => if value.width = 8 then writeHubRegister self offset value.data s else s))

/-! The steps of a hand-over (R341) -/

/-- QUIESCE: the target takes the word and makes for its quiescent point. -/
def execQuiesce (s : State) : Host.Outcome State Fault Refusal :=
  let w := s.fw
  .next (if w.update = .quiescing ∧ w.headType w.runner w.target = 0xF0 then { s with fw := w.take w.runner w.target } else s)

/-- HANDED. -/
def execHanded (record : Dword) (s : State) : Host.Outcome State Fault Refusal := .next (takeHanded s (boxWord 0xF1 record))

/-- A new image that does not accept the record posts REJECT (R343). -/
def judgeRecord (s : State) : State :=
  if s.fw.update = .starting ∧ s.fw.recordAccepted = false then takeReject s.draw (boxWord 0xF4 (Config.rejectReason s.fresh)) else s

/-- RESUME: the loaded image takes the word, where it is the head of its mailbox, and starts with the record's address; T0 of R342 is this
cycle. -/
def execResume (s : State) : Host.Outcome State Fault Refusal :=
  let w := s.fw
  .next (if (w.update = .starting ∨ w.update = .resuming) ∧ w.stopped.contains w.target = true ∧ w.headType w.runner w.target = 0xF2 then
      judgeRecord { s with fw := (w.take w.runner w.target).start w.target }.startWatchdog
    else s)

/-- ALIVE. -/
def execAlive (version : Dword) (s : State) : Host.Outcome State Fault Refusal := .next (takeAlive s (boxWord 0xF3 version))

/-- REJECT. -/
def execReject (reason : Nat) (s : State) : Host.Outcome State Fault Refusal := .next (takeReject s (boxWord 0xF4 (BitVec.ofNat 64 reason)))

/-- CONTINUE: the target takes the word and goes on. -/
def execContinueImage (s : State) : Host.Outcome State Fault Refusal :=
  let w := s.fw
  .next (if w.headType w.runner w.target = 0xF5 then { s with fw := w.take w.runner w.target } else s)

/-- GATED_WRITE: discarded, and the update rolls back (R342). -/
def execGatedWrite (s : State) : Host.Outcome State Fault Refusal :=
  .next (if s.fw.gated s.fw.target = true ∧ s.fw.runs s.fw.target = true then rollBack s else s)

/-- IMAGE_FAULT. -/
def execImageFault (s : State) : Host.Outcome State Fault Refusal :=
  .next (if s.fw.runs s.fw.target then imageFails s else s)

/-! Microcode (R344) -/

def State.clearSwitched (s : State) : State :=
  s.cores.foldl (fun s p => s.modCore p.1 (fun k => { k with ctl := { k.ctl with switched := false } })) s

/-- The replacement ends without effect. -/
def endMicro (s : State) : State :=
  { s with fw := { s.fw with micro := .none, stagedImg := none, reported := [] } }.answerUpdate 7

/-- Step 4 goes on until every switched core has switched back. -/
def settleMicro (s : State) : State := if s.cores.any (fun p => p.2.ctl.switched) then s else endMicro s

/-- A core with no work for its supervisor slot and no pre-emption in progress. -/
def Core.microIdle (k : Core) : Bool := decide (k.scause = 0) && decide (k.ctl.pre = .none)

def Core.switchBank (k : Core) (on : Bool) : Core := { k with ctl := { k.ctl with bank := 1 - k.ctl.bank, switched := on } }

/-- All 4,608 cores have reported: the change commits. -/
def commitMicro (s : State) : State :=
  let w := match s.fw.stagedImg with
    | some x => s.fw.setMeasure 8 (imageMeasure x false)
    | none => s.fw
  ({ s with fw := { w with micro := .none, stagedImg := none, reported := [] } }.clearSwitched).answerUpdate 0

/-- MICROCODE_MULTICAST_DONE: the idle banks hold the new microcode, and the watchdog starts. -/
def execMicrocodeMulticastDone (s : State) : Host.Outcome State Fault Refusal :=
  .next (if s.fw.micro = .multicasting then { s with fw := { s.fw with micro := .switching } }.startWatchdog else s)

/-- MICROCODE_BANK_SWITCH: a core switches in a cycle with SCAUSE = 0 and PRESTATE = NONE, and reports. -/
def execMicrocodeBankSwitch (core : Nat) (s : State) : Host.Outcome State Fault Refusal :=
  .next (if s.fw.micro = .switching ∧ core < 4608 ∧ s.fw.reported.contains core = false ∧ (s.core core).microIdle = true ∧ s.watched = true then
      let s := s.modCore core (fun k => k.switchBank true)
      let s : State := { s with fw := { s.fw with reported := core :: s.fw.reported } }
      if s.fw.reported.length = 4608 then commitMicro s else s
    else s)

/-- MICROCODE_SWITCH_BACK: a switched core switches back at its next such cycle. -/
def execMicrocodeSwitchBack (core : Nat) (s : State) : Host.Outcome State Fault Refusal :=
  .next (if s.fw.micro = .rollingBack ∧ (s.core core).ctl.switched = true ∧ (s.core core).microIdle = true then
      settleMicro (s.modCore core (fun k => k.switchBank false))
    else s)

/-! The watchdog (R341, R342, R344) -/

/-- What the watchdog does in the cycle in which it acts. -/
def watchdogActs (s : State) : State :=
  match s.fw.update with
  | .quiescing =>
    let w := { s.fw with update := .staged, late := true }
    { s with fw := w.post w.runner w.target (boxWord 0xF5 0) }.answerUpdate 9
  | .starting => rollBack s
  | .resuming => failUpdate s
  | _ => if s.fw.micro = .switching then settleMicro { s with fw := { s.fw with micro := .rollingBack, watchdog := none } } else s

/-- WATCHDOG_EXPIRY: from cycle T0 + 2^27 on. -/
def execWatchdogExpiry (s : State) : Host.Outcome State Fault Refusal :=
  .next (if s.fw.watchdog.isSome ∧ s.watched = false then watchdogActs s else s)

/-! Package reset (R335, R336) -/

/-- Does an image verify: signed under the release key, and its SVN no lower than its function's minimum? -/
def Firmware.verifies (w : Firmware) (x : FwImage) : Bool := Config.ecdsaVerify Config.releaseKey (imageDigest x) x.sig && decide ((sget 0 w.svnMin x.function).toNat ≤ x.svn.toNat)

/-- The image of a function that starts at reset; without a boot image that verifies, none. -/
def bootImage (w : Firmware) (images : List FwImage) (f : Nat) : Option FwImage :=
  if images.any (fun x => decide (x.function = 9) && w.verifies x) then images.find? (fun x => decide (x.function = f) && w.verifies x) else none

/-- The links of a package whose straps name a point (R317). -/
def strapLinks (point : Nat) : List LinkState :=
  let ports := (List.range 37).filter (fun i => !(decide (i = 32) && orthogonal point point))
  LinkState.reset (.prenor 0) :: ports.map (fun i => LinkState.reset (.port i))

/-- The fabric after reset (R317): straps that name no point of a pod make a package that stands alone. -/
def strapped (strap : Option Nat) : Fabric :=
  match strap with
  | some d => if devPoint d < 1057 ∧ d < 2 ^ 22 then { Fabric.reset with device := d, strapped := true, links := strapLinks (devPoint d) } else Fabric.reset
  | none => Fabric.reset

/-- PACKAGE_RESET: everything is as at reset, headers RAW among it; what the installation fused or wrote once stays, and so do the bytes
of device memory, of which no block is in error any more: the spec does not say that an error outlives a reset (log 67). The images that
verify start; each that does not is reported as FAILED through session 0. -/
def execPackageReset (images : List FwImage) (strap : Option Nat) (s : State) : Host.Outcome State Fault Refusal :=
  let fns := (List.range 10).filter (fun f => (bootImage s.fw images f).isNone)
  let entry (f : Nat) : Measure := ((bootImage s.fw images f).map (fun x => imageMeasure x false)).getD Measure.reset
  let r : State := { State.reset with
    mem := { DevMem.reset with bytes := s.mem.bytes },
    hub := { Hub.reset with operatorKey := s.hub.operatorKey },
    fab := strapped strap,
    fw := { Firmware.reset with svnMin := s.fw.svnMin, measures := (List.range 10).map entry, failedFns := fns },
    agenda := s.agenda, fresh := s.fresh }
  .next (fns.foldl (fun s f => s.tellHost 0 0 8 0 [BitVec.ofNat 64 f]) r)

/-- OPERATOR_KEY_WRITE: once, at first power-up (R338). -/
def execOperatorKeyWrite (digest : BitVec 384) (s : State) : Host.Outcome State Fault Refusal :=
  .next (if s.hub.operatorKey.isNone then { s with hub := { s.hub with operatorKey := some digest } } else s)

end Sys2Proof.Machine
end

