-- ==== Sys2Proof/Machine/Host.lean ====
section
/-! DEFINITION. The host: commands (R333, R334), sessions and reports (R337, R338), host windows (R326). -/

namespace Sys2Proof.Machine

/-! The command path (R333) -/

/-- An open session by its number. -/
def State.session (s : State) (n : Nat) : Option Session := s.fab.sessions.find? (fun x => decide (x.id = n))

/-- Is a session open: confirmed, with its keys (R338)? -/
def State.isOpen (s : State) (n : Nat) : Bool := s.fab.sessionOpen n

/-- The tenant of a confirmed session; session 0 has none. -/
def State.sessionTenant (s : State) (n : Nat) : Option Nat := if n = 0 then none else ((s.session n).filter Session.confirmed).map Session.tenant

/-! The header of a command -/

def cmdOpcode (h : CmdHdr) : Nat := field h.header 15 0
def cmdSeq (h : CmdHdr) : Nat := field h.header 95 64
def cmdLen (h : CmdHdr) : Nat := field h.header 127 96

/-- Is LEN right, a multiple of 8 up to 65,536 and the length of the command's body? -/
def lenOk (h : CmdHdr) (body : List Byte) : Bool := decide (cmdLen h % 8 = 0) && decide (cmdLen h ≤ 65536) && decide (cmdLen h = body.length)

/-- Are STATUS and the zero fields zero? -/
def zeroOk (h : CmdHdr) : Bool := decide (field h.header 63 16 = 0)

/-- The operands of a command as its body holds them, the spec leaving their layout open: in the order of R334, each in whole dwords, from
its size in bytes and its value (log 91). -/
def operandBytes (l : List (Nat × Nat)) : List Byte := l.flatMap (fun x => leBytes (8 * ((x.1 + 7) / 8)) x.2)

/-- A reply to a command. -/
def State.reply (s : State) (h : CmdHdr) (status : Nat) (words : List Dword) : State := s.tellHost h.session (cmdOpcode h) status (cmdSeq h) words

/-- Is the SEQ one more than the session's last accepted? -/
def State.seqOk (s : State) (h : CmdHdr) : Bool := decide (cmdSeq h = (sget 0 s.hub.seqs h.session + 1) % 2 ^ 32)

/-- Take bytes that a session's link has received, in their order (R325): those of a head, and `len` more behind it. -/
def State.takeBytes (s : State) (n : Nat) (head : List Byte) (len : Nat) : Option State :=
  match s.fab.link (.prenor n) with
  | none => none
  | some l =>
    if l.rxBytes.take head.length = head ∧ head.length + len ≤ l.rxBytes.length then
      some (s.setLink { l with rxBytes := l.rxBytes.drop (head.length + len) })
    else none

/-- The command that the parser takes from its session: header and body, where they are what has been received next. Of a body that is not
as long as the command's the bytes mean nothing, and a header whose LEN is past 65,536 is taken alone. What opens session 0 itself comes
before that session has keys, and so not in its flits (log 75). -/
def State.received (s : State) (h : CmdHdr) (opcode : Nat) (body : List Byte) : Option State :=
  let head := leBytes 16 h.header.toNat
  if cmdOpcode h ≠ opcode then none
  else if h.session = 0 ∧ s.isOpen 0 = false then some s
  else if cmdLen h = body.length then s.takeBytes h.session (head ++ body) 0
  else s.takeBytes h.session head (if cmdLen h ≤ 65536 then cmdLen h else 0)

/-- May a command be taken in its session: one that is open, or session 0 for what opens it (R325, R338)? -/
def State.sessionOk (s : State) (h : CmdHdr) : Bool := s.isOpen h.session || (decide (h.session = 0) && [0x41, 0x42].contains (cmdOpcode h))

/-- A command: it waits in its session, where its bytes stay, while the parser's image is replaced, one of no open session is discarded
and reported, and the parser refuses what R333 names, in that order. What its function cannot take yet waits too (`waits`). -/
def command (s : State) (h : CmdHdr) (opcode : Nat) (body : List Byte) (allowed waits : Bool) (go : State → State) : State :=
  match s.received h opcode body with
  | none => s
  | some t =>
    if s.fw.absent 0 then s
    else if s.sessionOk h = false then reportLink t
    else if lenOk h body = false ∨ zeroOk h = false then t.reply h 1 []
    else if allowed = false then t.reply h 2 []
    else if s.seqOk h = false then t.reply h 6 []
    else if waits then s
    else go { t with hub := { t.hub with seqs := sset 0 t.hub.seqs h.session (cmdSeq h) } }

/-- A command of the operator's session. -/
def operatorCommand (s : State) (h : CmdHdr) (opcode : Nat) (body : List Byte) (waits : Bool) (go : State → State) : State :=
  command s h opcode body (decide (h.session = 0)) waits go

/-- A command of a tenant's session. -/
def tenantCommand (s : State) (h : CmdHdr) (opcode : Nat) (body : List Byte) (go : Nat → State → State) : State :=
  command s h opcode body (decide (h.session ≠ 0)) false (go ((s.sessionTenant h.session).getD 0))

/-- Opcodes of R334. -/
def opcodes : List Nat := [0x01, 0x02, 0x10, 0x11, 0x12, 0x20, 0x21, 0x30, 0x31, 0x32, 0x40, 0x41, 0x42, 0x43, 0x50, 0x51, 0x60, 0x70]

/-- UNKNOWN_OPCODE: BADCMD, before any other test of R333. -/
def execUnknownOpcode (h : CmdHdr) (opcode : Nat) (s : State) : Host.Outcome State Fault Refusal :=
  .next (if opcodes.contains opcode then s
    else match s.received h opcode [] with
      | none => s
      | some t => if s.fw.absent 0 then s else if s.sessionOk h then t.reply h 1 [] else reportLink t)

/-! Tenants (R255, R334, R339) -/

/-- Is a sub-mesh in the grid, not empty, and apart from every other tenant's? -/
def subMeshOk (s : State) (tenant x0 y0 w h : Nat) : Bool :=
  decide (1 ≤ w) && decide (1 ≤ h) && decide (x0 + w ≤ 72) && decide (y0 + h ≤ 64)
    && s.hub.tenants.all (fun t => decide (t.id = tenant) || !rectsMeet x0 y0 w h t.x0 t.y0 t.w t.h)

/-- A key slot that no tenant owns. -/
def freeKey (m : DevMem) : Option Nat := ((List.range 255).map (· + 1)).find? (fun k => decide (sget 0 m.keys k = 0))

/-- A tenant context as its creation makes it. -/
def newTenant (id x0 y0 w h displim : Nat) (debug : Bool) (owner : BitVec 384) (key : Nat) : Tenant where
  id := id
  x0 := x0
  y0 := y0
  w := w
  h := h
  displim := displim
  debug := debug
  owner := owner
  keySlot := key
  pool := []
  res := none
  graphs := []
  jobs := []
  nextGraph := 1
  nextJob := 1
  order := 0
  granted := []
  passDue := false

/-- Create or change a context: status and state. -/
def setTenant (s : State) (tenant x0 y0 w ht displim : Nat) (debug : Bool) (owner : BitVec 384) : State × Nat :=
  if 256 ≤ tenant ∨ 65536 ≤ displim ∨ subMeshOk s tenant x0 y0 w ht = false then (s, 1)
  else match s.tenant tenant with
    | some t =>
      let moved := decide ((x0, y0, w, ht) ≠ (t.x0, t.y0, t.w, t.h))
      if owner ≠ t.owner then (s, 2)
      else if moved = true ∧ s.hub.gangs.any (fun g => decide (g.tenant = tenant)) = true then (s, 3)
      else (s.modTenant tenant (fun t => { t with x0 := x0, y0 := y0, w := w, h := ht, displim := displim, debug := debug,
                                                  res := if moved then none else t.res, passDue := true }), 0)
    | none => match freeKey s.mem with
      | none => (s, 4)
      | some k =>
        ({ s with mem := { s.mem with keys := sset 0 s.mem.keys k (tenant + 1) },
                  hub := { s.hub with tenants := s.hub.tenants ++ [newTenant tenant x0 y0 w ht displim debug owner k] } }, 0)

/-- TENANTSET. A creation loads a key, and so waits while the security manager's image is replaced (R330, R339). -/
def execTenantset (h : CmdHdr) (tenant x0 y0 w ht displim : Nat) (debug : Bool) (owner : BitVec 384) (s : State) : Host.Outcome State Fault Refusal :=
  .next (operatorCommand s h 0x01 (operandBytes [(8, tenant), (8, x0), (8, y0), (8, w), (8, ht), (8, displim), (8, b2n debug), (48, owner.toNat)]) ((s.tenant tenant).isNone && s.fw.absent 6) (fun s =>
    let r := setTenant s tenant x0 y0 w ht displim debug owner
    r.1.reply h r.2 []))

/-- Erase a session: its keys, its link and its windows. Of session 0 the link stays, without keys. -/
def closeSession (s : State) (n : Nat) : State :=
  let links := s.fab.links.filter (fun l => decide (l.link ≠ .prenor n))
  { s with fab := { s.fab with sessions := s.fab.sessions.filter (fun x => decide (x.id ≠ n)), links := if n = 0 then LinkState.reset (.prenor 0) :: links else links },
           hub := { s.hub with seqs := sset 0 s.hub.seqs n 0 } }

/-- TENANTCLOSE: every job is cancelled, the tenant's sessions close, its key slots retire, and no frame is its own any more (R70). The
context stays for good, with key slot 0, for the spec does not say that it goes (R334; log 63). -/
def closeTenant (s : State) (t : Tenant) : State :=
  let s := (t.jobs.map Graph.id).foldl (fun s j => cancelJob s t.id j) s
  let s := ((s.fab.sessions.filter (fun x => decide (x.id ≠ 0) && decide (x.tenant = t.id))).map Session.id).foldl closeSession s
  let theirs (p : Nat × Nat) : Bool := decide (p.2 ≠ t.id + 1)
  { s with mem := { s.mem with keys := s.mem.keys.filter theirs, frames := s.mem.frames.filter theirs } }.modTenant t.id (fun t => { t with keySlot := 0 })

def execTenantclose (h : CmdHdr) (tenant : Nat) (s : State) : Host.Outcome State Fault Refusal :=
  .next (operatorCommand s h 0x02 (operandBytes [(8, tenant)]) false (fun s =>
    match s.tenant tenant with
    | none => s.reply h 1 []
    | some t => (closeTenant s t).reply h 0 []))

/-! Gangs (R264, R270, R290) -/

/-- The job and graph that a job word names or starts; none where it names none that is live (R264). -/
def jobOf (t : Tenant) (rec : BitVec 512) (job : BitVec 128) : Option (Tenant × Nat × Nat) :=
  let j := field job 31 0
  let g := field job 63 32
  if field job 127 65 ≠ 0 then none
  else if bit job 64 then
    let a := newJob t
    let b := newGraph a.1 a.2
    some (b.1, a.2, b.2)
  else if t.jobs.any (fun x => decide (x.id = j)) = false then none
  else if recNewGraph rec then
    let b := newGraph t j
    some (b.1, j, b.2)
  else if t.graphs.any (fun x => decide (x.id = g) && decide (x.job = j)) then some (t, j, g) else none

/-- SUBMIT: as LAUNCH does, at depth 0, for no issuing gang; its body is the record and the job word (R264). -/
def submitRecord (s : State) (h : CmdHdr) (tenant : Nat) (rec : BitVec 512) (job : BitVec 128) : State :=
  match s.tenant tenant with
  | none => s.reply h 1 []
  | some t => match jobOf t rec job with
    | none => s.reply h 1 []
    | some (t', j, g) =>
      if t.freeIndexes = [] then s.reply h 4 []
      else
        let r := enterPool s t' ⟨rec, tenant * 256 + recProcId rec, 0, j, g, none, true⟩
        r.1.reply h 0 [BitVec.ofNat 64 r.2, BitVec.ofNat 64 j, BitVec.ofNat 64 g]

def execSubmit (h : CmdHdr) (rec : BitVec 512) (job : BitVec 128) (s : State) : Host.Outcome State Fault Refusal :=
  .next (tenantCommand s h 0x10 (leBytes 64 rec.toNat ++ leBytes 16 job.toNat) (fun t s => submitRecord s h t rec job))

/-- A gang of a tenant, or of any where none is given, by the gang id that programs see. -/
def State.gangById (s : State) (tenant : Option Nat) (id : Nat) : Option Gang :=
  s.hub.gangs.find? (fun g => decide ((Config.gangId g.id).toNat = id) && tenant.all (fun t => decide (t = g.tenant)))

/-- CANCEL of the host, as the instruction's (R270): level 1 a gang, level 2 a graph, level 3 a job, that has not ended. R334 names levels 2 and
3 alone (log 104). -/
def hostCancel (s : State) (tenant level id : Nat) : State × Nat :=
  match s.tenant tenant with
  | none => (s, 1)
  | some t =>
    if level = 1 then
      (match s.gangById (some tenant) id with
       | some g => (endGang s g.id true, 0)
       | none => (s, 1))
    else if level = 2 ∧ t.graphs.any (fun x => decide (x.id = id)) = true then (cancelGraph s tenant id, 0)
    else if level = 3 ∧ t.jobs.any (fun x => decide (x.id = id)) = true then (cancelJob s tenant id, 0)
    else (s, 1)

def execCancelCmd (h : CmdHdr) (level id : Nat) (s : State) : Host.Outcome State Fault Refusal :=
  .next (tenantCommand s h 0x11 (operandBytes [(8, level), (8, id)]) (fun t s =>
    let r := hostCancel s t level id
    r.1.reply h r.2 []))

/-- PREEMPT of the host: a gang by its id, of the session's tenant or, for the operator, of any. -/
def execPreemptCmd (h : CmdHdr) (gang : Nat) (s : State) : Host.Outcome State Fault Refusal :=
  .next (command s h 0x12 (operandBytes [(8, gang)]) true false (fun s =>
    match s.gangById (s.sessionTenant h.session) gang with
    | none => s.reply h 1 []
    | some g => (requestPreempt s g.id).reply h 0 []))

/-- RESUME of the host: a slot of the tenant in DEBUG goes on at EPC; where its core is being pre-empted it is stopped there (R282,
R283). -/
def hostResume (s : State) (tenant core slot : Nat) : State × Nat :=
  let k := s.core core
  let i := slotNo slot
  if core < 4608 ∧ slot < 4 ∧ k.gang.isSome = true ∧ k.tenant = tenant ∧ (k.slot i).state = .debug then
    (s.modSlot core i (fun x => { x with pc := x.epc, state := if k.ctl.pre = .none then .active else .stopped }), 0)
  else (s, 1)

def execResumeCmd (h : CmdHdr) (core slot : Nat) (s : State) : Host.Outcome State Fault Refusal :=
  .next (tenantCommand s h 0x70 (operandBytes [(8, core), (8, slot)]) (fun t s =>
    let r := hostResume s t core slot
    r.1.reply h r.2 []))

/-! Modes (R17, R18) -/

/-- MODE: 0 Full, 1 Reduced, 2 Low, another code BADCMD; the reply says OK at the request, not when the change is complete (the spec gives
no body and no reply: log 74). -/
def execMode (h : CmdHdr) (mode : Nat) (s : State) : Host.Outcome State Fault Refusal :=
  .next (operatorCommand s h 0x20 (operandBytes [(8, mode)]) false (fun s =>
    if 2 < mode then s.reply h 1 []
    else { s with mesh := s.mesh.askMode (s.fw.absent 5) mode }.reply h 0 []))

/-- BYPASS: the fabric manager sets L, and the command waits while its image is replaced (R18, R330). Another length is BADCMD, and the
reply comes when L is set (the spec gives no body and no reply: log 74). -/
def execBypass (h : CmdHdr) (len : Nat) (s : State) : Host.Outcome State Fault Refusal :=
  .next (operatorCommand s h 0x21 (operandBytes [(8, len)]) (s.fw.absent 4) (fun s =>
    if [1, 2, 4, 8].contains len then { s with mesh := { s.mesh with bypass := len } }.reply h 0 [] else s.reply h 1 []))

/-! Firmware (R340, R341, R344) -/

/-- Is a hand-over or a replacement of microcode in progress, or has one failed? -/
def Firmware.busy (w : Firmware) : Bool := !(decide (w.update = .idle) || decide (w.update = .staged)) || decide (w.micro ≠ .none)

/-- Does a command for an image wait? The update manager takes it, for its own image the security manager (R330, R340). -/
def Firmware.updateWaits (w : Firmware) (function : Nat) : Bool := if function = 7 ∧ w.busy = false then w.absent 6 else w.absent 7

/-- An image with its signature in the body of STAGE, in whole dwords (log 91). -/
def imageBytes (x : FwImage) : List Byte := operandBytes [((signedBytes x).length, leNat (signedBytes x)), (96, x.sig.toNat)]

/-- STAGE: the image replaces a staged one, unless it does not verify. -/
def execStage (h : CmdHdr) (img : FwImage) (s : State) : Host.Outcome State Fault Refusal :=
  .next (operatorCommand s h 0x30 (imageBytes img) (s.fw.updateWaits img.function) (fun s =>
    if s.fw.busy then s.reply h 3 []
    else if s.fw.verifies img = false ∨ 9 < img.function then s.reply h 5 []
    else { s with fw := { s.fw with stagedImg := some img, update := .staged } }.reply h 0 []))

/-- Begin the hand-over of a hub core's image, or the replacement of the microcode. -/
def beginUpdate (s : State) (h : CmdHdr) (function : Nat) : State :=
  if function = 8 then { s with fw := { s.fw with micro := .multicasting, update := .idle, target := 8, asker := some (h.session, 0x31, cmdSeq h), late := false, reported := [] } }
  else
    let w := { s.fw with update := .quiescing, target := function, asker := some (h.session, 0x31, cmdSeq h), late := false }
    { s with fw := w.post w.runner function (boxWord 0xF0 0) }.startWatchdog

/-- UPDATE: BADCMD with nothing staged, or with a boot image, which only package reset starts. -/
def execUpdate (h : CmdHdr) (s : State) : Host.Outcome State Fault Refusal :=
  .next (operatorCommand s h 0x31 [] (s.fw.updateWaits ((s.fw.stagedImg.map FwImage.function).getD 0)) (fun s =>
    if s.fw.busy then s.reply h 3 []
    else match s.fw.stagedImg with
      | some x => if x.function = 9 then s.reply h 1 [] else beginUpdate s h x.function
      | none => s.reply h 1 []))

def Update.code : Update → Nat
  | .idle => 0
  | .staged => 1
  | .quiescing => 2
  | .starting => 3
  | .resuming => 4
  | .failed => 5

def Micro.code : Micro → Nat
  | .none => 0
  | .multicasting => 1
  | .switching => 2
  | .rollingBack => 3

/-- UPSTAT. -/
def execUpstat (h : CmdHdr) (s : State) : Host.Outcome State Fault Refusal :=
  .next (operatorCommand s h 0x32 [] false (fun s => s.reply h 0 [BitVec.ofNat 64 s.fw.update.code, BitVec.ofNat 64 s.fw.micro.code]))

/-! Attestation and sessions (R336 to R338) -/

/-- Bytes as dwords, the last filled with zeros. -/
def dwordsOf (bs : List Byte) : List Dword := (List.range ((bs.length + 7) / 8)).map (fun i => BitVec.ofNat 64 (leNat ((bs.drop (8 * i)).take 8)))

/-- A measurement entry (R336). -/
def Measure.bytes (m : Measure) (comp : Nat) : List Byte :=
  leBytes 1 comp ++ leBytes 1 (b2n m.prov) ++ leBytes 2 0 ++ leBytes 4 m.svn.toNat ++ leBytes 8 m.version.toNat ++ leBytes 48 m.digest.toNat

/-- CTX: the digest of a tenant's context, zero for session 0 (R337). -/
def contextDigest (s : State) (tenant : Option Nat) : BitVec 384 :=
  match tenant.bind s.tenant with
  | some t => Config.sha384 (Config.contextBytes [t.id, t.x0, t.y0, t.w, t.h, t.owner.toNat])
  | none => 0

/-- An attestation report (R337). -/
def report (s : State) (nonce ctx : BitVec 384) : List Byte :=
  let body := leBytes 48 nonce.toNat ++ leBytes 48 ctx.toNat ++ (List.range 10).flatMap (fun f => (s.fw.measure f).bytes f)
  body ++ leBytes 96 (Config.ecdsaSign (Config.sha384 body)).toNat

/-- ATTEST. -/
def execAttest (h : CmdHdr) (nonce : BitVec 384) (s : State) : Host.Outcome State Fault Refusal :=
  .next (command s h 0x40 (operandBytes [(48, nonce.toNat)]) true false (fun s => s.reply h 0 (dwordsOf (report s nonce (contextDigest s (s.sessionTenant h.session))))))

/-- What the device brings to a session: QD and nD. -/
def Session.own (x : Session) : List Byte := leBytes 97 x.qd.toNat ++ leBytes 32 x.nd.toNat

/-- The transcript H. -/
def Session.transcript (x : Session) : BitVec 384 := Config.sha384 (leBytes 97 x.qt.toNat ++ leBytes 32 x.nt.toNat ++ x.own)

/-- A session begins: an ephemeral key and a nonce of the device, and a report over the transcript. -/
def beginSession (s : State) (h : CmdHdr) (n tenant : Nat) (qt : BitVec 776) (nt : BitVec 256) : State :=
  let x : Session := { id := n, tenant := tenant, confirmed := false, qt := qt, nt := nt, qd := Config.sessionKey s.fresh, nd := Config.sessionNonce s.fresh,
                       z := none, windows := [], waiting := [] }
  let s' : State := s.draw
  { s' with fab := { s'.fab with sessions := s'.fab.sessions.filter (fun (y : Session) => decide (y.id ≠ n)) ++ [x] } }.reply h 0
    (BitVec.ofNat 64 n :: dwordsOf (x.own ++ report s x.transcript (contextDigest s (if n = 0 then none else some tenant))))

/-- SESSOPEN: session 0 first, with the same steps, then a session of a tenant in the lowest free number. -/
def openSession (s : State) (h : CmdHdr) (tenant : Nat) (qt : BitVec 776) (nt : BitVec 256) : State :=
  if s.isOpen 0 = false then beginSession s h 0 tenant qt nt
  else if (s.tenant tenant).isNone then s.reply h 1 []
  else match ((List.range 63).map (· + 1)).find? (fun n => (s.session n).isNone) with
    | none => s.reply h 4 []
    | some n => beginSession s h n tenant qt nt

def execSessopen (h : CmdHdr) (tenant : Nat) (qt : BitVec 776) (nt : BitVec 256) (s : State) : Host.Outcome State Fault Refusal :=
  .next (operatorCommand s h 0x41 (operandBytes [(8, tenant), (97, qt.toNat), (32, nt.toNat)]) false (fun s => openSession s h tenant qt nt))

/-- A session with its secret: the key slots of its link are loaded with keys 0. -/
def confirmSession (s : State) (x : Session) : State :=
  let x := { x with confirmed := true, z := some (Config.ecdh x.qd x.qt) }
  let fab := { s.fab with sessions := s.fab.sessions.map (fun (y : Session) => if y.id = x.id then x else y) }
  let l : LinkState := { LinkState.reset (.prenor x.id) with queue := ((s.fab.link (.prenor x.id)).map LinkState.queue).getD [] }
  let l := (l.loadTx (fun k => slotSalt fab l.link true k 0)).loadRx (fun k => slotSalt fab l.link false k 0)
  { s with fab := { fab with links := fab.links.filter (fun (y : LinkState) => decide (y.link ≠ l.link)) ++ [l] } }

/-- Whose key confirms a session: OWNER of its tenant; of session 0 the operator's, which the installation has written. -/
def State.sessionKey (s : State) (x : Session) : Option (BitVec 384) := if x.id = 0 then s.hub.operatorKey else (s.tenant x.tenant).map Tenant.owner

/-- SESSCONF: the signature over the transcript verifies under OWNER, or the session is discarded. A key load waits while the security
manager's image is replaced (R330). -/
def execSessconf (h : CmdHdr) (session : Nat) (sig : BitVec 768) (s : State) : Host.Outcome State Fault Refusal :=
  .next (operatorCommand s h 0x42 (operandBytes [(8, session), (96, sig.toNat)]) (s.fw.absent 6) (fun s =>
    match s.session session with
    | none => s.reply h 1 []
    | some x =>
      if x.confirmed then s.reply h 1 []
      else if (s.sessionKey x).any (fun k => Config.ecdsaVerify k x.transcript sig) then (confirmSession s x).reply h 0 []
      else (closeSession s session).reply h 2 []))

/-- SESSCLOSE, of session 0 or of the session itself, whose link goes in the step that answers: the reply is noted, and whether it leaves
before the keys are erased the spec does not say (R334; log 96). -/
def execSessclose (h : CmdHdr) (session : Nat) (s : State) : Host.Outcome State Fault Refusal :=
  .next (command s h 0x43 (operandBytes [(8, session)]) (decide (h.session = 0) || decide (h.session = session)) false (fun s =>
    if (s.session session).isNone then s.reply h 1 [] else (closeSession (s.reply h 0 []) session)))

/-! Host windows (R326) -/

/-- The parts of [va, va + n) in one page each: VA, offset and length. -/
def hostParts (va n : Nat) : List (Nat × Nat × Nat) :=
  (List.range (n / 65536 + 2)).filterMap (fun i =>
    let lo := max va ((va / 65536 + i) * 65536)
    let hi := min (va + n) ((va / 65536 + i + 1) * 65536)
    if lo < hi then some (lo, lo - va, hi - lo) else none)

/-- Is a page of another scope than HOST by its leaf, resident or not, or faulty (R67)? One that no leaf maps is seen to at its access. -/
def hostRefused (m : DevMem) (asid va : Nat) : Bool :=
  (m.leafOf asid va).any (fun l => decide (field l.2 60 59 ≠ 3))
    || (match m.walk asid va false with
      | .ok _ _ _ _ => false
      | .fault cause => decide (cause ≠ causeXlate))

def State.modSession (s : State) (n : Nat) (f : Session → Session) : State :=
  { s with fab := { s.fab with sessions := s.fab.sessions.map (fun x => if x.id = n then f x else x) } }

/-- WINOPEN: at most 64 windows of a session; the memory manager refuses pages that are not HOST. -/
def openWindow (s : State) (h : CmdHdr) (tenant va len haddr procid : Nat) : State :=
  let asid := tenant * 256 + procid % 256
  match ((s.session h.session).map Session.windows).bind (fun ws => (List.range 64).find? (fun i => !ws.any (fun w => decide (w.id = i)))) with
  | none => s.reply h 4 []
  | some i =>
    if (hostParts va len).any (fun p => hostRefused s.mem asid p.1) then s.reply h 1 []
    else (s.modSession h.session (fun x => { x with windows := x.windows ++ [⟨i, va, len, haddr, asid⟩] })).reply h 0 [BitVec.ofNat 64 i]

def execWinopen (h : CmdHdr) (va : Dword) (len : Nat) (haddr : Dword) (procid : Nat) (s : State) : Host.Outcome State Fault Refusal :=
  .next (tenantCommand s h 0x50 (operandBytes [(8, va.toNat), (8, len), (8, haddr.toNat), (8, procid)]) (fun t s => openWindow s h t (field va 55 0) len haddr.toNat procid))

/-- WINCLOSE. -/
def closeWindow (s : State) (h : CmdHdr) (window : Nat) : State :=
  if ((s.session h.session).map Session.windows).any (fun ws => ws.any (fun w => decide (w.id = window))) then
    (s.modSession h.session (fun x => { x with windows := x.windows.filter (fun w => decide (w.id ≠ window)) })).reply h 0 []
  else s.reply h 1 []

def execWinclose (h : CmdHdr) (window : Nat) (s : State) : Host.Outcome State Fault Refusal :=
  .next (tenantCommand s h 0x51 (operandBytes [(8, window)]) (fun _ s => closeWindow s h window))

/-- The first VA of a host access. -/
def HostAccess.va (a : HostAccess) : Nat := a.window.va + (a.haddr - a.window.haddr)

/-- Translate the pages of a host access, each at its station, before any of it is carried out; the cause where one faults, PROT for a page
that is not HOST (R62, R63, R326). -/
def hostMap (s : State) (a : HostAccess) : State × Except Nat (List Mapped) :=
  match mapAccess s ⟨a.window.asid, BitVec.ofNat 64 a.va, a.write.isSome, true, stationOf⟩ ((hostParts a.va a.len).map (fun p => (p.2.1, p.2.2))) with
  | (s, .error e) => (s, .error (hubCause s.mem a.window.asid e))
  | (s, .ok ms) => if ms.any (fun m => decide (m.scope ≠ 3)) then (s, .error causeProt) else (s, .ok ms)

/-- The 64-byte blocks of a translated host access. -/
def hostBlocks (a : HostAccess) (ms : List Mapped) : List HostBlock :=
  (blocksOf (BitVec.ofNat 64 a.va) a.len ms []).map (fun b => ⟨b.va.toNat, stationOf b.va.toNat, b.pa, b.va.toNat - a.va, b.len⟩)

/-- Has an access still something to do at a station: a block left, or, not yet translated, any? -/
def HostAccess.holds (a : HostAccess) (n : Nat) : Bool :=
  match a.todo with
  | some l => l.any (fun b => decide (b.station = n))
  | none => (hostParts a.va a.len).any (fun p => decide (stationOf p.1 = n))

/-- Access i of a session, changed, or over. -/
def State.setAccess (s : State) (n i : Nat) (a : Option HostAccess) : State :=
  s.modSession n (fun x => { x with waiting := match a with
    | some a => setAt x.waiting i a
    | none => x.waiting.eraseIdx i })

/-- A list in pieces of n, one at least. -/
def pieces {α : Type} (n : Nat) (l : List α) : List (List α) := (List.range (max 1 ((l.length + n - 1) / n))).map (fun i => (l.drop (n * i)).take n)

/-- The bytes that a read has brought, in their order. -/
def HostAccess.read (a : HostAccess) : List Byte :=
  (List.range a.len).map (fun i => ((a.got.find? (fun g => decide (g.1 ≤ i) && decide (i < g.1 + g.2.length))).map (fun g => g.2.getD (i - g.1) 0)).getD 0)

/-- The answer to an access that is over: a write's acknowledgement, a read's bytes, 65,536 at most in a message. The spec gives it no form
(R326, R333; log 93). -/
def answerAccess (s : State) (n : Nat) (a : HostAccess) : State :=
  match a.write with
  | some _ => s.tellHost n 0 0 0 []
  | none => (pieces 8192 (dwordsOf a.read)).foldl (fun s l => s.tellHost n 0 0 0 l) s

/-- An error ends an access, and is returned to the host. -/
def failAccess (s : State) (n i cause : Nat) : State := (s.setAccess n i none).tellHost n 0 8 0 [BitVec.ofNat 64 cause]

/-- Block j of access i of a session, which is translated, behind what was received before it for the same station; with its last block the
access is answered (R326). -/
def hostBlock (s : State) (x : Session) (i j : Nat) (a : HostAccess) (l : List HostBlock) : State :=
  match l[j]? with
  | none => if l = [] then answerAccess (s.setAccess x.id i none) x.id a else s.setAccess x.id i (some { a with todo := some l })
  | some b =>
    if (x.waiting.take i).any (fun y => y.holds b.station) then s.setAccess x.id i (some { a with todo := some l })
    else if s.mem.isBad b.pa b.len then failAccess s x.id i causeMemerr
    else
      let s : State := match a.write with
        | some bs => { s with mem := s.mem.write b.pa ((bs.drop b.off).take b.len) }
        | none => s
      let a := { a with got := if a.write.isSome then a.got else a.got ++ [(b.off, readBytes s.mem.bytes b.pa b.len)], todo := some (l.eraseIdx j) }
      if l.length ≤ 1 then answerAccess (s.setAccess x.id i none) x.id a else s.setAccess x.id i (some a)

/-- A step of access i of a session: it is translated, waiting where it would fault XLATE, and carries out block j. -/
def hostStep (s : State) (n i j : Nat) : State :=
  match s.session n with
  | none => s
  | some x => match x.waiting[i]? with
    | none => s
    | some a => match a.todo with
      | some l => hostBlock s x i j a l
      | none => match hostMap s a with
        | (s', .error cause) => if cause = causeXlate then s else failAccess s' n i cause
        | (s', .ok ms) => hostBlock s' x i j a (hostBlocks a ms)

/-- A host access is received: it takes its place in its session, and its first step. -/
def hostAccess (s : State) (x : Session) (a : HostAccess) : State :=
  hostStep (s.modSession x.id (fun y => { y with waiting := y.waiting ++ [a] })) x.id x.waiting.length 0

/-- HOST_WINDOW_ACCESS, taken from what its session has received next. A session that is not open is discarded and reported; an address
in no window is an error (R325, R326). -/
def execHostWindowAccess (session : Nat) (haddr : Dword) (write : Option (List Byte)) (len : Nat) (s : State) : Host.Outcome State Fault Refusal :=
  let n := (write.map List.length).getD len
  .next (match (s.session session).filter Session.confirmed, s.takeBytes session (Config.accessBytes haddr write len) 0 with
    | none, _ => reportLink s
    | some _, none => s
    | some x, some s => match x.windows.find? (fun w => decide (w.haddr ≤ haddr.toNat) && decide (haddr.toNat + n ≤ w.haddr + w.len)) with
      | none => s.tellHost session 0 8 0 []
      | some w => hostAccess s x ⟨w, haddr.toNat, write, n, none, []⟩)

/-! Logs (R330, R334) -/

/-- A log entry in two dwords of a reply: core, slot and cause, each in 16 bits from the lowest, and the tenant, all ones where it is no
tenant's (log 74). A reply holds the whole log so, 4,096 entries in 65,536 bytes. -/
def LogEntry.words (e : LogEntry) : List Dword :=
  [BitVec.ofNat 64 (e.core % 65536 + e.slot % 65536 * 2 ^ 16 + e.cause % 65536 * 2 ^ 32), (e.tenant.map (BitVec.ofNat 64)).getD (-1)]

/-- LOGREAD: the device log, or a tenant's own entries. -/
def execLogread (h : CmdHdr) (s : State) : Host.Outcome State Fault Refusal :=
  .next (command s h 0x60 [] true false (fun s =>
    let mine := s.hub.log.filter (fun e => decide (h.session = 0) || (s.sessionTenant h.session).any (fun t => decide (e.tenant = some t)))
    s.reply h 0 (mine.flatMap LogEntry.words)))

end Sys2Proof.Machine
end

