-- ==== Sys2Proof/Machine/Traps.lean ====
section
/-! DEFINITION. TRAP, RTE, BREAK and RETRY (R280 to R284), the asynchronous trap (R279), and the NI's own steps (R190). -/

namespace Sys2Proof.Machine

/-- TRAP (R280). -/
def execTrap (k : BitVec 12) (s : State) : Host.Outcome State Fault Refusal :=
  issue (.trap k) s (fun s => takeUserTrap s s.issuer.1 s.issuer.2 causeTrapi (zext k) (s.pc + 4))

/-- RTE (R281). -/
def execRte (s : State) : Host.Outcome State Fault Refusal :=
  issue .rte s (fun s => returnFromTrap s ((encode .rte).getD 0))

/-- The DEBUG flag of the tenant of a core's gang (R255, R282). -/
def State.debugging (s : State) (c : Nat) : Bool := (s.tenant (s.core c).tenant).any Tenant.debug

/-- The error handler tells the tenant's confirmed sessions that a slot is in DEBUG (R282; log 32). -/
def notifyDebug (s : State) (c : Nat) (i : Fin 5) : State :=
  s.tellTenant (s.core c).tenant [BitVec.ofNat 64 c, BitVec.ofNat 64 i.val]

/-- BREAK (R282). -/
def execBrk (s : State) : Host.Outcome State Fault Refusal :=
  issue .brk s (fun s =>
    let epc := s.pc + 4
    if s.user && s.debugging s.issuer.1 then
      notifyDebug ((s.logFault s.issuer.1 s.issuer.2.val causeBreak).modMe (fun x => { x with state := .debug, epc := epc })) s.issuer.1 s.issuer.2
    else takeUserTrap s s.issuer.1 s.issuer.2 causeBreak 0 epc)

/-- RETRY, of the supervisor slot alone (R284). -/
def execRetry (s : State) : Host.Outcome State Fault Refusal :=
  issue .retry s (fun s =>
    if s.user then fatal s causePriv (wordOf .retry) else (retryCore s s.issuer.1).advance)

/-- ASYNC_TRAP: the oldest pending REFUSED of a slot with INTRAP = 0, which was logged when it came (R279, R286). -/
def execAsyncTrap (core slot : Nat) (s : State) : Host.Outcome State Fault Refusal :=
  let i := slotNo slot
  let x := (s.core core).slot i
  .next (match x.pendTraps with
    | (cause, tval) :: rest =>
      if x.intrap = true ∨ x.state ≠ .active ∨ (s.core core).midway i = true then s
      else enterTrap (s.modSlot core i (fun x => { x with pendTraps := rest })) core i cause tval x.pc
    | [] => s)

/-- A buffer by its number. -/
def bufNo (b : Nat) : Fin 16 := Fin.ofNat 16 b

/-- HOLD_BOUND_EXPIRY: the oldest element has been held AGEMAX cycles (R190). -/
def execHoldBoundExpiry (core buf : Nat) (s : State) : Host.Outcome State Fault Refusal :=
  let k := s.core core
  .next (match k.ni.bufs[bufNo buf] with
    | some b => if b.oldest + k.ctl.agemax ≤ k.cycle then leaveBuffer s core (bufNo buf) else s
    | none => s)

/-- BUFFER_LEAVE: a buffer that a full retention store or a drain hold kept OPEN leaves once both have cleared (R190). -/
def execBufferLeave (core buf : Nat) (s : State) : Host.Outcome State Fault Refusal :=
  let k := s.core core
  .next (match k.ni.bufs[bufNo buf] with
    | some b => if b.due && k.ni.room b.dest 1 then leaveBuffer s core (bufNo buf) else s
    | none => s)

end Sys2Proof.Machine
end

