-- ==== Sys2Proof/Machine/Dispatch.lean ====
section
/-! DEFINITION. One arm per instruction and per step of the opcode table: each a direct call of its meaning. -/

namespace Sys2Proof.Machine

def exec (i : Instr) (s : State) : Host.Outcome State Fault Refusal :=
  match i with
  | .add d a b => Sys2Proof.Machine.execAdd d a b s
  | .sub d a b => Sys2Proof.Machine.execSub d a b s
  | .and d a b => Sys2Proof.Machine.execAnd d a b s
  | .or d a b => Sys2Proof.Machine.execOr d a b s
  | .xor d a b => Sys2Proof.Machine.execXor d a b s
  | .andn d a b => Sys2Proof.Machine.execAndn d a b s
  | .sll d a b => Sys2Proof.Machine.execSll d a b s
  | .srl d a b => Sys2Proof.Machine.execSrl d a b s
  | .sra d a b => Sys2Proof.Machine.execSra d a b s
  | .slt d a b => Sys2Proof.Machine.execSlt d a b s
  | .sltu d a b => Sys2Proof.Machine.execSltu d a b s
  | .min d a b => Sys2Proof.Machine.execMin d a b s
  | .max d a b => Sys2Proof.Machine.execMax d a b s
  | .minu d a b => Sys2Proof.Machine.execMinu d a b s
  | .maxu d a b => Sys2Proof.Machine.execMaxu d a b s
  | .sel d a b => Sys2Proof.Machine.execSel d a b s
  | .clz d a => Sys2Proof.Machine.execClz d a s
  | .ctz d a => Sys2Proof.Machine.execCtz d a s
  | .popc d a => Sys2Proof.Machine.execPopc d a s
  | .bfx d a b => Sys2Proof.Machine.execBfx d a b s
  | .bfi d a b => Sys2Proof.Machine.execBfi d a b s
  | .mul d a b => Sys2Proof.Machine.execMul d a b s
  | .mulh d a b => Sys2Proof.Machine.execMulh d a b s
  | .mulhu d a b => Sys2Proof.Machine.execMulhu d a b s
  | .div d a b => Sys2Proof.Machine.execDiv d a b s
  | .divu d a b => Sys2Proof.Machine.execDivu d a b s
  | .rem d a b => Sys2Proof.Machine.execRem d a b s
  | .remu d a b => Sys2Proof.Machine.execRemu d a b s
  | .addi d a im => Sys2Proof.Machine.execAddi d a im s
  | .andi d a im => Sys2Proof.Machine.execAndi d a im s
  | .ori d a im => Sys2Proof.Machine.execOri d a im s
  | .xori d a im => Sys2Proof.Machine.execXori d a im s
  | .slti d a im => Sys2Proof.Machine.execSlti d a im s
  | .sltiu d a im => Sys2Proof.Machine.execSltiu d a im s
  | .slli d a sh => Sys2Proof.Machine.execSlli d a sh s
  | .srli d a sh => Sys2Proof.Machine.execSrli d a sh s
  | .srai d a sh => Sys2Proof.Machine.execSrai d a sh s
  | .lih d im => Sys2Proof.Machine.execLih d im s
  | .lix d im => Sys2Proof.Machine.execLix d im s
  | .addpc d im => Sys2Proof.Machine.execAddpc d im s
  | .beq a b o => Sys2Proof.Machine.execBeq a b o s
  | .bne a b o => Sys2Proof.Machine.execBne a b o s
  | .blt a b o => Sys2Proof.Machine.execBlt a b o s
  | .bge a b o => Sys2Proof.Machine.execBge a b o s
  | .bltu a b o => Sys2Proof.Machine.execBltu a b o s
  | .bgeu a b o => Sys2Proof.Machine.execBgeu a b o s
  | .jal d o => Sys2Proof.Machine.execJal d o s
  | .jalr d a im => Sys2Proof.Machine.execJalr d a im s
  | .ldb d a im => Sys2Proof.Machine.execLdb d a im s
  | .ldbu d a im => Sys2Proof.Machine.execLdbu d a im s
  | .ldh d a im => Sys2Proof.Machine.execLdh d a im s
  | .ldhu d a im => Sys2Proof.Machine.execLdhu d a im s
  | .ldw d a im => Sys2Proof.Machine.execLdw d a im s
  | .ldwu d a im => Sys2Proof.Machine.execLdwu d a im s
  | .ldd d a im => Sys2Proof.Machine.execLdd d a im s
  | .stb d a im => Sys2Proof.Machine.execStb d a im s
  | .sth d a im => Sys2Proof.Machine.execSth d a im s
  | .stw d a im => Sys2Proof.Machine.execStw d a im s
  | .std d a im => Sys2Proof.Machine.execStd d a im s
  | .amoadd d a b w => Sys2Proof.Machine.execAmoadd d a b w s
  | .amomin d a b w => Sys2Proof.Machine.execAmomin d a b w s
  | .amomax d a b w => Sys2Proof.Machine.execAmomax d a b w s
  | .amominu d a b w => Sys2Proof.Machine.execAmominu d a b w s
  | .amomaxu d a b w => Sys2Proof.Machine.execAmomaxu d a b w s
  | .amoand d a b w => Sys2Proof.Machine.execAmoand d a b w s
  | .amoor d a b w => Sys2Proof.Machine.execAmoor d a b w s
  | .amoxor d a b w => Sys2Proof.Machine.execAmoxor d a b w s
  | .amoswp d a b w => Sys2Proof.Machine.execAmoswp d a b w s
  | .amocas d a b w => Sys2Proof.Machine.execAmocas d a b w s
  | .redAdd a b w => Sys2Proof.Machine.execRedAdd a b w s
  | .redMin a b w => Sys2Proof.Machine.execRedMin a b w s
  | .redMax a b w => Sys2Proof.Machine.execRedMax a b w s
  | .redOr a b w => Sys2Proof.Machine.execRedOr a b w s
  | .redFadd a b => Sys2Proof.Machine.execRedFadd a b s
  | .redBadd a b => Sys2Proof.Machine.execRedBadd a b s
  | .ldhdr d a o => Sys2Proof.Machine.execLdhdr d a o s
  | .sthdr d a o => Sys2Proof.Machine.execSthdr d a o s
  | .vaddF d a b m => Sys2Proof.Machine.execVaddF d a b m s
  | .vsubF d a b m => Sys2Proof.Machine.execVsubF d a b m s
  | .vmulF d a b m => Sys2Proof.Machine.execVmulF d a b m s
  | .vfmaF d a b m => Sys2Proof.Machine.execVfmaF d a b m s
  | .vminF d a b m => Sys2Proof.Machine.execVminF d a b m s
  | .vmaxF d a b m => Sys2Proof.Machine.execVmaxF d a b m s
  | .vabsF d a m => Sys2Proof.Machine.execVabsF d a m s
  | .vnegF d a m => Sys2Proof.Machine.execVnegF d a m s
  | .vrcp d a m => Sys2Proof.Machine.execVrcp d a m s
  | .vrsq d a m => Sys2Proof.Machine.execVrsq d a m s
  | .vexp2 d a m => Sys2Proof.Machine.execVexp2 d a m s
  | .vlog2 d a m => Sys2Proof.Machine.execVlog2 d a m s
  | .vaddI d a b m => Sys2Proof.Machine.execVaddI d a b m s
  | .vsubI d a b m => Sys2Proof.Machine.execVsubI d a b m s
  | .vmulI d a b m => Sys2Proof.Machine.execVmulI d a b m s
  | .vand d a b m => Sys2Proof.Machine.execVand d a b m s
  | .vor d a b m => Sys2Proof.Machine.execVor d a b m s
  | .vxor d a b m => Sys2Proof.Machine.execVxor d a b m s
  | .vsll d a b m => Sys2Proof.Machine.execVsll d a b m s
  | .vsrl d a b m => Sys2Proof.Machine.execVsrl d a b m s
  | .vsra d a b m => Sys2Proof.Machine.execVsra d a b m s
  | .vminI d a b m => Sys2Proof.Machine.execVminI d a b m s
  | .vmaxI d a b m => Sys2Proof.Machine.execVmaxI d a b m s
  | .vbcast d a m => Sys2Proof.Machine.execVbcast d a m s
  | .vext d a b => Sys2Proof.Machine.execVext d a b s
  | .vredsumF d a m => Sys2Proof.Machine.execVredsumF d a m s
  | .vredmaxF d a m => Sys2Proof.Machine.execVredmaxF d a m s
  | .vperm d a b m => Sys2Proof.Machine.execVperm d a b m s
  | .viota d m => Sys2Proof.Machine.execViota d m s
  | .vscal d a b m => Sys2Proof.Machine.execVscal d a b m s
  | .vaddD d a b m => Sys2Proof.Machine.execVaddD d a b m s
  | .vsubD d a b m => Sys2Proof.Machine.execVsubD d a b m s
  | .vmulD d a b m => Sys2Proof.Machine.execVmulD d a b m s
  | .vfmaD d a b m => Sys2Proof.Machine.execVfmaD d a b m s
  | .vcmpeqF d a b m => Sys2Proof.Machine.execVcmpeqF d a b m s
  | .vcmpltF d a b m => Sys2Proof.Machine.execVcmpltF d a b m s
  | .vcmpleF d a b m => Sys2Proof.Machine.execVcmpleF d a b m s
  | .vcmpunF d a b m => Sys2Proof.Machine.execVcmpunF d a b m s
  | .vcmpeqI d a b m => Sys2Proof.Machine.execVcmpeqI d a b m s
  | .vcmpltI d a b m => Sys2Proof.Machine.execVcmpltI d a b m s
  | .vcmpltuI d a b m => Sys2Proof.Machine.execVcmpltuI d a b m s
  | .vsel d a b m => Sys2Proof.Machine.execVsel d a b m s
  | .mand d a b => Sys2Proof.Machine.execMand d a b s
  | .mor d a b => Sys2Proof.Machine.execMor d a b s
  | .mxor d a b => Sys2Proof.Machine.execMxor d a b s
  | .mnot d a => Sys2Proof.Machine.execMnot d a s
  | .mpop d a => Sys2Proof.Machine.execMpop d a s
  | .mset d a => Sys2Proof.Machine.execMset d a s
  | .vld d a im => Sys2Proof.Machine.execVld d a im s
  | .vst d a im => Sys2Proof.Machine.execVst d a im s
  | .vlds d a b m => Sys2Proof.Machine.execVlds d a b m s
  | .vsts d a b m => Sys2Proof.Machine.execVsts d a b m s
  | .vgather d a b m => Sys2Proof.Machine.execVgather d a b m s
  | .vscatter d a b m => Sys2Proof.Machine.execVscatter d a b m s
  | .vcompress d a m => Sys2Proof.Machine.execVcompress d a m s
  | .vexpand d a m => Sys2Proof.Machine.execVexpand d a m s
  | .vdec d a p => Sys2Proof.Machine.execVdec d a p s
  | .venc d a b => Sys2Proof.Machine.execVenc d a b s
  | .vencAuto d a b => Sys2Proof.Machine.execVencAuto d a b s
  | .vcvt d a sh m => Sys2Proof.Machine.execVcvt d a sh m s
  | .vcvts d a b m => Sys2Proof.Machine.execVcvts d a b m s
  | .send a b r => Sys2Proof.Machine.execSend a b r s
  | .sendc a b r => Sys2Proof.Machine.execSendc a b r s
  | .patset d a => Sys2Proof.Machine.execPatset d a s
  | .patclr a => Sys2Proof.Machine.execPatclr a s
  | .chcfg d a b => Sys2Proof.Machine.execChcfg d a b s
  | .chcnt d a => Sys2Proof.Machine.execChcnt d a s
  | .flush => Sys2Proof.Machine.execFlush s
  | .flushd a => Sys2Proof.Machine.execFlushd a s
  | .fenceRel => Sys2Proof.Machine.execFenceRel s
  | .fenceAcq => Sys2Proof.Machine.execFenceAcq s
  | .fenceAll => Sys2Proof.Machine.execFenceAll s
  | .aggst d => Sys2Proof.Machine.execAggst d s
  | .aggcfg a b => Sys2Proof.Machine.execAggcfg a b s
  | .stg n a => Sys2Proof.Machine.execStg n a s
  | .enq d e => Sys2Proof.Machine.execEnq d e s
  | .tkst d a => Sys2Proof.Machine.execTkst d a s
  | .ecancel d a => Sys2Proof.Machine.execEcancel d a s
  | .ldstg a => Sys2Proof.Machine.execLdstg a s
  | .solicit d a => Sys2Proof.Machine.execSolicit d a s
  | .respond a b => Sys2Proof.Machine.execRespond a b s
  | .diradd d a => Sys2Proof.Machine.execDiradd d a s
  | .dirdel d a => Sys2Proof.Machine.execDirdel d a s
  | .dirmove d a b => Sys2Proof.Machine.execDirmove d a b s
  | .cenclose a => Sys2Proof.Machine.execCenclose a s
  | .censt d a => Sys2Proof.Machine.execCenst d a s
  | .baralloc d a => Sys2Proof.Machine.execBaralloc d a s
  | .barfree a => Sys2Proof.Machine.execBarfree a s
  | .arrive a => Sys2Proof.Machine.execArrive a s
  | .arrived a => Sys2Proof.Machine.execArrived a s
  | .barst d a => Sys2Proof.Machine.execBarst d a s
  | .mfc d c => Sys2Proof.Machine.execMfc d c s
  | .mtc a c => Sys2Proof.Machine.execMtc a c s
  | .trap k => Sys2Proof.Machine.execTrap k s
  | .rte => Sys2Proof.Machine.execRte s
  | .endAct => Sys2Proof.Machine.execEndAct s
  | .endExit => Sys2Proof.Machine.execEndExit s
  | .brk => Sys2Proof.Machine.execBrk s
  | .retry => Sys2Proof.Machine.execRetry s
  | .launch d a => Sys2Proof.Machine.execLaunch d a s
  | .cancel l => Sys2Proof.Machine.execCancel l s
  | .nop => Sys2Proof.Machine.execNop s
  | .ifence => Sys2Proof.Machine.execIfence s
  | .illegal word => Sys2Proof.Machine.execIllegal word s
  | .fetchFault => Sys2Proof.Machine.execFetchFault s
  | .mma core ticket pick => Sys2Proof.Machine.execMma core ticket pick s
  | .mmac core ticket pick => Sys2Proof.Machine.execMmac core ticket pick s
  | .accz core ticket => Sys2Proof.Machine.execAccz core ticket s
  | .accst core ticket => Sys2Proof.Machine.execAccst core ticket s
  | .accld core ticket => Sys2Proof.Machine.execAccld core ticket s
  | .copy core ticket => Sys2Proof.Machine.execCopy core ticket s
  | .gather core ticket => Sys2Proof.Machine.execGather core ticket s
  | .scatter core ticket => Sys2Proof.Machine.execScatter core ticket s
  | .bcast core ticket => Sys2Proof.Machine.execBcast core ticket s
  | .dmove core ticket => Sys2Proof.Machine.execDmove core ticket s
  | .filt core ticket => Sys2Proof.Machine.execFilt core ticket s
  | .conv core ticket => Sys2Proof.Machine.execConv core ticket s
  | .commandArmed core ticket => Sys2Proof.Machine.execCommandArmed core ticket s
  | .progressPointStop core ticket => Sys2Proof.Machine.execProgressPointStop core ticket s
  | .matcherFiring core => Sys2Proof.Machine.execMatcherFiring core s
  | .heldMessageDelivery core ch => Sys2Proof.Machine.execHeldMessageDelivery core ch s
  | .asyncTrap core slot => Sys2Proof.Machine.execAsyncTrap core slot s
  | .holdBoundExpiry core buf => Sys2Proof.Machine.execHoldBoundExpiry core buf s
  | .bufferLeave core buf => Sys2Proof.Machine.execBufferLeave core buf s
  | .elements k => Sys2Proof.Machine.execElements k s
  | .load k => Sys2Proof.Machine.execLoad k s
  | .amo k => Sys2Proof.Machine.execAmo k s
  | .hdr k => Sys2Proof.Machine.execHdr k s
  | .block k => Sys2Proof.Machine.execBlock k s
  | .sendPacket k => Sys2Proof.Machine.execSendPacket k s
  | .ack k => Sys2Proof.Machine.execAck k s
  | .nak k => Sys2Proof.Machine.execNak k s
  | .reply k => Sys2Proof.Machine.execReply k s
  | .repair k => Sys2Proof.Machine.execRepair k s
  | .noparkRetry core => Sys2Proof.Machine.execNoparkRetry core s
  | .pageRelease asid page => Sys2Proof.Machine.execPageRelease asid page s
  | .invalidation asid page => Sys2Proof.Machine.execInvalidation asid page s
  | .solicitArrival k => Sys2Proof.Machine.execSolicitArrival k s
  | .nodeReport tenant slot k => Sys2Proof.Machine.execNodeReport tenant slot k s
  | .close k => Sys2Proof.Machine.execClose k s
  | .closeAck k => Sys2Proof.Machine.execCloseAck k s
  | .dmoveOpen k => Sys2Proof.Machine.execDmoveOpen k s
  | .dmoveOpenReply k => Sys2Proof.Machine.execDmoveOpenReply k s
  | .commit core ticket => Sys2Proof.Machine.execCommit core ticket s
  | .adoption k => Sys2Proof.Machine.execAdoption k s
  | .abortMove k => Sys2Proof.Machine.execAbortMove k s
  | .barrierOffer k => Sys2Proof.Machine.execBarrierOffer k s
  | .barrierArrival k => Sys2Proof.Machine.execBarrierArrival k s
  | .barrierCompletion k => Sys2Proof.Machine.execBarrierCompletion k s
  | .tree k => Sys2Proof.Machine.execTree k s
  | .hub k => Sys2Proof.Machine.execHub k s
  | .pass tenant => Sys2Proof.Machine.execPass tenant s
  | .headerRead tenant index => Sys2Proof.Machine.execHeaderRead tenant index s
  | .imageLoad gang => Sys2Proof.Machine.execImageLoad gang s
  | .clusterRelease gang => Sys2Proof.Machine.execClusterRelease gang s
  | .gangEnd gang => Sys2Proof.Machine.execGangEnd gang s
  | .gangEndSettled gang => Sys2Proof.Machine.execGangEndSettled gang s
  | .preempt k => Sys2Proof.Machine.execPreempt k s
  | .coreSealed core => Sys2Proof.Machine.execCoreSealed core s
  | .save gang => Sys2Proof.Machine.execSave gang s
  | .restore gang => Sys2Proof.Machine.execRestore gang s
  | .modeChange => Sys2Proof.Machine.execModeChange s
  | .packageReset images strap => Sys2Proof.Machine.execPackageReset images strap s
  | .routerGate router => Sys2Proof.Machine.execRouterGate router s
  | .routerWake router => Sys2Proof.Machine.execRouterWake router s
  | .routeSwap tenant entry => Sys2Proof.Machine.execRouteSwap tenant entry s
  | .bankFlip tenant => Sys2Proof.Machine.execBankFlip tenant s
  | .fabricPacket port p => Sys2Proof.Machine.execFabricPacket port p s
  | .flowRouteChange tenant ddev route => Sys2Proof.Machine.execFlowRouteChange tenant ddev route s
  | .flitData link f => Sys2Proof.Machine.execFlitData link f s
  | .flitIdle link f => Sys2Proof.Machine.execFlitIdle link f s
  | .flitMarker link f => Sys2Proof.Machine.execFlitMarker link f s
  | .flitAck link f => Sys2Proof.Machine.execFlitAck link f s
  | .flitNak link f => Sys2Proof.Machine.execFlitNak link f s
  | .keySwitch link => Sys2Proof.Machine.execKeySwitch link s
  | .hostWindowAccess session haddr write len => Sys2Proof.Machine.execHostWindowAccess session haddr write len s
  | .tenantset h tenant x0 y0 w ht displim debug owner => Sys2Proof.Machine.execTenantset h tenant x0 y0 w ht displim debug owner s
  | .tenantclose h tenant => Sys2Proof.Machine.execTenantclose h tenant s
  | .submit h rec job => Sys2Proof.Machine.execSubmit h rec job s
  | .cancelCmd h level id => Sys2Proof.Machine.execCancelCmd h level id s
  | .preemptCmd h gang => Sys2Proof.Machine.execPreemptCmd h gang s
  | .mode h mode => Sys2Proof.Machine.execMode h mode s
  | .bypass h len => Sys2Proof.Machine.execBypass h len s
  | .stage h img => Sys2Proof.Machine.execStage h img s
  | .update h => Sys2Proof.Machine.execUpdate h s
  | .upstat h => Sys2Proof.Machine.execUpstat h s
  | .attest h nonce => Sys2Proof.Machine.execAttest h nonce s
  | .sessopen h tenant qt nt => Sys2Proof.Machine.execSessopen h tenant qt nt s
  | .sessconf h session sig => Sys2Proof.Machine.execSessconf h session sig s
  | .sessclose h session => Sys2Proof.Machine.execSessclose h session s
  | .winopen h va len haddr procid => Sys2Proof.Machine.execWinopen h va len haddr procid s
  | .winclose h window => Sys2Proof.Machine.execWinclose h window s
  | .logread h => Sys2Proof.Machine.execLogread h s
  | .resumeCmd h core slot => Sys2Proof.Machine.execResumeCmd h core slot s
  | .txWrite self j word => Sys2Proof.Machine.execTxWrite self j word s
  | .rxRead self im => Sys2Proof.Machine.execRxRead self im s
  | .mbovfClear self bits => Sys2Proof.Machine.execMbovfClear self bits s
  | .registerWrite self offset value => Sys2Proof.Machine.execRegisterWrite self offset value s
  | .quiesce => Sys2Proof.Machine.execQuiesce s
  | .handed record => Sys2Proof.Machine.execHanded record s
  | .resume => Sys2Proof.Machine.execResume s
  | .alive version => Sys2Proof.Machine.execAlive version s
  | .reject reason => Sys2Proof.Machine.execReject reason s
  | .continueImage => Sys2Proof.Machine.execContinueImage s
  | .gatedWrite => Sys2Proof.Machine.execGatedWrite s
  | .watchdogExpiry => Sys2Proof.Machine.execWatchdogExpiry s
  | .microcodeBankSwitch core => Sys2Proof.Machine.execMicrocodeBankSwitch core s
  | .microcodeSwitchBack core => Sys2Proof.Machine.execMicrocodeSwitchBack core s
  | .uncorrectableError pa => Sys2Proof.Machine.execUncorrectableError pa s
  | .xlateUnmappedProt asid page => Sys2Proof.Machine.execXlateUnmappedProt asid page s
  | .keySlotLoad link salt => Sys2Proof.Machine.execKeySlotLoad link salt s
  | .imageFault => Sys2Proof.Machine.execImageFault s
  | .microcodeMulticastDone => Sys2Proof.Machine.execMicrocodeMulticastDone s
  | .operatorKeyWrite digest => Sys2Proof.Machine.execOperatorKeyWrite digest s
  | .unknownOpcode h opcode => Sys2Proof.Machine.execUnknownOpcode h opcode s

end Sys2Proof.Machine
end

