-- ==== Sys2Proof/Machine/Turns.lean ====
section
/-! DEFINITION. The turns of the agenda that are no instruction and no step of the opcode table (log 1), and the placing of
a word for fetch. -/

namespace Sys2Proof.Machine

/-- The state after the tick and the consumptions of a cycle: what is fired begins with the next cycle (R224). -/
def cycleState (s : State) (c : Nat) : State := (tickCore s c).modCore c (fun k => k.consumeCycle (s.core c))

/-- Does the supervisor microcode run (R335)? -/
def State.microRuns (s : State) : Bool := !s.fw.failedFns.contains 8

/-- Must the supervisor slot execute RETRY: a repair message has come, or 1,024 cycles have passed since a NAK with NOPARK, and no
pre-emption is in progress (R66, R285)? -/
def State.retryDue (s : State) (c : Nat) : Bool := s.microRuns && decide ((s.core c).ctl.pre = .none) && (decide (0 < (s.core c).ctl.repairs) || (s.core c).noParkDue)

/-- n cycles of a core in which nothing issues; they end before a cycle in which something is ready to. -/
def idleCycles (c : Nat) : Nat → State → State
  | 0, s => s
  | n + 1, s => if (tickCore s c).retryDue c || ((tickCore s c).chooseSlot c).isSome then s else idleCycles c n (cycleState s c)

/-- A slot fetches a word ahead, where the fetch faults with nothing (R141; log 10). -/
def prefetch (s : State) (c : Nat) (i : Fin 5) (off : Nat) : State :=
  if (s.core c).fetchCause off ≠ none ∨ off % 4 ≠ 0 ∨ ((s.core c).slot i).state = .free then s
  else s.modCore c (fun k => k.modSlot i (fun x =>
    { x with fetched := (off, k.wordAt off) :: x.fetched.filter (fun p => decide (p.1 ≠ off)) }))

/-- The core a turn names. -/
def Turn.core? : Turn → Option Nat
  | .cycle c | .idle c _ | .prefetch c _ _ | .micro c _ => some c
  | _ => none

/-- Does the part have the core the turn names (R9)? -/
def Turn.exists_ (t : Turn) : Bool := t.core?.all (fun c => decide (c < 4608))

/-- Is an instruction a step of the part that no slot issues and no core's cycle makes? -/
def isEvent (i : Instr) : Bool :=
  (encode i).isNone && (match i with
    | .illegal _ => false
    | .fetchFault => false
    | .matcherFiring _ => false
    | .noparkRetry _ => false
    | _ => true)

/-! The memory manager, while its image is there (R59, R65, R330) -/

def writeTable (s : State) (pa : Nat) (x : Dword) : State :=
  if s.fw.absent 2 then s else { s with mem := s.mem.write pa (leBytes 8 x.toNat) }

def writeRoot (s : State) (asid : Nat) (root : Option Nat) : State :=
  if s.fw.absent 2 then s else { s with mem := { s.mem with roots := sset 0 s.mem.roots asid ((root.map (· + 1)).getD 0) } }

/-- Cycles of a hub core pass (R19). -/
def hubCycles (s : State) (core n : Nat) : State :=
  { s with hub := { s.hub with cycles := s.hub.cycles.set (hubNo core) (s.hub.cycles[hubNo core] + n) } }

/-- A turn that no instruction stands for. -/
def applyTurn (s : State) : Turn → State
  | .cycle _ => s
  | .micro _ _ => s
  | .event _ => s
  | .idle c n => idleCycles c n s
  | .prefetch c i off => prefetch s c (slotNo i) off
  | .mmWrite pa x => writeTable s pa x
  | .mmRoot asid root => writeRoot s asid root
  | .hubTick core n => hubCycles s core n
  | .router n setup => routerCycle s n setup
  | .seal l typ => sealNext s l typ
  | .routing point e => writeRoute s point e
  | .evict asid va => if s.fw.absent 1 then s else evictCounter s asid va
  | .partition tenant e => writePartition s tenant e
  | .hostStep n i j => hostStep s n i j
  | .corrected pa => correctedError s pa
  | .flitError _ => reportLink s
  | .mailRead self offset width => mailRead s self offset width
  | .placeDevice tenant dev placed => placeDevice s tenant dev placed

/-- A core as a launch leaves it, as far as a fetch in slot 0 needs: LSBYTES of the whole local store, every channel and
slot, slot 0 active at 0x0_0100 with priority 255, the other slots free. -/
def Core.forFetch (k : Core) (w : BitVec 32) : Core :=
  { k with
    page := { k.page with lsbytes := 393216, nchan := 64, npat := 32, nslot := 4 },
    slots := Vector.ofFn (fun i => if i = 0 then { Slot.reset with state := .active, pc := 0x100, prio := 255, act := (k.slot i).act + 1 }
      else if i.val < 4 then Slot.reset else k.slot i),
    ls := writeLE k.ls 0x100 4 w.toNat,
    locks := Vector.replicate 16 none }

/-- The state in which the next step fetches the word. -/
def fetchState (s : State) (nbits w : Nat) : State :=
  { s.setCore 0 ((s.core 0).forFetch (BitVec.ofNat 32 (w % 2 ^ nbits))) with issuer := (0, 0), agenda := [] }

end Sys2Proof.Machine
end

