-- ==== Sys2Proof/Machine/Step.lean ====
section
/-! DEFINITION. The step of the part: the next turn of the agenda (log 1). -/

namespace Sys2Proof.Machine

/-- What issues in a core's cycle (R227): RETRY of the supervisor slot where it is due, else the user slot chosen. -/
def issued (s : State) (c : Nat) : Option (Instr × Fin 5) :=
  if s.retryDue c then some (if 0 < (s.core c).ctl.repairs then .retry else .noparkRetry c, 4)
  else (s.chooseSlot c).map (fun i => ((s.core c).nextInstr c i, i))

/-- A core's cycle: one instruction issues, of those that are ready once the tick is over, in the state that the cycle's consumptions
leave. -/
def runCycle (s : State) (c : Nat) : Host.Outcome State Fault Refusal :=
  match issued (tickCore s c) c with
  | none => .next (cycleState s c)
  | some (i, j) => exec i (if j = 4 then (cycleState s c).asIssuer c 4 else (cycleState s c).startIssue c j)

/-- A core's cycle in which the supervisor slot has a word of its microcode to issue: it goes first, unless the word waits (R227). -/
def runMicro (s : State) (c : Nat) (w : BitVec 32) : Host.Outcome State Fault Refusal :=
  if s.microRuns = false ∨ waitsAt (instrOfWord w) ((tickCore s c).asIssuer c 4) = true then runCycle s c
  else exec (instrOfWord w) ((cycleState s c).asIssuer c 4)

/-- One turn. -/
def runTurn (s : State) : Turn → Host.Outcome State Fault Refusal
  | .cycle c => runCycle s c
  | .micro c w => runMicro s c w
  | .event i => if isEvent i then exec i s else .next s
  | t => .next (applyTurn s t)

/-- One step: the first turn of the agenda, or a cycle of the issuing core where nothing is on it. -/
def step (s : State) : Host.Outcome State Fault Refusal :=
  match s.agenda with
  | [] => runCycle s s.issuer.1
  | t :: rest => if t.exists_ = false then .fault .noSuchCore else runTurn { s with agenda := rest } t

/-- `s` with an instruction where the next step fetches: core 0, launched as far as fetch needs, slot 0 at 0x0_0100
(log 2). -/
def State.withFetchWord (s : State) (nbits w : Nat) : State := fetchState s nbits w

end Sys2Proof.Machine
end

