-- ==== Sys2Proof/Certificates/Slice0/Obligations.lean ====
section
/-! DEFINITION. The statements about the machine: each is a Prop that the provers settle. The terms they share stand first. -/

namespace Sys2Proof.Claims

open Sys2Proof.Machine

/-- Instruction `i` does not wait in `s` (R136, R227): no register it names is pending, no acquire holds back its reads of memory,
and nothing its own rule makes it wait for is outstanding. -/
abbrev Ready (i : Instr) (s : State) : Prop := waitsAt i s = false

/-- Every byte and every block header of every memory reads as before. -/
def SameMemory (s t : State) : Prop :=
  (∀ c a, readByte (t.core c).ls a = readByte (s.core c).ls a)
    ∧ (∀ c a, readByte (t.core c).acc a = readByte (s.core c).acc a)
    ∧ (∀ c a, (t.core c).header a = (s.core c).header a)
    ∧ (∀ a, readByte t.mem.bytes a = readByte s.mem.bytes a)
    ∧ (∀ a, t.mem.header a = s.mem.header a)

/-- Everything but the issuing core stands as before: other cores, packets on their way, mesh, device memory, hub, fabric, firmware. -/
def SameBeyondCore (s t : State) : Prop :=
  t.issuer = s.issuer ∧ t.net = s.net ∧ t.mesh = s.mesh ∧ t.mem = s.mem ∧ t.hub = s.hub ∧ t.fab = s.fab ∧ t.fw = s.fw
    ∧ t.agenda = s.agenda ∧ t.fresh = s.fresh ∧ (∀ c, c ≠ s.issuer.1 → t.core c = s.core c)

/-- Everything but the issuing slot stands as before. -/
def SameBeyondSlot (s t : State) : Prop :=
  SameBeyondCore s t ∧ (∀ j, j ≠ s.issuer.2 → t.here.slot j = s.here.slot j) ∧ { t.here with slots := s.here.slots } = s.here

/-- `i` completes: g `d` takes `v` (a write to g0 is discarded), the pc passes to the next instruction, and nothing else changes. -/
def GivesG (i : Instr) (s : State) (d : BitVec 5) (v : Dword) : Prop :=
  Ready i s → ∃ t, exec i s = .next t
    ∧ (∀ r, t.reg r = if r = d ∧ d ≠ 0 then v else s.reg r)
    ∧ t.pc = s.pc + 4
    ∧ { t.me with g := s.me.g, pc := s.me.pc } = s.me
    ∧ SameBeyondSlot s t ∧ SameMemory s t

/-- The same for vector register v `d`. -/
def GivesV (i : Instr) (s : State) (d : BitVec 5) (v : VReg) : Prop :=
  Ready i s → ∃ t, exec i s = .next t
    ∧ (∀ r, t.vreg r = if r = d then v else s.vreg r)
    ∧ t.pc = s.pc + 4
    ∧ { t.me with v := s.me.v, pc := s.me.pc } = s.me
    ∧ SameBeyondSlot s t ∧ SameMemory s t

/-- The same for mask register m `d`; a write to m0 is discarded. -/
def GivesM (i : Instr) (s : State) (d : BitVec 3) (v : Dword) : Prop :=
  Ready i s → ∃ t, exec i s = .next t
    ∧ (∀ r, t.mask r = if r = d ∧ d ≠ 0 then v else s.mask r)
    ∧ t.pc = s.pc + 4
    ∧ { t.me with m := s.me.m, pc := s.me.pc } = s.me
    ∧ SameBeyondSlot s t ∧ SameMemory s t

/-- `i` completes: the pc becomes `a`, and nothing else changes. -/
def GoesTo (i : Instr) (s : State) (a : Dword) : Prop :=
  Ready i s → ∃ t, exec i s = .next t ∧ t.pc = a ∧ { t.me with pc := s.me.pc } = s.me ∧ SameBeyondSlot s t ∧ SameMemory s t

/-- `i` completes as a jump: g `d` takes the link, the pc becomes `a`, and nothing else changes. -/
def Links (i : Instr) (s : State) (d : BitVec 5) (a : Dword) : Prop :=
  Ready i s → ∃ t, exec i s = .next t
    ∧ (∀ r, t.reg r = if r = d ∧ d ≠ 0 then s.pc + 4 else s.reg r)
    ∧ t.pc = a
    ∧ { t.me with g := s.me.g, pc := s.me.pc } = s.me
    ∧ SameBeyondSlot s t ∧ SameMemory s t

end Sys2Proof.Claims

open Sys2Proof Sys2Proof.Machine Sys2Proof.Claims

namespace Sys2Proof.Claims

/-- A user slot issues. -/
abbrev User (s : State) : Prop := s.issuer.2 ≠ 4

/-- A user slot may read the `n` bytes at offset `off` of its own core: gang page, local store below LSBYTES, or accumulator store
(R117), and no DEST lock over them (R112). -/
def Readable (k : Core) (off n : Nat) : Prop :=
  ∀ j, off ≤ j → j < off + n →
    (j < 0x100 ∨ (0x100 ≤ j ∧ j < 0x60000 ∧ j < k.page.lsbytes) ∨ (0x80000 ≤ j ∧ j < 0x90000))
    ∧ (∀ l, some l ∈ k.locks.toList → l.dest = true → ¬ (l.base ≤ j ∧ j < l.limit))

/-- It may write them: local store from 0x100 to LSBYTES (R117), and no lock over them (R112). -/
def Writable (k : Core) (off n : Nat) : Prop :=
  ∀ j, off ≤ j → j < off + n →
    (0x100 ≤ j ∧ j < 0x60000 ∧ j < k.page.lsbytes)
    ∧ (∀ l, some l ∈ k.locks.toList → ¬ (l.base ≤ j ∧ j < l.limit))

/-- An offset in a reserved range of the window (R49, R117). -/
def ReservedAt (off : Nat) : Prop :=
  (0x60000 ≤ off ∧ off < 0x80000) ∨ (0x90000 ≤ off ∧ off < 0xC0000) ∨ (0xC0400 ≤ off ∧ off < 0xD0000)
    ∨ (0xDC000 ≤ off ∧ off < 0xE0000) ∨ (0xF0000 ≤ off ∧ off < 0x100000)

/-- The byte, half, word and dword at an offset of the issuing core's window, little-endian (R1). -/
def byteAt (s : State) (off : Nat) : BitVec 8 := s.here.ownByte off
def halfAt (s : State) (off : Nat) : BitVec 16 := byteAt s (off + 1) ++ byteAt s off
def wordOf4 (s : State) (off : Nat) : BitVec 32 := halfAt s (off + 2) ++ halfAt s off
def dwordOf8 (s : State) (off : Nat) : BitVec 64 := wordOf4 s (off + 4) ++ wordOf4 s off

/-- Everything of the issuing core but its slots and the bytes of its local store stands as before, and so does everything beyond it. -/
def SameBeyondLs (s t : State) : Prop :=
  SameBeyondCore s t ∧ (∀ j, j ≠ s.issuer.2 → t.here.slot j = s.here.slot j)
    ∧ { t.here with slots := s.here.slots, ls := s.here.ls } = s.here
    ∧ (∀ a, readByte t.mem.bytes a = readByte s.mem.bytes a)

/-- `i` completes as a store of the `n` bytes of `v` at `off` of the local store: those bytes alone change, and the pc passes on. -/
def Stores (i : Instr) (s : State) (off n : Nat) (v : Nat → Byte) : Prop :=
  Ready i s → ∃ t, exec i s = .next t
    ∧ (∀ j, j < n → readByte t.here.ls (off + j) = v j)
    ∧ (∀ x, x < off ∨ off + n ≤ x → readByte t.here.ls x = readByte s.here.ls x)
    ∧ t.pc = s.pc + 4 ∧ { t.me with pc := s.me.pc } = s.me ∧ SameBeyondLs s t

/-- The same with a result in g `d`. -/
def StoresGives (i : Instr) (s : State) (off n : Nat) (v : Nat → Byte) (d : BitVec 5) (r : Dword) : Prop :=
  Ready i s → ∃ t, exec i s = .next t
    ∧ (∀ j, j < n → readByte t.here.ls (off + j) = v j)
    ∧ (∀ x, x < off ∨ off + n ≤ x → readByte t.here.ls x = readByte s.here.ls x)
    ∧ (∀ q, t.reg q = if q = d ∧ d ≠ 0 then r else s.reg q)
    ∧ t.pc = s.pc + 4 ∧ { t.me with g := s.me.g, pc := s.me.pc } = s.me ∧ SameBeyondLs s t

/-- Byte j of a value. -/
def byteOf {w : Nat} (x : BitVec w) (j : Nat) : Byte := x.extractLsb' (8 * j) 8

/-- What an atomic leaves in memory: `m` the old datum, `b` the operand, `c` the compare value (R197). -/
def atomResult {w : Nat} (op : AmoOp) (m b c : BitVec w) : BitVec w :=
  match op with
  | .add => m + b
  | .min => if m.toInt ≤ b.toInt then m else b
  | .max => if m.toInt ≤ b.toInt then b else m
  | .minu => if m.toNat ≤ b.toNat then m else b
  | .maxu => if m.toNat ≤ b.toNat then b else m
  | .and => m &&& b
  | .or => m ||| b
  | .xor => m ^^^ b
  | .swp => b
  | .cas => if m = c then b else m

/-- The returning atomic of an operation. -/
def amoInstr (op : AmoOp) (d a b : BitVec 5) (w : BitVec 1) : Instr :=
  match op with
  | .add => .amoadd d a b w
  | .min => .amomin d a b w
  | .max => .amomax d a b w
  | .minu => .amominu d a b w
  | .maxu => .amomaxu d a b w
  | .and => .amoand d a b w
  | .or => .amoor d a b w
  | .xor => .amoxor d a b w
  | .swp => .amoswp d a b w
  | .cas => .amocas d a b w

/-- The part of a request that asks a destination for n bytes at an address, the first of which is byte `off` of the result. -/
def asked (dest : Node) (addr : Dword) (n off : Nat) : ReqPart := ⟨dest, addr, n, off, .sent⟩

/-- A request of the issuing slot and its activation, of this kind, for the access at `ea` with these parts, is the youngest that waits for
its reply; a packet has left for each part that is sent. -/
def Awaits (s t : State) (kind : ReqKind) (ea : Dword) (parts : List ReqPart) : Prop :=
  ∃ u, t.here.ni.reqs = s.here.ni.reqs ++ [{ uid := u, slot := s.issuer.2.val, act := s.me.act, kind := kind, parts := parts, ea := ea,
                                              refused := none, discard := false }]
    ∧ ∀ (j : Nat) (q : ReqPart), parts[j]? = some q → q.st = .sent → ∃ p, p ∈ t.net ∧ p.src = .core s.issuer.1 ∧ p.tag = .request u j

/-- `i` completes by asking another agent: a request of this kind with these parts waits for its reply, OUTSTAND grows by one, the
registers of `rs` become pending, the pc passes on; no register and no memory has changed yet (R136). -/
def Asks (i : Instr) (s : State) (rs : List RegRef) (kind : ReqKind) (ea : Dword) (parts : List ReqPart) : Prop :=
  Ready i s → ∃ t, exec i s = .next t
    ∧ Awaits s t kind ea parts
    ∧ t.here.outstand = s.here.outstand + 1
    ∧ (∀ r, t.here.pending t.issuer.2 r = (s.here.pending s.issuer.2 r || decide (r ∈ rs)))
    ∧ t.pc = s.pc + 4 ∧ { t.me with pc := s.me.pc } = s.me
    ∧ t.issuer = s.issuer ∧ (∀ j, j ≠ s.issuer.2 → t.here.slot j = s.here.slot j)
    ∧ (∀ c, c ≠ s.issuer.1 → t.core c = s.core c) ∧ SameMemory s t

/-- An element for a destination is in the NI of a core: in the OPEN buffer of the destination, or retained. -/
def InNi (k : Core) (dest : Node) (P : Element → Prop) : Prop :=
  (∃ b, some b ∈ k.ni.bufs.toList ∧ b.dest = dest ∧ ∃ e, e ∈ b.elems ∧ P e)
    ∨ (∃ r, r ∈ k.ni.retained ∧ r.dest = dest ∧ ∃ x, x ∈ r.items ∧ x.st = .sent ∧ P x.el)

/-- `i` completes by handing an element to the NI for `dest` (R187, R192): the pc passes on; no register and no memory has changed. -/
def Hands (i : Instr) (s : State) (dest : Node) (P : Element → Prop) : Prop :=
  Ready i s → ∃ t, exec i s = .next t
    ∧ InNi t.here dest P
    ∧ t.pc = s.pc + 4 ∧ { t.me with pc := s.me.pc } = s.me
    ∧ t.issuer = s.issuer ∧ (∀ j, j ≠ s.issuer.2 → t.here.slot j = s.here.slot j)
    ∧ (∀ c, c ≠ s.issuer.1 → t.core c = s.core c) ∧ SameMemory s t

/-- `i` traps in a user slot that has a trap entry and is in no trap (R278): CAUSE, TVAL, EPC and INTRAP are set and the pc is the
trap entry; the fault is logged; nothing else changes. -/
def Traps (i : Instr) (s : State) (cause : Nat) (tval epc : Dword) : Prop :=
  User s → s.here.ctl.trapvec &&& 0xFFFFC#64 ≠ 0 → s.me.intrap = false → Ready i s →
    ∃ t, exec i s = .next t
      ∧ t.me = { s.me with cause := BitVec.ofNat 8 cause, tval := tval, epc := epc, intrap := true, fencing := false,
                            pc := s.here.ctl.trapvec &&& 0xFFFFC#64 }
      ∧ (∀ j, j ≠ s.issuer.2 → t.here.slot j = s.here.slot j) ∧ { t.here with slots := s.here.slots } = s.here
      ∧ (∀ c, c ≠ s.issuer.1 → t.core c = s.core c) ∧ t.issuer = s.issuer ∧ t.net = s.net
      ∧ t.hub.gangs = s.hub.gangs ∧ t.hub.log.getLast? = some ⟨s.issuer.1, s.issuer.2.val, cause, some s.here.tenant⟩ ∧ SameMemory s t

/-- The gang of the issuing core faults (R286): the fault is logged, its slot stops and, unless the gang ends already (R265) or its last
END.EXIT has reached the scheduler (R270), it begins to end with the cause, the core's rank, EPC and TVAL recorded; no register and no memory
changes. -/
def Faults (i : Instr) (s : State) (cause : Nat) (tval epc : Dword) : Prop :=
  ∃ t, exec i s = .next t
    ∧ t.me = (if s.me.state = .free then s.me else { s.me with state := .stopped })
    ∧ (∀ id g, s.here.gang = some id → s.gang id = some g → g.state ≠ .ending → g.leaving = false →
        ∃ g', t.gang id = some g' ∧ g'.state = .ending ∧ g'.fault = some ⟨cause, s.here.page.rank, epc, tval⟩)
    ∧ t.hub.log.getLast? = some ⟨s.issuer.1, s.issuer.2.val, cause, some s.here.tenant⟩
    ∧ t.net = s.net ∧ (∀ c, c ≠ s.issuer.1 → t.core c = s.core c) ∧ SameMemory s t

end Sys2Proof.Claims

/-! Integer instructions (R128 to R134) -/

/-- R128: the register operations of ALU, with the frame. -/
def Sys2Proof.Claims.AluResults : Prop :=
  ∀ (s : State) (d a b : BitVec 5), let A := s.reg a; let B := s.reg b
    GivesG (.add d a b) s d (A + B)
    ∧ GivesG (.sub d a b) s d (A - B)
    ∧ GivesG (.and d a b) s d (A &&& B)
    ∧ GivesG (.or d a b) s d (A ||| B)
    ∧ GivesG (.xor d a b) s d (A ^^^ B)
    ∧ GivesG (.andn d a b) s d (A &&& ~~~B)
    ∧ GivesG (.sll d a b) s d (A <<< (B.extractLsb' 0 6))
    ∧ GivesG (.srl d a b) s d (A >>> (B.extractLsb' 0 6))
    ∧ GivesG (.sra d a b) s d (BitVec.ofInt 64 (A.toInt / 2 ^ (B.extractLsb' 0 6).toNat))
    ∧ GivesG (.slt d a b) s d (if A.toInt < B.toInt then 1 else 0)
    ∧ GivesG (.sltu d a b) s d (if A.toNat < B.toNat then 1 else 0)
    ∧ GivesG (.min d a b) s d (BitVec.ofInt 64 (min A.toInt B.toInt))
    ∧ GivesG (.max d a b) s d (BitVec.ofInt 64 (max A.toInt B.toInt))
    ∧ GivesG (.minu d a b) s d (BitVec.ofNat 64 (min A.toNat B.toNat))
    ∧ GivesG (.maxu d a b) s d (BitVec.ofNat 64 (max A.toNat B.toNat))
    ∧ GivesG (.sel d a b) s d (if s.reg d ≠ 0 then A else B)

/-- R128: CLZ, CTZ and POPC count the bits of A. -/
def Sys2Proof.Claims.BitCountResults : Prop :=
  ∀ (s : State) (d a : BitVec 5), let A := s.reg a
    (∃ n, n ≤ 64 ∧ (∀ j, j < n → A.getLsbD (63 - j) = false) ∧ (n < 64 → A.getLsbD (63 - n) = true)
      ∧ GivesG (.clz d a) s d (BitVec.ofNat 64 n))
    ∧ (∃ n, n ≤ 64 ∧ (∀ j, j < n → A.getLsbD j = false) ∧ (n < 64 → A.getLsbD n = true)
      ∧ GivesG (.ctz d a) s d (BitVec.ofNat 64 n))
    ∧ GivesG (.popc d a) s d (BitVec.ofNat 64 ((List.range 64).countP (fun j => A.getLsbD j)))

/-- R129: BFX extracts the field of `len` bits at `pos`, bits beyond 63 reading as zero, and sign-extends it where the flag is set
and the field lies inside the register; BFI replaces the field, bits shifted past 63 dropped. -/
def Sys2Proof.Claims.BitFieldResults : Prop :=
  ∀ (s : State) (d a b : BitVec 5), let A := s.reg a; let B := s.reg b
    let pos := (B.extractLsb' 0 6).toNat; let len := min (B.extractLsb' 8 7).toNat 64
    let f : BitVec len := A.extractLsb' pos len
    let M : Dword := BitVec.ofNat 64 ((2 ^ len - 1) * 2 ^ pos)
    GivesG (.bfx d a b) s d (if B.getLsbD 15 = true ∧ pos + len ≤ 64 then f.signExtend 64 else f.zeroExtend 64)
    ∧ GivesG (.bfi d a b) s d ((s.reg d &&& ~~~M) ||| ((A <<< pos) &&& M))

/-- R130: multiplication and division, with the two cases that a trap would meet elsewhere. -/
def Obligations.MulDivResults : Prop :=
  ∀ (s : State) (d a b : BitVec 5), let A := s.reg a; let B := s.reg b
    GivesG (.mul d a b) s d (A * B)
    ∧ GivesG (.mulh d a b) s d ((A.signExtend 128 * B.signExtend 128).extractLsb' 64 64)
    ∧ GivesG (.mulhu d a b) s d ((A.zeroExtend 128 * B.zeroExtend 128).extractLsb' 64 64)
    ∧ GivesG (.div d a b) s d (if B = 0 then 0xFFFFFFFFFFFFFFFF#64 else A.sdiv B)
    ∧ GivesG (.divu d a b) s d (if B = 0 then 0xFFFFFFFFFFFFFFFF#64 else A.udiv B)
    ∧ GivesG (.rem d a b) s d (if B = 0 then A else A.srem B)
    ∧ GivesG (.remu d a b) s d (if B = 0 then A else A.umod B)
    ∧ (∀ (m n : BitVec 5), s.reg m = 0x8000000000000000#64 → s.reg n = 0xFFFFFFFFFFFFFFFF#64 →
        GivesG (.div d m n) s d 0x8000000000000000#64 ∧ GivesG (.rem d m n) s d 0)

/-- R131: the immediate forms; I is the sign-extended immediate, for ORI the zero-extended one. -/
def Sys2Proof.Claims.ImmediateResults : Prop :=
  ∀ (s : State) (d a : BitVec 5) (im : BitVec 16) (sh : BitVec 6), let A := s.reg a; let I := im.signExtend 64
    GivesG (.addi d a im) s d (A + I)
    ∧ GivesG (.andi d a im) s d (A &&& I)
    ∧ GivesG (.ori d a im) s d (A ||| im.zeroExtend 64)
    ∧ GivesG (.xori d a im) s d (A ^^^ I)
    ∧ GivesG (.slti d a im) s d (if A.toInt < I.toInt then 1 else 0)
    ∧ GivesG (.sltiu d a im) s d (if A.toNat < I.toNat then 1 else 0)
    ∧ GivesG (.slli d a sh) s d (A <<< sh)
    ∧ GivesG (.srli d a sh) s d (A >>> sh)
    ∧ GivesG (.srai d a sh) s d (BitVec.ofInt 64 (A.toInt / 2 ^ sh.toNat))

/-- R132: LIH, LIX and ADDPC. -/
def Sys2Proof.Claims.ConstantResults : Prop :=
  ∀ (s : State) (d : BitVec 5) (im : BitVec 21),
    GivesG (.lih d im) s d (im.signExtend 64 <<< 16)
    ∧ GivesG (.lix d im) s d ((s.reg d <<< 21) ||| im.zeroExtend 64)
    ∧ GivesG (.addpc d im) s d (s.pc + (im.signExtend 64 <<< 2))

/-- R133: the conditional branches. -/
def Sys2Proof.Claims.BranchesGo : Prop :=
  ∀ (s : State) (a b : BitVec 5) (off : BitVec 16), let A := s.reg a; let B := s.reg b
    let taken := s.pc + (off.signExtend 64 <<< 2); let next := s.pc + 4
    GoesTo (.beq a b off) s (if A = B then taken else next)
    ∧ GoesTo (.bne a b off) s (if A = B then next else taken)
    ∧ GoesTo (.blt a b off) s (if A.toInt < B.toInt then taken else next)
    ∧ GoesTo (.bge a b off) s (if A.toInt < B.toInt then next else taken)
    ∧ GoesTo (.bltu a b off) s (if A.toNat < B.toNat then taken else next)
    ∧ GoesTo (.bgeu a b off) s (if A.toNat < B.toNat then next else taken)

/-- R134: JAL, and JALR to an aligned target, which is formed from g a as read at issue, so that JALR with d = a links. -/
def Sys2Proof.Claims.JumpsLink : Prop :=
  ∀ (s : State) (d a : BitVec 5) (off : BitVec 21) (im : BitVec 16),
    Links (.jal d off) s d (s.pc + (off.signExtend 64 <<< 2))
    ∧ (let t := s.reg a + im.signExtend 64; t.extractLsb' 0 2 = 0#2 → Links (.jalr d a im) s d t)

/-! Memory access by scalar instructions (R135 to R139, R197) -/

/-- R135, R117, R112: a load of a user slot from its own core gives the datum at the effective address, extended. -/
def Sys2Proof.Claims.OwnLoadsGiveDatum : Prop :=
  ∀ (s : State) (d a : BitVec 5) (im : BitVec 16), User s → let off := (s.reg a + im.signExtend 64).toNat
    (Readable s.here off 1 →
      GivesG (.ldb d a im) s d ((byteAt s off).signExtend 64) ∧ GivesG (.ldbu d a im) s d ((byteAt s off).zeroExtend 64))
    ∧ (off % 2 = 0 → Readable s.here off 2 →
      GivesG (.ldh d a im) s d ((halfAt s off).signExtend 64) ∧ GivesG (.ldhu d a im) s d ((halfAt s off).zeroExtend 64))
    ∧ (off % 4 = 0 → Readable s.here off 4 →
      GivesG (.ldw d a im) s d ((wordOf4 s off).signExtend 64) ∧ GivesG (.ldwu d a im) s d ((wordOf4 s off).zeroExtend 64))
    ∧ (off % 8 = 0 → Readable s.here off 8 → GivesG (.ldd d a im) s d (dwordOf8 s off))

/-- R135, R117, R112: a store of a user slot to its own core writes the low bytes of g d, least significant first, at the effective
address, and changes no other byte and no header (R76). -/
def Sys2Proof.Claims.OwnStoresWriteBytes : Prop :=
  ∀ (s : State) (d a : BitVec 5) (im : BitVec 16), User s → let off := (s.reg a + im.signExtend 64).toNat
    (Writable s.here off 1 → Stores (.stb d a im) s off 1 (byteOf (s.reg d)))
    ∧ (off % 2 = 0 → Writable s.here off 2 → Stores (.sth d a im) s off 2 (byteOf (s.reg d)))
    ∧ (off % 4 = 0 → Writable s.here off 4 → Stores (.stw d a im) s off 4 (byteOf (s.reg d)))
    ∧ (off % 8 = 0 → Writable s.here off 8 → Stores (.std d a im) s off 8 (byteOf (s.reg d)))

/-- R139: LDHDR gives the header of a readable own-core block; STHDR writes the low word of g d as the header of a writable one, and
changes no other header and no byte. -/
def Obligations.OwnHeadersMove : Prop :=
  ∀ (s : State) (d a : BitVec 5) (o : BitVec 15), User s → let off := (s.reg a + o.zeroExtend 64).toNat
    off % 64 = 0 →
    (Readable s.here off 64 → GivesG (.ldhdr d a o) s d ((s.here.header off).zeroExtend 64))
    ∧ (Writable s.here off 64 → Ready (.sthdr d a o) s → ∃ t, exec (.sthdr d a o) s = .next t
        ∧ t.here.header off = (s.reg d).extractLsb' 0 32
        ∧ (∀ x, x / 64 ≠ off / 64 → t.here.header x = s.here.header x)
        ∧ t.pc = s.pc + 4 ∧ { t.me with pc := s.me.pc } = s.me ∧ SameBeyondCore s t
        ∧ (∀ j, j ≠ s.issuer.2 → t.here.slot j = s.here.slot j)
        ∧ { t.here with slots := s.here.slots, lsHdr := s.here.lsHdr } = s.here)

/-- R197: a returning atomic of a user slot on its own core, on a word (w = 1) or a dword (w = 0): memory takes the result and g d the
old datum, a word sign-extended. -/
def Obligations.OwnAtomicsUpdate : Prop :=
  ∀ (op : AmoOp) (s : State) (d a b : BitVec 5), User s → let off := (s.reg a).toNat
    (off % 4 = 0 → Writable s.here off 4 → let m := wordOf4 s off
      StoresGives (amoInstr op d a b 1) s off 4 (byteOf (atomResult op m ((s.reg b).extractLsb' 0 32) ((s.reg d).extractLsb' 0 32))) d (m.signExtend 64))
    ∧ (off % 8 = 0 → Writable s.here off 8 → let m := dwordOf8 s off
      StoresGives (amoInstr op d a b 0) s off 8 (byteOf (atomResult op m (s.reg b) (s.reg d))) d m)

/-- R197: an integer reduction of a user slot on its own core updates the datum as the atomic of its name does and writes no register. -/
def Sys2Proof.Claims.OwnReductionsUpdate : Prop :=
  ∀ (s : State) (a b : BitVec 5), User s → let off := (s.reg a).toNat
    (off % 4 = 0 → Writable s.here off 4 → let m := wordOf4 s off; let x := (s.reg b).extractLsb' 0 32
      Stores (.redAdd a b 1) s off 4 (byteOf (m + x))
      ∧ Stores (.redMin a b 1) s off 4 (byteOf (atomResult .min m x 0))
      ∧ Stores (.redMax a b 1) s off 4 (byteOf (atomResult .max m x 0))
      ∧ Stores (.redOr a b 1) s off 4 (byteOf (m ||| x)))
    ∧ (off % 8 = 0 → Writable s.here off 8 → let m := dwordOf8 s off; let x := s.reg b
      Stores (.redAdd a b 0) s off 8 (byteOf (m + x))
      ∧ Stores (.redMin a b 0) s off 8 (byteOf (atomResult .min m x 0))
      ∧ Stores (.redMax a b 0) s off 8 (byteOf (atomResult .max m x 0))
      ∧ Stores (.redOr a b 0) s off 8 (byteOf (m ||| x)))

/-- R87, R96: RED.FADD leaves the FP32 sum rounded to nearest even, RED.BADD the two BF16 sums of the halves, each rounded on its own
(`Fp.add` the exact sum, `round` the rounding of R87 with R96). -/
def Sys2Proof.Claims.OwnFloatReductionsUpdate : Prop :=
  ∀ (s : State) (a b : BitVec 5), User s → let off := (s.reg a).toNat
    off % 4 = 0 → Writable s.here off 4 → let m := wordOf4 s off; let x := (s.reg b).extractLsb' 0 32
      Stores (.redFadd a b) s off 4 (byteOf (BitVec.ofNat 32 (fp32.round .nearestEven (Fp.add (ofFp32 m) (ofFp32 x)))))
      ∧ (let half (p q : BitVec 16) : BitVec 16 := BitVec.ofNat 16 (bf16.round .nearestEven (Fp.add (bf16.value p.toNat) (bf16.value q.toNat)))
         Stores (.redBadd a b) s off 4 (byteOf (half (m.extractLsb' 16 16) (x.extractLsb' 16 16) ++ half (m.extractLsb' 0 16) (x.extractLsb' 0 16))))

/-- R136: a scalar load, LDHDR or returning atomic to another core or to device memory sends a request and goes on; a register other
than g0 is pending until the reply. The request names the register, the width and the sign of a load, the operation and operands of an
atomic, and one part: the access's own bytes at its destination. -/
def Sys2Proof.Claims.RemoteRequestsGoOn : Prop :=
  ∀ (s : State) (d a b : BitVec 5) (im : BitVec 16) (o : BitVec 15) (w : BitVec 1) (op : AmoOp),
    let ea := s.reg a + im.signExtend 64; let eh := s.reg a + o.zeroExtend 64
    let rs : List RegRef := if d = 0 then [] else [.g d]
    let loads (i : Instr) (dest : Node) (n : Nat) (signed : Bool) : Prop := Asks i s rs (.load d n signed) ea [asked dest ea n 0]
    let n := if w = 1 then 4 else 8
    ∀ dest : Node,
    ((s.place ea).dest = some dest →
      loads (.ldb d a im) dest 1 true ∧ loads (.ldbu d a im) dest 1 false
      ∧ (ea.toNat % 2 = 0 → loads (.ldh d a im) dest 2 true ∧ loads (.ldhu d a im) dest 2 false)
      ∧ (ea.toNat % 4 = 0 → loads (.ldw d a im) dest 4 true ∧ loads (.ldwu d a im) dest 4 false)
      ∧ (ea.toNat % 8 = 0 → loads (.ldd d a im) dest 8 true))
    ∧ ((s.place eh).dest = some dest → eh.toNat % 64 = 0 → Asks (.ldhdr d a o) s rs (.ldhdr d) eh [asked dest eh 64 0])
    ∧ ((s.place (s.reg a)).dest = some dest → (s.reg a).toNat % n = 0 →
      Asks (amoInstr op d a b w) s rs (.amo d n op (s.reg b) (s.reg d)) (s.reg a) [asked dest (s.reg a) n 0])

/-- R187 to R189, R194: a store or a reduction to another core or to device memory hands an element to the NI: one that lies at the address,
of the access's width and operation; of a store its value is the low bytes of g d; of a reduction the low bytes of g b, combined with the
value of the element that it merges with (`mergesWith`), if there is one.

Model's choice where the spec leaves it open: log 46. -/
def Obligations.RemoteStoresEnterBuffers : Prop :=
  ∀ (s : State) (d a b : BitVec 5) (im : BitVec 16) (w : BitVec 1) (dest : Node),
    let ea := s.reg a + im.signExtend 64
    let at_ (x : Dword) (n : Nat) (op : ElemOp) (e : Element) : Prop :=
      s.here.elemAt s.fab.device e = (s.place x).at ∧ e.width = n ∧ e.op = op
    let stored (n : Nat) (e : Element) : Prop := at_ ea n .store e ∧ e.value.toNat = (s.reg d).toNat % 2 ^ (8 * n)
    let n := if w = 1 then 4 else 8
    let mergesWith (x : Dword) (n : Nat) (op : ElemOp) (old : Element) : Prop :=
      ∃ p, s.here.ni.bufferOf dest = some p ∧ (s.here.sharing (s.place x)).merge = true
        ∧ ((∃ j, dest = .station j) ∨ p.2.elems.head?.map Element.cdc = some s.me.cdc.toNat)
        ∧ (p.2.elems.filter (fun e => overlaps (s.here.elemAt s.fab.device e) e.width (s.place x).at n)).getLast? = some old
        ∧ s.here.elemAt s.fab.device old = (s.place x).at ∧ old.width = n ∧ old.op = op ∧ old.mult < 65535
    let reduced (op : ElemOp) (combine : Nat → Dword → Dword → Dword) (n : Nat) (e : Element) : Prop :=
      let v : Dword := BitVec.ofNat 64 ((s.reg b).toNat % 2 ^ (8 * n))
      at_ (s.reg a) n op e ∧ (∀ old, mergesWith (s.reg a) n op old → e.value = combine n old.value v)
        ∧ ((∀ old, ¬ mergesWith (s.reg a) n op old) → e.value = v)
    let signed (n : Nat) (x : Dword) : Int := if n = 4 then (x.extractLsb' 0 32).toInt else x.toInt
    let sum (n : Nat) (x y : Dword) : Dword := BitVec.ofNat 64 ((x.toNat + y.toNat) % 2 ^ (8 * n))
    let least (n : Nat) (x y : Dword) : Dword := if signed n x < signed n y then x else y
    let most (n : Nat) (x y : Dword) : Dword := if signed n y < signed n x then x else y
    ((s.place ea).dest = some dest →
      Hands (.stb d a im) s dest (stored 1)
      ∧ (ea.toNat % 2 = 0 → Hands (.sth d a im) s dest (stored 2))
      ∧ (ea.toNat % 4 = 0 → Hands (.stw d a im) s dest (stored 4))
      ∧ (ea.toNat % 8 = 0 → Hands (.std d a im) s dest (stored 8)))
    ∧ ((s.place (s.reg a)).dest = some dest → (s.reg a).toNat % n = 0 →
      Hands (.redAdd a b w) s dest (reduced .redAdd sum n) ∧ Hands (.redMin a b w) s dest (reduced .redMin least n)
      ∧ Hands (.redMax a b w) s dest (reduced .redMax most n) ∧ Hands (.redOr a b w) s dest (reduced .redOr (fun _ x y => x ||| y) n))
    ∧ ((s.place (s.reg a)).dest = some dest → (s.reg a).toNat % 4 = 0 →
      let alone (op : ElemOp) (e : Element) : Prop := at_ (s.reg a) 4 op e ∧ e.value = BitVec.ofNat 64 ((s.reg b).toNat % 2 ^ 32)
      Hands (.redFadd a b) s dest (alone .redFadd) ∧ Hands (.redBadd a b) s dest (alone .redBadd))

/-- R134, R135, R139, R153, R154, R158, R159, R198: an address that is not a multiple of the access's alignment traps ALIGN with TVAL the
address, whatever it names; of a list form, where the first active lane has such an address. -/
def Obligations.MisalignedTraps : Prop :=
  ∀ (s : State) (d a b : BitVec 5) (im : BitVec 16) (o : BitVec 15) (p : BitVec 2) (mr : BitVec 3) (op : AmoOp),
    let ea := s.reg a + im.signExtend 64; let eh := s.reg a + o.zeroExtend 64; let al := 0x02
    let strided (k : Nat) : Dword := s.reg a + BitVec.ofNat 64 k * s.reg b
    let indexed (k : Nat) : Dword := s.reg a + (lane (s.vreg b) k).zeroExtend 64
    let first (k : Nat) : Prop := k < 64 ∧ (s.mask mr).getLsbD k = true ∧ ∀ j, j < k → (s.mask mr).getLsbD j = false
    let fmt := Fmt.ofCode (hdrFmt ((s.reg b).extractLsb' 0 32))
    (ea.toNat % 2 ≠ 0 → Traps (.ldh d a im) s al ea s.pc ∧ Traps (.ldhu d a im) s al ea s.pc ∧ Traps (.sth d a im) s al ea s.pc)
    ∧ (ea.toNat % 4 ≠ 0 → Traps (.ldw d a im) s al ea s.pc ∧ Traps (.ldwu d a im) s al ea s.pc ∧ Traps (.stw d a im) s al ea s.pc
        ∧ Traps (.vld d a im) s al ea s.pc ∧ Traps (.vst d a im) s al ea s.pc)
    ∧ (ea.toNat % 8 ≠ 0 → Traps (.ldd d a im) s al ea s.pc ∧ Traps (.std d a im) s al ea s.pc)
    ∧ (eh.toNat % 64 ≠ 0 → Traps (.ldhdr d a o) s al eh s.pc ∧ Traps (.sthdr d a o) s al eh s.pc)
    ∧ ((s.reg a).toNat % 4 ≠ 0 → Traps (amoInstr op d a b 1) s al (s.reg a) s.pc ∧ Traps (.redAdd a b 1) s al (s.reg a) s.pc)
    ∧ ((s.reg a).toNat % 8 ≠ 0 → Traps (amoInstr op d a b 0) s al (s.reg a) s.pc ∧ Traps (.redAdd a b 0) s al (s.reg a) s.pc)
    ∧ (∀ w : BitVec 1, (s.reg a).toNat % (if w = 1 then 4 else 8) ≠ 0 → Traps (.redMin a b w) s al (s.reg a) s.pc
        ∧ Traps (.redMax a b w) s al (s.reg a) s.pc ∧ Traps (.redOr a b w) s al (s.reg a) s.pc)
    ∧ ((s.reg a).toNat % 4 ≠ 0 → Traps (.redFadd a b) s al (s.reg a) s.pc ∧ Traps (.redBadd a b) s al (s.reg a) s.pc)
    ∧ ((s.reg a).toNat % 64 ≠ 0 → Traps (.vdec d a p) s al (s.reg a) s.pc)
    ∧ (∀ f, (s.reg d).toNat % 64 ≠ 0 → fmt = some f → f.encodable = true → ¬ (f.narrow = true ∧ a = 31#5) →
        Traps (.venc d a b) s al (s.reg d) s.pc ∧ Traps (.vencAuto d a b) s al (s.reg d) s.pc)
    ∧ (∀ k, first k → (strided k).toNat % 4 ≠ 0 → Traps (.vlds d a b mr) s al (strided k) s.pc
        ∧ (s.me.lanes = 0 → Traps (.vsts d a b mr) s al (strided k) s.pc))
    ∧ (∀ k, first k → (indexed k).toNat % 4 ≠ 0 → Traps (.vgather d a b mr) s al (indexed k) s.pc
        ∧ (s.me.lanes = 0 → Traps (.vscatter d a b mr) s al (indexed k) s.pc))
    ∧ (ea.extractLsb' 0 2 ≠ 0#2 → Traps (.jalr d a im) s al ea s.pc)

/-- R29, R49, R117, R121, R286: what ends a gang with a fault at a load or a store of a user slot, of any width and aligned: an offset at or past
LSBYTES, or a first byte there of an access that begins below (LSBOUND); a store to the gang page, and the register windows and the control
window past 0xE_003F (PRIV); every reserved range of the window, the channel doors, a store to the accumulator store, and an address of no
form (ADDR). So does a word that is no instruction (ILLEGAL) and a fetch outside 0x0_0100 to LSBYTES (LSBOUND). A fetch under a DEST lock
traps RANGE (R53, R112).

Model's choice where the spec leaves it open: log 15. -/
def Obligations.BadAccessEndsGang : Prop :=
  ∀ (s : State) (d a : BitVec 5) (im : BitVec 16) (w : BitVec 32), User s → let ea := s.reg a + im.signExtend 64; let off := ea.toNat
    let lsb := s.here.page.lsbytes
    let loads (i : Instr) (n : Nat) : Prop := (n = 1 ∧ (i = .ldb d a im ∨ i = .ldbu d a im)) ∨ (n = 2 ∧ (i = .ldh d a im ∨ i = .ldhu d a im))
      ∨ (n = 4 ∧ (i = .ldw d a im ∨ i = .ldwu d a im)) ∨ (n = 8 ∧ i = .ldd d a im)
    let stores (i : Instr) (n : Nat) : Prop := (n = 1 ∧ i = .stb d a im) ∨ (n = 2 ∧ i = .sth d a im) ∨ (n = 4 ∧ i = .stw d a im)
      ∨ (n = 8 ∧ i = .std d a im)
    (∀ i n, loads i n ∨ stores i n → off % n = 0 → Ready i s →
      (0x100 ≤ off → off < 0x60000 → lsb ≤ off → Faults i s 0x03 ea s.pc)
      ∧ (0x100 ≤ off → off < 0x60000 → off < lsb → lsb < off + n → (loads i n → Readable s.here off (lsb - off)) →
          (stores i n → Writable s.here off (lsb - off)) → Faults i s 0x03 (BitVec.ofNat 64 lsb) s.pc)
      ∧ (off < 0x100 → stores i n → Faults i s 0x0E ea s.pc)
      ∧ ((0xD0000 ≤ off ∧ off < 0xDC000) ∨ (0xE0040 ≤ off ∧ off < 0xF0000) → Faults i s 0x0E ea s.pc)
      ∧ (ReservedAt off ∨ (0xC0000 ≤ off ∧ off < 0xC0400) → Faults i s 0x09 ea s.pc)
      ∧ (0x80000 ≤ off → off < 0x90000 → stores i n → Faults i s 0x09 ea s.pc)
      ∧ (s.place ea = .bad → Faults i s 0x09 ea s.pc))
    ∧ Faults (.illegal w) s 0x01 (w.zeroExtend 64) s.pc
    ∧ (s.me.fetched = [] → s.pc.toNat < 0x100 ∨ s.here.page.lsbytes ≤ s.pc.toNat → Faults .fetchFault s 0x03 s.pc s.pc)
    ∧ (∀ l, s.me.fetched = [] → 0x100 ≤ s.pc.toNat → s.pc.toNat + 4 ≤ s.here.page.lsbytes → s.here.page.lsbytes ≤ 0x60000 →
        some l ∈ s.here.locks.toList → l.dest = true → l.base ≤ s.pc.toNat → s.pc.toNat < l.limit → Traps .fetchFault s 0x04 s.pc s.pc)
namespace Sys2Proof.Claims

/-- `i` completes lane by lane: lane k of v `d` takes `f k` where bit k of `m` is set and keeps its old value elsewhere (R143), and
nothing else changes. -/
def GivesLanes (i : Instr) (s : State) (d : BitVec 5) (m : Dword) (f : Nat → Word) : Prop :=
  ∃ v, (∀ k, k < 64 → lane v k = if m.getLsbD k then f k else lane (s.vreg d) k) ∧ GivesV i s d v

/-- The same on the 64-bit lanes of the .D forms. -/
def GivesLanesD (i : Instr) (s : State) (d : BitVec 5) (m : Dword) (f : Nat → Dword) : Prop :=
  ∃ v, (∀ k, k < 32 → laneD v k = if m.getLsbD k then f k else laneD (s.vreg d) k) ∧ GivesV i s d v

/-- `i` completes as a compare: bit k of m `d` is 1 where bit k of the mask is set and `f k` holds, else 0 (R152). -/
def GivesBits (i : Instr) (s : State) (d : BitVec 3) (m : Dword) (f : Nat → Prop) : Prop :=
  ∃ v : Dword, (∀ k, k < 64 → (v.getLsbD k = true ↔ m.getLsbD k = true ∧ f k)) ∧ GivesM i s d v

/-- The number of set bits of a mask below bit k. -/
def bitsBelow (m : Dword) (k : Nat) : Nat := (List.range k).countP (fun j => m.getLsbD j)

/-- A lane that holds an FP32 NaN. -/
def nanLane (x : Word) : Prop := x.extractLsb' 23 8 = 0xFF#8 ∧ x.extractLsb' 0 23 ≠ 0#23

/-- The place of an FP32 word that is no NaN in the order of its values, −0 below +0: sign and magnitude as one integer. -/
def orderKey (x : Word) : Int := if x.getLsbD 31 then -((x.extractLsb' 0 31).toNat : Int) - 1 else ((x.extractLsb' 0 31).toNat : Int)

/-- What a lane function gives on the operands that a table lists: a NaN, +0, −0, +∞ and −∞. -/
def OnSpecials (x y nan posZero negZero posInf negInf : Word) : Prop :=
  (nanLane x → y = nan) ∧ (x = 0#32 → y = posZero) ∧ (x = 0x80000000#32 → y = negZero) ∧ (x = 0x7F800000#32 → y = posInf)
    ∧ (x = 0xFF800000#32 → y = negInf)

/-- `y` is the FP32 word to which (−1)^neg × num / den × 2^e rounds to nearest even. -/
def NearestWord (y : Word) (neg : Bool) (num den : Nat) (e : Int) : Prop := y = BitVec.ofNat 32 (fp32.roundRat .nearestEven neg num den e)

/-- The number that a finite exact value stands for. -/
noncomputable def realOf (neg : Bool) (m : Nat) (e : Int) : ℝ := (if neg then -1 else 1) * (m : ℝ) * (2 : ℝ) ^ e

/-- VRCP of one lane (R146): 1/A rounded. -/
def RcpLane (x y : Word) : Prop :=
  OnSpecials x y 0x7FC00000#32 0x7F800000#32 0xFF800000#32 0#32 0x80000000#32
    ∧ ∀ neg m e, ofFp32 x = .fin neg m e → m ≠ 0 → NearestWord y neg 1 m (-e)

/-- VRSQ of one lane (R146): 1/√A rounded; the number rounded has 50 bits or more and differs from 1/√A by less than its last one, being odd
unless it is exact, so that it rounds as 1/√A does. -/
def RsqLane (x y : Word) : Prop :=
  OnSpecials x y 0x7FC00000#32 0x7F800000#32 0xFF800000#32 0#32 0x7FC00000#32
    ∧ (∀ m e, ofFp32 x = .fin true m e → m ≠ 0 → y = 0x7FC00000#32)
    ∧ ∀ m e, ofFp32 x = .fin false m e → m ≠ 0 → ∃ (n : Nat) (j : Int), NearestWord y false n 1 j ∧ 2 ^ 50 ≤ n
        ∧ (((n : ℝ) - 1) * 2 ^ j) ^ 2 * realOf false m e ≤ 1 ∧ 1 ≤ (((n : ℝ) + 1) * 2 ^ j) ^ 2 * realOf false m e
        ∧ (n % 2 = 0 → ((n : ℝ) * 2 ^ j) ^ 2 * realOf false m e = 1)

/-- VEXP2 of one lane (R146): 2^A, to 150 bits, rounded; exact where A is an integer; +∞ from 128 on, +0 below −150. -/
def Exp2Lane (x y : Word) : Prop :=
  OnSpecials x y 0x7FC00000#32 0x3F800000#32 0x3F800000#32 0x7F800000#32 0#32
    ∧ ∀ neg m e, ofFp32 x = .fin neg m e → m ≠ 0 → let a := realOf neg m e
        (128 ≤ a → y = 0x7F800000#32) ∧ (a < -150 → y = 0#32)
        ∧ (∀ i : Int, a = i → -150 ≤ i → i < 128 → NearestWord y false 1 1 i)
        ∧ (-150 ≤ a → a < 128 → ∃ (n : Nat) (j : Int), NearestWord y false n 1 j
            ∧ |(n : ℝ) * 2 ^ j - (2 : ℝ) ^ a| ≤ (2 : ℝ) ^ (-150 : Int) * (2 : ℝ) ^ a)

/-- VLOG2 of one lane (R146): log2 A, to 150 bits, rounded; exact where A is a power of two. -/
def Log2Lane (x y : Word) : Prop :=
  OnSpecials x y 0x7FC00000#32 0xFF800000#32 0xFF800000#32 0x7F800000#32 0x7FC00000#32
    ∧ (∀ m e, ofFp32 x = .fin true m e → m ≠ 0 → y = 0x7FC00000#32)
    ∧ ∀ m e, ofFp32 x = .fin false m e → m ≠ 0 → let a := realOf false m e
        (∀ i : Int, a = (2 : ℝ) ^ i → NearestWord y (decide (i < 0)) i.natAbs 1 0)
        ∧ ∃ (neg : Bool) (n : Nat) (j : Int), NearestWord y neg n 1 j ∧ |realOf neg n j - Real.logb 2 a| ≤ (2 : ℝ) ^ (-150 : Int)

/-- What a float narrowing gives: the canonical NaN of the format for a NaN, the value rounded otherwise. -/
def Narrows (f : FloatFmt) (nan : BitVec 16) (r : Rnd) (x : Word) (c : BitVec 16) : Prop :=
  (nanLane x → c = nan) ∧ (¬ nanLane x → c = BitVec.ofNat 16 (f.round r (ofFp32 x)))

/-- Output lane i of conversion `cv` of register v under the rounding r (R160): 0 and 1 narrow to the low half of the lane; 2 and 3 widen its
low half exactly; 4 rounds on the integer grid and saturates at ±(2^31 − 1), a NaN giving 0; 5 rounds an integer; 6 narrows 64-bit
lane i, lanes from 32 on being +0. -/
def Converts (cv : Nat) (v : VReg) (r : Rnd) (i : Nat) (y : Word) : Prop :=
  let x := lane v i; let lo := x.extractLsb' 0 16; let hi := y.extractLsb' 16 16; let sign := BitVec.ofBool (lo.getLsbD 15)
  match cv with
  | 0 => hi = 0#16 ∧ Narrows bf16 0x7FC0#16 r x (y.extractLsb' 0 16)
  | 1 => hi = 0#16 ∧ Narrows fp16 0x7E00#16 r x (y.extractLsb' 0 16)
  | 2 => (lo.extractLsb' 7 8 = 0xFF#8 ∧ lo.extractLsb' 0 7 ≠ 0#7 → y = 0x7FC00000#32)
      ∧ (¬ (lo.extractLsb' 7 8 = 0xFF#8 ∧ lo.extractLsb' 0 7 ≠ 0#7) → y = lo ++ 0#16)
  | 3 => let e := lo.extractLsb' 10 5; let f := lo.extractLsb' 0 10
      (e = 31#5 → f ≠ 0#10 → y = 0x7FC00000#32) ∧ (e = 31#5 → f = 0#10 → y = sign ++ 0xFF#8 ++ 0#23)
      ∧ (e ≠ 31#5 → e ≠ 0#5 → y = sign ++ (e.zeroExtend 8 + 112#8) ++ f ++ 0#13)
      ∧ (e = 0#5 → y = BitVec.ofNat 32 (fp32.roundRat .nearestEven (lo.getLsbD 15) f.toNat 1 (-24)))
  | 4 => (nanLane x → y = 0#32) ∧ (x = 0x7F800000#32 → y = 0x7FFFFFFF#32) ∧ (x = 0xFF800000#32 → y = 0x80000001#32)
      ∧ ∀ neg m e, ofFp32 x = .fin neg m e → let n : Int := min (roundAt r neg m 1 e 0) (2 ^ 31 - 1)
          y = BitVec.ofInt 32 (if neg then -n else n)
  | 5 => y = BitVec.ofNat 32 (fp32.roundRat r (decide (x.toInt < 0)) x.toInt.natAbs 1 0)
  | _ => (i < 32 → let d := laneD v i
        (d.extractLsb' 52 11 = 0x7FF#11 ∧ d.extractLsb' 0 52 ≠ 0#52 → y = 0x7FC00000#32)
        ∧ (d = 0x7FF0000000000000#64 → y = 0x7F800000#32) ∧ (d = 0xFFF0000000000000#64 → y = 0xFF800000#32)
        ∧ ∀ neg m e, ofFp64 d = .fin neg m e → y = BitVec.ofNat 32 (fp32.roundRat r neg m 1 e))
      ∧ (32 ≤ i → y = 0#32)

end Sys2Proof.Claims

/-! Vector registers (R143 to R161) -/

/-- R147, R143: the integer lane operations. -/
def Obligations.LaneIntegerResults : Prop :=
  ∀ (s : State) (d a b : BitVec 5) (mr : BitVec 3), let m := s.mask mr
    let A := lane (s.vreg a); let B := lane (s.vreg b); let sh (k : Nat) := (B k).extractLsb' 0 5
    GivesLanes (.vaddI d a b mr) s d m (fun k => A k + B k)
    ∧ GivesLanes (.vsubI d a b mr) s d m (fun k => A k - B k)
    ∧ GivesLanes (.vmulI d a b mr) s d m (fun k => A k * B k)
    ∧ GivesLanes (.vand d a b mr) s d m (fun k => A k &&& B k)
    ∧ GivesLanes (.vor d a b mr) s d m (fun k => A k ||| B k)
    ∧ GivesLanes (.vxor d a b mr) s d m (fun k => A k ^^^ B k)
    ∧ GivesLanes (.vsll d a b mr) s d m (fun k => A k <<< sh k)
    ∧ GivesLanes (.vsrl d a b mr) s d m (fun k => A k >>> sh k)
    ∧ GivesLanes (.vsra d a b mr) s d m (fun k => BitVec.ofInt 32 ((A k).toInt / 2 ^ (sh k).toNat))
    ∧ GivesLanes (.vminI d a b mr) s d m (fun k => BitVec.ofInt 32 (min (A k).toInt (B k).toInt))
    ∧ GivesLanes (.vmaxI d a b mr) s d m (fun k => BitVec.ofInt 32 (max (A k).toInt (B k).toInt))

/-- R145, R146, R150: the floating-point lane operations complete and write their lanes; the value is the exact result rounded once by
the rounding of RMODE, where mode 4 and the transcendental forms round to nearest even (`addMode` the exact sum with the sign rule of a
zero sum, `roundW` and `roundD` the rounding of R87). VRCP, VRSQ, VEXP2 and VLOG2 give what the table of R146 has on its special
operands, and otherwise the rounding of their value: of 1/A itself, of 1/√A, and of 2^A and log2 A to 150 bits (log 13). -/
def Sys2Proof.Claims.LaneFloatResults : Prop :=
  ∀ (s : State) (d a b : BitVec 5) (mr : BitVec 3), let m := s.mask mr
    let r : Rnd := match s.me.rmode.toNat with | 1 => .towardZero | 2 => .towardPos | 3 => .towardNeg | _ => .nearestEven
    let down := decide (s.me.rmode = 3)
    let A (k : Nat) := ofFp32 (lane (s.vreg a) k); let B (k : Nat) := ofFp32 (lane (s.vreg b) k); let D (k : Nat) := ofFp32 (lane (s.vreg d) k)
    let X (k : Nat) := ofFp64 (laneD (s.vreg a) k); let Y (k : Nat) := ofFp64 (laneD (s.vreg b) k); let Z (k : Nat) := ofFp64 (laneD (s.vreg d) k)
    GivesLanes (.vaddF d a b mr) s d m (fun k => roundW r (Fp.addMode down (A k) (B k)))
    ∧ GivesLanes (.vsubF d a b mr) s d m (fun k => roundW r (Fp.addMode down (A k) (B k).negate))
    ∧ GivesLanes (.vmulF d a b mr) s d m (fun k => roundW r ((A k).mul (B k)))
    ∧ GivesLanes (.vfmaF d a b mr) s d m (fun k => roundW r (Fp.addMode down ((A k).mul (B k)) (D k)))
    ∧ GivesLanes (.vscal d a b mr) s d m (fun k => roundW r ((A k).mul (ofFp32 ((s.reg b).extractLsb' 0 32))))
    ∧ GivesLanesD (.vaddD d a b mr) s d m (fun k => roundD r (Fp.addMode down (X k) (Y k)))
    ∧ GivesLanesD (.vsubD d a b mr) s d m (fun k => roundD r (Fp.addMode down (X k) (Y k).negate))
    ∧ GivesLanesD (.vmulD d a b mr) s d m (fun k => roundD r ((X k).mul (Y k)))
    ∧ GivesLanesD (.vfmaD d a b mr) s d m (fun k => roundD r (Fp.addMode down ((X k).mul (Y k)) (Z k)))
    ∧ (∃ f : Nat → Word, (∀ k, k < 64 → RcpLane (lane (s.vreg a) k) (f k)) ∧ GivesLanes (.vrcp d a mr) s d m f)
    ∧ (∃ f : Nat → Word, (∀ k, k < 64 → RsqLane (lane (s.vreg a) k) (f k)) ∧ GivesLanes (.vrsq d a mr) s d m f)
    ∧ (∃ f : Nat → Word, (∀ k, k < 64 → Exp2Lane (lane (s.vreg a) k) (f k)) ∧ GivesLanes (.vexp2 d a mr) s d m f)
    ∧ (∃ f : Nat → Word, (∀ k, k < 64 → Log2Lane (lane (s.vreg a) k) (f k)) ∧ GivesLanes (.vlog2 d a mr) s d m f)

/-- R145: VABS.F and VNEG.F change the sign bit alone and give the canonical NaN for a NaN; VMIN.F gives the smaller and VMAX.F the larger
of its operands, −0 below +0 (`orderKey`), and the canonical NaN where either is a NaN. -/
def Sys2Proof.Claims.LaneSignAndOrderResults : Prop :=
  ∀ (s : State) (d a b : BitVec 5) (mr : BitVec 3), let m := s.mask mr
    let A := lane (s.vreg a); let B := lane (s.vreg b); let nan : Word := 0x7FC00000#32
    (∃ f : Nat → Word, (∀ k, k < 64 → (nanLane (A k) → f k = nan) ∧ (¬ nanLane (A k) → f k = A k &&& 0x7FFFFFFF#32))
      ∧ GivesLanes (.vabsF d a mr) s d m f)
    ∧ (∃ f : Nat → Word, (∀ k, k < 64 → (nanLane (A k) → f k = nan) ∧ (¬ nanLane (A k) → f k = A k ^^^ 0x80000000#32))
      ∧ GivesLanes (.vnegF d a mr) s d m f)
    ∧ (∃ f g : Nat → Word, (∀ k, k < 64 →
        (nanLane (A k) ∨ nanLane (B k) → f k = nan ∧ g k = nan)
        ∧ (¬ nanLane (A k) → ¬ nanLane (B k) →
          f k = (if orderKey (A k) ≤ orderKey (B k) then A k else B k) ∧ g k = (if orderKey (A k) ≤ orderKey (B k) then B k else A k)))
      ∧ GivesLanes (.vminF d a b mr) s d m f ∧ GivesLanes (.vmaxF d a b mr) s d m g)

/-- R148, R155, R152: moves of lanes, VIOTA, VCOMPRESS, VEXPAND and VSEL. -/
def Obligations.LaneMoveResults : Prop :=
  ∀ (s : State) (d a b : BitVec 5) (mr : BitVec 3), let m := s.mask mr; let A := lane (s.vreg a); let B := lane (s.vreg b)
    GivesLanes (.vbcast d a mr) s d m (fun _ => (s.reg a).extractLsb' 0 32)
    ∧ GivesG (.vext d a b) s d ((A ((s.reg b).extractLsb' 0 6).toNat).zeroExtend 64)
    ∧ GivesLanes (.vperm d a b mr) s d m (fun k => A ((B k).extractLsb' 0 6).toNat)
    ∧ GivesLanes (.viota d mr) s d (BitVec.allOnes 64) (fun k => BitVec.ofNat 32 (bitsBelow m k))
    ∧ GivesLanes (.vexpand d a mr) s d m (fun k => A (bitsBelow m k))
    ∧ GivesLanes (.vsel d a b mr) s d (BitVec.allOnes 64) (fun k => if m.getLsbD k then A k else B k)
    ∧ (∃ f : Nat → Word, (∀ k, k < 64 → m.getLsbD k = true → f (bitsBelow m k) = A k) ∧ (∀ k, bitsBelow m 64 ≤ k → f k = 0)
        ∧ GivesLanes (.vcompress d a mr) s d (BitVec.allOnes 64) f)

/-- R95, R149: VREDSUM.F sums the lanes in the pairwise tree, inactive lanes as +0, each sum rounded to nearest even; VREDMAX.F gives the
largest active lane, +0 above −0, −∞ where no lane is active and the canonical NaN where an active lane is a NaN; both write the result
zero-extended to g d. -/
def Obligations.LaneReductionResults : Prop :=
  ∀ (s : State) (d a : BitVec 5) (mr : BitVec 3), let m := s.mask mr; let A := lane (s.vreg a)
    (∃ t : Nat → Nat → Word,
      (∀ k, k < 64 → t 0 k = if m.getLsbD k then A k else 0)
      ∧ (∀ n k, n < 6 → k < 2 ^ (5 - n) →
          t (n + 1) k = roundW .nearestEven (Fp.addMode false (ofFp32 (t n (2 * k))) (ofFp32 (t n (2 * k + 1)))))
      ∧ GivesG (.vredsumF d a mr) s d ((t 6 0).zeroExtend 64))
    ∧ (∃ x : Word, ((∀ k, k < 64 → m.getLsbD k = false) → x = 0xFF800000#32)
        ∧ ((∃ k, k < 64 ∧ m.getLsbD k = true ∧ nanLane (A k)) → x = 0x7FC00000#32)
        ∧ ((∃ k, k < 64 ∧ m.getLsbD k = true) → (∀ k, k < 64 → m.getLsbD k = true → ¬ nanLane (A k)) →
            (∃ k, k < 64 ∧ m.getLsbD k = true ∧ x = A k) ∧ ∀ k, k < 64 → m.getLsbD k = true → orderKey (A k) ≤ orderKey x)
        ∧ GivesG (.vredmaxF d a mr) s d (x.zeroExtend 64))

/-- R152: the compares write every bit of their mask register: as IEEE comparisons of the lanes' values, a NaN comparing unordered, or
as integers. -/
def Sys2Proof.Claims.CompareResults : Prop :=
  ∀ (s : State) (d : BitVec 3) (a b : BitVec 5) (mr : BitVec 3), let m := s.mask mr
    let A := lane (s.vreg a); let B := lane (s.vreg b)
    GivesBits (.vcmpeqF d a b mr) s d m (fun k => (ofFp32 (A k)).eq (ofFp32 (B k)) = true)
    ∧ GivesBits (.vcmpltF d a b mr) s d m (fun k => (ofFp32 (A k)).lt (ofFp32 (B k)) = true)
    ∧ GivesBits (.vcmpleF d a b mr) s d m (fun k => (ofFp32 (A k)).lt (ofFp32 (B k)) = true ∨ (ofFp32 (A k)).eq (ofFp32 (B k)) = true)
    ∧ GivesBits (.vcmpunF d a b mr) s d m (fun k => nanLane (A k) ∨ nanLane (B k))
    ∧ GivesBits (.vcmpeqI d a b mr) s d m (fun k => A k = B k)
    ∧ GivesBits (.vcmpltI d a b mr) s d m (fun k => (A k).toInt < (B k).toInt)
    ∧ GivesBits (.vcmpltuI d a b mr) s d m (fun k => (A k).toNat < (B k).toNat)

/-- R152: the mask instructions. -/
def Sys2Proof.Claims.MaskResults : Prop :=
  ∀ (s : State) (d a b : BitVec 3) (g : BitVec 5),
    GivesM (.mand d a b) s d (s.mask a &&& s.mask b)
    ∧ GivesM (.mor d a b) s d (s.mask a ||| s.mask b)
    ∧ GivesM (.mxor d a b) s d (s.mask a ^^^ s.mask b)
    ∧ GivesM (.mnot d a) s d (~~~ s.mask a)
    ∧ GivesG (.mpop g a) s g (BitVec.ofNat 64 (bitsBelow (s.mask a) 64))
    ∧ GivesM (.mset d g) s d (s.reg g)

namespace Sys2Proof.Claims

/-- The header of scale +1.0 in a format, AUX 0 (R73). -/
def plain (f : Fmt) : Header := 0x03F80000#32 ||| BitVec.ofNat 32 f.code

/-- `x` is (−1)^neg × q. -/
def Worth (x : Fp) (neg : Bool) (q : ℚ) : Prop := ∃ (m : Nat) (e : Int), x = .fin neg m e ∧ (m : ℚ) * (2 : ℚ) ^ e = q

/-- What a code stands for without its sign bit, in a format with `mb` fraction bits and a bias (R78 to R81). -/
def magnitude (mb : Nat) (bias : Int) (c : Nat) : ℚ :=
  if c / 2 ^ mb = 0 then ((c % 2 ^ mb : Nat) : ℚ) * 2 ^ (1 - bias - mb)
  else (1 + ((c % 2 ^ mb : Nat) : ℚ) / 2 ^ mb) * 2 ^ (((c / 2 ^ mb : Nat) : Int) - bias)

/-- The codes of a float format of w bits that lie below `top` without their sign bit have their values (R78 to R81). -/
def FloatElements (f : Fmt) (w mb : Nat) (bias : Int) (top : Nat) : Prop :=
  ∀ neg : Bool, ∀ c, c < top → Worth (elementValue f (c + if neg then 2 ^ (w - 1) else 0)) neg (magnitude mb bias c)

/-- From `inf` on, the codes of an IEEE 754 format are the infinity and the NaNs (R78). -/
def SpecialElements (f : Fmt) (w inf : Nat) : Prop :=
  ∀ neg : Bool, let sg := if neg then 2 ^ (w - 1) else 0
    elementValue f (inf + sg) = .inf neg ∧ ∀ c, inf < c → c < 2 ^ (w - 1) → elementValue f (c + sg) = .nan

/-- The codes of a two's complement format of w bits have their values, the most negative one reading as `low` (R81, R82). -/
def IntElements (f : Fmt) (w low : Nat) : Prop :=
  ∀ c, c < 2 ^ w → Worth (elementValue f c) (decide (2 ^ (w - 1) ≤ c))
    (if c < 2 ^ (w - 1) then c else if c = 2 ^ (w - 1) then low else (2 ^ w - c : Nat))

/-- The code of MAXF (R90). -/
def topCode : Fmt → Nat
  | .fp32 => 0x7F7FFFFF | .fp64 => 0x7FEFFFFFFFFFFFFF | .bf16 => 0x7F7F | .fp16 => 0x7BFF | .e4m3 => 0x7E | .e5m2 => 0x7B
  | .e2m1 => 7 | .int8 => 127 | .int4 => 7 | .int32 => 0x7FFFFFFF | .raw => 0 | .cb2 => 0

/-- The integer formats. -/
def isInt : Fmt → Bool
  | .int8 | .int4 | .int32 => true
  | _ => false

/-- The code of a sign and a magnitude code: two's complement in an integer format, where the zero has no sign. -/
def codeOf (f : Fmt) (neg : Bool) (c : Nat) : Nat :=
  if neg then (if isInt f then (2 ^ f.width - c) % 2 ^ f.width else 2 ^ (f.width - 1) + c) else c

/-- The magnitude of a header's scale as an operation on a format applies it (R73, R74). -/
def scaleOf (f : Fmt) (h : Header) : ℚ :=
  if f.scaled = false ∨ h.extractLsb' 19 8 = 255#8 then 1
  else (1 + ((h.extractLsb' 8 11).toNat : ℚ) / 2048) * 2 ^ (((h.extractLsb' 19 8).toNat : Int) - 127)

/-- Its sign. -/
def scaleNeg (f : Fmt) (h : Header) : Bool := f.scaled && h.extractLsb' 19 8 != 255#8 && h.getLsbD 27

/-- Magnitude code c of format f, worth q, is what the magnitude y rounds to, `n` being the sign: the nearest magnitude that the format
has, of two the one with the even code; or the nearest on the side of zero; or on the other side, the largest where none is (R87, R90). Of a
stochastic rounding that has drawn d: with c₀ the nearest on the side of zero and f the part of the way to the next that y has gone, the
next exactly where d < ⌊f × 2^24⌋ (R89). -/
def RoundsTo (f : Fmt) (r : Rnd) (n : Bool) (y : ℚ) (c : Nat) (q : ℚ) : Prop :=
  let below : Prop := q ≤ y ∧ ∀ c' q', c' ≤ topCode f → Worth (elementValue f c') false q' → q' ≤ y → q' ≤ q
  let above : Prop := (y ≤ q ∨ c = topCode f) ∧ ∀ c' q', c' ≤ topCode f → Worth (elementValue f c') false q' → y ≤ q' → q ≤ q'
  match r with
  | .nearestEven => ∀ c' q', c' ≤ topCode f → Worth (elementValue f c') false q' →
      |q - y| ≤ |q' - y| ∧ (|q - y| = |q' - y| → q ≠ q' → c % 2 = 0)
  | .towardZero => below
  | .towardPos => if n then below else above
  | .towardNeg => if n then above else below
  | .stochastic d => ∃ (c₀ : Nat) (q₀ : ℚ), c₀ ≤ topCode f ∧ Worth (elementValue f c₀) false q₀ ∧ q₀ ≤ y
      ∧ (∀ c' q', c' ≤ topCode f → Worth (elementValue f c') false q' → q' ≤ y → q' ≤ q₀)
      ∧ (c₀ = topCode f → c = c₀)
      ∧ (c₀ < topCode f → ∀ q₁, Worth (elementValue f (c₀ + 1)) false q₁ →
          c = if d < ⌊(y - q₀) / (q₁ - q₀) * 2 ^ 24⌋₊ then c₀ + 1 else c₀)

/-- MIX and the 24 bits that R89 draws for an element at `addr`; `high` for a 4-bit element in the high nibble. -/
def mixed (x : Dword) : Dword :=
  let m : Dword := 0xD6E8FEB86659FD93#64; let x := (x ^^^ (x >>> 32)) * m; let x := (x ^^^ (x >>> 32)) * m; x ^^^ (x >>> 32)
def drawn (seed addr : Dword) (tag : BitVec 16) (high : Bool) : Nat :=
  let m := mixed (seed ^^^ (addr * 0x9E6C63D0676A9A99#64) ^^^ tag.zeroExtend 64)
  (if high then m.extractLsb' 24 24 else m.extractLsb' 0 24).toNat

/-- What an element counts in AUTO's amax (R92). -/
def countsAs (src : Fmt) (x : Fp) (q : ℚ) : Prop :=
  match x with
  | .nan => q = 0
  | .inf _ => Worth (elementValue src (topCode src)) false q
  | .fin _ m e => q = (m : ℚ) * 2 ^ e

end Sys2Proof.Claims

/-- R73 to R92: how a block is read under its header, the value of every element code of every format, the scale, the codebook weights and
tables; and how an element is encoded: one rounding of the exact quotient, saturated at MAXF, a code that decodes to its element again; the
headers that GIVEN and AUTO write; the rounding to FP32 and FP64, which gives an infinity where an encode saturates, and that to BF16 and
FP16 and to the integers; and the bits that a stochastic rounding draws for each element of a block. -/
def Sys2Proof.Claims.NumberFormats : Prop :=
  (∀ (d : Fmt) (h : Header), let c := h.extractLsb' 0 8
    (∀ f : Fmt, f ≠ .raw → c.toNat = f.code → viewBlock d h = .typed f h) ∧ (c = 0#8 → viewBlock d h = .typed d (plain d))
    ∧ (0x0C#8 ≤ c → (viewBlock d h).fmt = d ∧ ∀ t blk i, decodeElement (viewBlock d h) t blk i = .fin false 0 0))
  ∧ [Fmt.raw, .fp32, .fp64, .bf16, .fp16, .e4m3, .e5m2, .e2m1, .int8, .int4, .cb2, .int32].map Fmt.code = List.range 12
  ∧ [Fmt.fp32, .fp64, .bf16, .fp16, .e4m3, .e5m2, .e2m1, .int8, .int4, .cb2, .int32].map (fun f => (f.width, f.perBlock, f.scaled))
      = [(32, 16, false), (64, 8, false), (16, 32, false), (16, 32, false), (8, 64, true), (8, 64, true), (4, 128, true), (8, 64, true),
         (4, 128, true), (16, 256, true), (32, 16, false)]
  ∧ FloatElements .fp32 32 23 127 0x7F800000 ∧ SpecialElements .fp32 32 0x7F800000
  ∧ FloatElements .fp64 64 52 1023 0x7FF0000000000000 ∧ SpecialElements .fp64 64 0x7FF0000000000000
  ∧ FloatElements .bf16 16 7 127 0x7F80 ∧ SpecialElements .bf16 16 0x7F80 ∧ FloatElements .fp16 16 10 15 0x7C00 ∧ SpecialElements .fp16 16 0x7C00
  ∧ FloatElements .e4m3 8 3 7 0x7F ∧ Worth (elementValue .e4m3 0x7F) false 448 ∧ Worth (elementValue .e4m3 0xFF) true 448
  ∧ FloatElements .e5m2 8 2 15 0x7C ∧ Worth (elementValue .e5m2 0x7C) false 57344 ∧ Worth (elementValue .e5m2 0xFC) true 57344
  ∧ (∀ c ∈ [0x7D, 0x7E, 0x7F, 0xFD, 0xFE, 0xFF], Worth (elementValue .e5m2 c) false 0)
  ∧ FloatElements .e2m1 4 1 1 8 ∧ IntElements .int8 8 127 ∧ IntElements .int4 4 7 ∧ IntElements .int32 32 (2 ^ 31)
  ∧ (∀ (f : Fmt) (h : Header) (t : Nat → Nat → Nat) (blk : Block) (i : Nat), f ≠ .raw → f ≠ .cb2 → i < f.perBlock →
      let v := elementValue f (blk.extractLsb' (f.width * i) f.width).toNat; let x := decodeElement (.typed f h) t blk i
      (f.scaled = false ∨ h.extractLsb' 19 8 = 255#8 → x = v)
      ∧ (f.scaled = true → h.extractLsb' 19 8 = 0#8 → Worth x false 0)
      ∧ (f.scaled = true → h.extractLsb' 19 8 ≠ 0#8 → ∀ n q, Worth v n q → Worth x (n != scaleNeg f h) (q * scaleOf f h)))
  ∧ (∀ (h : Header) (t : Nat → Nat → Nat) (blk : Block) (i j : Nat), i < 32 → j < 8 →
      let x := blk.extractLsb' (16 * i) 16; let mag := t (h.extractLsb' 28 4).toNat (x.extractLsb' 8 8).toNat / 16 ^ j % 16
      (h.extractLsb' 19 8 = 0#8 → Worth (decodeElement (.typed .cb2 h) t blk (8 * i + j)) false 0)
      ∧ (h.extractLsb' 19 8 ≠ 0#8 → Worth (decodeElement (.typed .cb2 h) t blk (8 * i + j))
          ((x.getLsbD j && decide (mag ≠ 0)) != scaleNeg .cb2 h) ((mag : ℚ) / 8 * scaleOf .cb2 h)))
  ∧ (∀ (k : Core) (t e : Nat), t < 16 → e < 256 →
      (k.ctl.cbtab = 0 → ∀ j, j < 8 → k.cbEntry t e / 16 ^ j % 16 = 4 * (e / 4 ^ (j % 4) % 4) + 1 + (if 4 ≤ j then 2 else 0))
      ∧ (k.ctl.cbtab ≠ 0 → k.cbEntry t e = readLE k.ls (k.ctl.cbtab.toNat + 1024 * t + 4 * e) 4))
  ∧ (∀ (f : Fmt) (h : Header) (r : Rnd) (neg : Bool) (m : Nat) (e : Int), f.encodable = true →
      (f.scaled = true ∧ h.extractLsb' 19 8 = 0#8 → ∀ x, encodeElement f h r x = 0)
      ∧ (¬ (f.scaled = true ∧ h.extractLsb' 19 8 = 0#8) →
          encodeElement f h r .nan = 0 ∧ encodeElement f h r (.inf neg) = codeOf f neg (topCode f)
          ∧ (∃ c q, c ≤ topCode f ∧ Worth (elementValue f c) false q ∧ encodeElement f h r (.fin neg m e) = codeOf f (neg != scaleNeg f h) c
              ∧ RoundsTo f r (neg != scaleNeg f h) ((m : ℚ) * 2 ^ e / scaleOf f h) c q)
          ∧ (∀ (t : Nat → Nat → Nat) (blk : Block) (i c : Nat), i < f.perBlock → c ≤ topCode f → (f.scaled = true ∨ h = plain f) →
              (blk.extractLsb' (f.width * i) f.width).toNat = codeOf f neg c →
              encodeElement f h r (decodeElement (.typed f h) t blk i) = codeOf f neg c)))
  ∧ (∀ (f : Fmt) (h : Header), f.encodable = true →
      givenHeader f h = if f.scaled = false ∨ h.extractLsb' 19 8 = 255#8 then plain f
        else (h &&& 0x0FFFFF00#32) ||| BitVec.ofNat 32 f.code)
  ∧ (∀ (f src : Fmt) (xs : List Fp), f.encodable = true → src = .fp32 ∨ src = .fp64 →
      (f.scaled = false → autoHeader f src xs = plain f)
      ∧ (f.scaled = true → ∀ a : ℚ, (∀ x, x ∈ xs → ∀ q, countsAs src x q → q ≤ a) → (∃ x, x ∈ xs ∧ countsAs src x a) →
          (a = 0 → autoHeader f src xs = plain f)
          ∧ ∀ k : Int, let F : Int := match f with | .e4m3 => 8 | .e5m2 => 15 | .int8 => 6 | _ => 2
              (2 : ℚ) ^ (k + F) ≤ a → a < 2 ^ (k + F + 1) →
              autoHeader f src xs = BitVec.ofNat 32 ((max (-126) (min k 127) + 127).toNat * 2 ^ 19 + f.code)))
  ∧ (∀ (neg : Bool) (m : Nat) (e : Int),
      (fp32.round .nearestEven (.fin neg m e) = if (m : ℚ) * 2 ^ e < (2 - 1 / 2 ^ 24) * 2 ^ 127 then encodeElement .fp32 0 .nearestEven (.fin neg m e)
        else codeOf .fp32 neg 0x7F800000)
      ∧ (fp64.round .nearestEven (.fin neg m e) = if (m : ℚ) * 2 ^ e < (2 - 1 / 2 ^ 53) * 2 ^ 1023 then encodeElement .fp64 0 .nearestEven (.fin neg m e)
          else codeOf .fp64 neg 0x7FF0000000000000))
  ∧ (∀ (r : Rnd) (neg : Bool) (m : Nat) (e : Int), let y := (m : ℚ) * 2 ^ e
      (y ≤ 2 ^ 128 - 2 ^ 120 → bf16.round r (.fin neg m e) = encodeElement .bf16 0 r (.fin neg m e))
      ∧ (y ≤ 65504 → fp16.round r (.fin neg m e) = encodeElement .fp16 0 r (.fin neg m e)))
  ∧ (∀ (neg : Bool) (num den d : Nat) (e q : Int), 0 < den → let y := (num : ℚ) / den * 2 ^ (e - q)
      roundAt (.stochastic d) neg num den e q = if d < ⌊(y - ⌊y⌋₊) * 2 ^ 24⌋₊ then ⌊y⌋₊ + 1 else ⌊y⌋₊)
  ∧ (∀ (seed addr : Dword) (tag : BitVec 16) (high : Bool), draw24 seed addr tag.toNat high = drawn seed addr tag high)
  ∧ (∀ (f : Fmt) (h : Header) (mode : Nat) (seed addr : Dword) (tag : BitVec 16) (xs : List Fp) (j : Nat) (x : Fp), f.encodable = true →
      j < f.perBlock → xs[j]? = some x → let bit := f.width * j
      let r : Rnd := match mode with
        | 1 => .towardZero | 2 => .towardPos | 3 => .towardNeg
        | 4 => .stochastic (drawn seed (addr + BitVec.ofNat 64 (bit / 8)) tag (decide (bit % 8 = 4))) | _ => .nearestEven
      (encodeBlock f h mode seed addr tag.toNat xs).extractLsb' bit f.width = BitVec.ofNat f.width (encodeElement f h r x))

/-- R160, R161: VCVT with selector rounding 0, 1 or 2 and VCVTS convert the active lanes as the table of R160 has it (`Converts`), under
the rounding that the selector, RMODE or the stochastic form gives the lane; conversion 7 widens to 64-bit lanes; rounding selector 3
is ILLEGAL. -/
def Sys2Proof.Claims.LaneConversions : Prop :=
  ∀ (s : State) (d a b sel : BitVec 5) (mr : BitVec 3), let m := s.mask mr; let v := s.vreg a
    let seed := s.here.ctl.srseed; let cv := (sel.extractLsb' 0 3).toNat; let cs := ((s.reg b).extractLsb' 16 3).toNat
    let mode := match (sel.extractLsb' 3 2).toNat with | 0 => s.me.rmode.toNat | 1 => 0 | _ => 1
    let rnd (md : Nat) (tag : BitVec 16) (k : Nat) : Rnd := match md with
      | 1 => .towardZero | 2 => .towardPos | 3 => .towardNeg | 4 => .stochastic (drawn seed (BitVec.ofNat 64 (4 * k)) tag false) | _ => .nearestEven
    let wide (y : Dword) (x : Word) : Prop := (nanLane x → y = 0x7FF8000000000000#64)
      ∧ (∀ neg m e, ofFp32 x = .fin neg m e → y = BitVec.ofNat 64 (fp64.roundRat .nearestEven neg m 1 e))
      ∧ (x = 0x7F800000#32 → y = 0x7FF0000000000000#64) ∧ (x = 0xFF800000#32 → y = 0xFFF0000000000000#64)
    (sel.extractLsb' 3 2 ≠ 3#2 →
      (cv ≠ 7 → ∃ f : Nat → Word, (∀ k, k < 64 → Converts cv v (rnd mode 0 k) k (f k)) ∧ GivesLanes (.vcvt d a sel mr) s d m f)
      ∧ (cv = 7 → ∃ f : Nat → Dword, (∀ k, k < 32 → wide (f k) (lane v k)) ∧ GivesLanesD (.vcvt d a sel mr) s d m f))
    ∧ (sel.extractLsb' 3 2 = 3#2 → Ready (.vcvt d a sel mr) s → ∃ w, Faults (.vcvt d a sel mr) s 0x01 w s.pc)
    ∧ (cs ≠ 7 → ∃ f : Nat → Word, (∀ k, k < 64 → Converts cs v (rnd 4 ((s.reg b).extractLsb' 0 16) k) k (f k))
        ∧ GivesLanes (.vcvts d a b mr) s d m f)
    ∧ (cs = 7 → ∃ f : Nat → Dword, (∀ k, k < 32 → wide (f k) (lane v k)) ∧ GivesLanesD (.vcvts d a b mr) s d m f)

/-- R153: VLD and VST of a user slot on its own core move all 256 bytes, byte 4k to 4k + 3 lane k. -/
def Sys2Proof.Claims.OwnVectorsMove : Prop :=
  ∀ (s : State) (d a : BitVec 5) (im : BitVec 16), User s → let off := (s.reg a + im.signExtend 64).toNat
    off % 4 = 0 →
    (Readable s.here off 256 → off + 256 ≤ 0x90000 → GivesLanes (.vld d a im) s d (BitVec.allOnes 64) (fun k => wordOf4 s (off + 4 * k)))
    ∧ (Writable s.here off 256 → Stores (.vst d a im) s off 256 (byteOf (s.vreg d)))

/-- R154, R112, R121: VLDS and VGATHER read, VSTS and VSCATTER write, one word per active lane of a user slot's own core; of two active lanes
that write one word the higher stays; no other byte changes. The first lane that fails its check is reported with its address, whichever byte
of its word fails: a lane past LSBYTES ends the gang with LSBOUND, a lane under a lock traps RANGE, and nothing is loaded or stored. -/
def Sys2Proof.Claims.OwnLanesMove : Prop :=
  ∀ (s : State) (d a b : BitVec 5) (mr : BitVec 3), User s → let m := s.mask mr
    let strided (k : Nat) : Dword := s.reg a + BitVec.ofNat 64 k * s.reg b
    let indexed (k : Nat) : Dword := s.reg a + (lane (s.vreg b) k).zeroExtend 64
    let loads (i : Instr) (at_ : Nat → Dword) : Prop :=
      (∀ k, k < 64 → m.getLsbD k = true → (at_ k).toNat % 4 = 0 ∧ Readable s.here (at_ k).toNat 4) →
        GivesLanes i s d m (fun k => wordOf4 s (at_ k).toNat)
    let stores (i : Instr) (at_ : Nat → Dword) : Prop :=
      s.me.lanes = 0 → (∀ k, k < 64 → m.getLsbD k = true → (at_ k).toNat % 4 = 0 ∧ Writable s.here (at_ k).toNat 4) → Ready i s →
        ∃ t, exec i s = .next t
          ∧ (∀ k j, k < 64 → m.getLsbD k = true → (∀ n, k < n → n < 64 → m.getLsbD n = true → at_ n ≠ at_ k) → j < 4 →
              readByte t.here.ls ((at_ k).toNat + j) = byteOf (lane (s.vreg d) k) j)
          ∧ (∀ x, (∀ k, k < 64 → m.getLsbD k = true → x < (at_ k).toNat ∨ (at_ k).toNat + 4 ≤ x) →
              readByte t.here.ls x = readByte s.here.ls x)
          ∧ t.pc = s.pc + 4 ∧ { t.me with pc := s.me.pc } = s.me ∧ SameBeyondLs s t
    let fails (i : Instr) (at_ : Nat → Dword) (ok : Nat → Nat → Prop) (write : Bool) : Prop := ∀ k, k < 64 → m.getLsbD k = true →
      (∀ j, j < k → m.getLsbD j = true → (at_ j).toNat % 4 = 0 ∧ ok (at_ j).toNat 4) → (at_ k).toNat % 4 = 0 → 0x100 ≤ (at_ k).toNat →
        (s.here.page.lsbytes ≤ (at_ k).toNat → (at_ k).toNat < 0x60000 → Ready i s → Faults i s 0x03 (at_ k) s.pc)
        ∧ (∀ l, (at_ k).toNat + 4 ≤ s.here.page.lsbytes → s.here.page.lsbytes ≤ 0x60000 → some l ∈ s.here.locks.toList → write = true ∨ l.dest = true →
            l.base < (at_ k).toNat + 4 → (at_ k).toNat < l.limit → l.base < l.limit → Traps i s 0x04 (at_ k) s.pc)
    loads (.vlds d a b mr) strided ∧ loads (.vgather d a b mr) indexed ∧ stores (.vsts d a b mr) strided ∧ stores (.vscatter d a b mr) indexed
    ∧ fails (.vlds d a b mr) strided (Readable s.here) false ∧ fails (.vgather d a b mr) indexed (Readable s.here) false
    ∧ (s.me.lanes = 0 → fails (.vsts d a b mr) strided (Writable s.here) true ∧ fails (.vscatter d a b mr) indexed (Writable s.here) true)

/-- R158: VDEC of a readable own-core block writes the 64 elements of its part, each decoded by the block's header and rounded to nearest
even, +0 past the last; a CB2 block whose table does not lie below LSBYTES ends the gang with LSBOUND. -/
def Sys2Proof.Claims.OwnBlocksDecode : Prop :=
  ∀ (s : State) (d a : BitVec 5) (p : BitVec 2), User s → let off := (s.reg a).toNat; let k := s.here
    off % 64 = 0 → Readable k off 64 → let v := viewBlock .fp32 (k.header off)
    (k.cbFault v = none →
      GivesLanes (.vdec d a p) s d (BitVec.allOnes 64) (fun i => let e := 64 * p.toNat + i
        if e < v.fmt.perBlock then rneFp32 (decodeElement v k.cbEntry (k.block off) e) else 0))
    ∧ (∀ o, k.cbFault v = some o → Ready (.vdec d a p) s → Faults (.vdec d a p) s 0x03 (BitVec.ofNat 64 o) s.pc)

/-- R159: VENC and VENC.AUTO of a user slot to a writable block of its own core store the encoded block and its header as one update and
change no other byte and no other header; a RAW, CB2 or reserved target, or a 4-bit target with a = 31, ends the gang with ILLEGAL. -/
def Sys2Proof.Claims.OwnBlocksEncode : Prop :=
  ∀ (s : State) (d a b : BitVec 5) (auto : Bool), User s → let off := (s.reg d).toNat; let tmpl := (s.reg b).extractLsb' 0 32
    let i : Instr := if auto then .vencAuto d a b else .venc d a b
    Ready i s →
    (∀ f : Fmt, Fmt.ofCode (hdrFmt tmpl) = some f → f.encodable = true → ¬ (f.narrow = true ∧ a = 31#5) → off % 64 = 0 → Writable s.here off 64 →
      let xs := vencElements f (s.vreg a) (s.vreg (a + 1)); let h := if auto then autoHeader f .fp32 xs else givenHeader f tmpl
      ∃ t, exec i s = .next t
        ∧ (∀ j, j < 64 → readByte t.here.ls (off + j) = byteOf (encodeBlock f h s.me.rmode.toNat s.here.ctl.srseed (s.reg d) 0 xs) j)
        ∧ (∀ x, x < off ∨ off + 64 ≤ x → readByte t.here.ls x = readByte s.here.ls x)
        ∧ t.here.header off = h ∧ (∀ x, x / 64 ≠ off / 64 → t.here.header x = s.here.header x)
        ∧ t.pc = s.pc + 4 ∧ { t.me with pc := s.me.pc } = s.me ∧ SameBeyondCore s t
        ∧ { t.here with slots := s.here.slots, ls := s.here.ls, lsHdr := s.here.lsHdr } = s.here)
    ∧ ((∀ f : Fmt, Fmt.ofCode (hdrFmt tmpl) = some f → f.encodable = false ∨ (f.narrow = true ∧ a = 31#5)) → ∃ w, Faults i s 0x01 w s.pc)

namespace Sys2Proof.Claims

/-- Offset and length of the pieces in which 256 bytes at `ea` go to one destination: one for each 64-byte block that they touch, or one
in all where they cross into another 64 KiB of device memory (R58, R63, R156). -/
def pieces (ea : Dword) : List (Nat × Nat) :=
  let h := 64 - ea.toNat % 64
  if ea.getLsbD 63 = true ∧ 65536 < ea.toNat % 65536 + 256 then [(0, 256)]
  else if h = 64 then [(0, 64), (64, 64), (128, 64), (192, 64)]
  else [(0, h), (h, 64), (h + 64, 64), (h + 128, 64), (h + 192, 64 - h)]

/-- Bytes `off` to `off + n − 1` of a vector register. -/
def regBytes (v : VReg) (off n : Nat) : List Byte := (List.range n).map (fun j => byteOf v (off + j))

/-- A packet for `dest` with the items `xs`, all of them sent, is retained. -/
def Retains (k : Core) (dest : Node) (pair : Option Nat) (P : List Item → Prop) : Prop :=
  ∃ r, r ∈ k.ni.retained ∧ r.dest = dest ∧ r.pair = pair ∧ P r.items ∧ ∀ x, x ∈ r.items → x.st = .sent

/-- The same under its number. -/
def Keeps (k : Core) (uid : Nat) (dest : Node) (pair : Option Nat) (P : List Item → Prop) : Prop :=
  ∃ r, r ∈ k.ni.retained ∧ r.uid = uid ∧ r.dest = dest ∧ r.pair = pair ∧ P r.items ∧ ∀ x, x ∈ r.items → x.st = .sent

/-- Nothing has entered a buffer of the issuing core: each that is OPEN was so before, with the same elements. -/
def KeepsBuffers (s : State) (k : Core) : Prop := ∀ b, some b ∈ k.ni.bufs.toList → some b ∈ s.here.ni.bufs.toList

/-- `i` completes and leaves `P` in the NI: the pc passes on; no register and no memory has changed. -/
def Leaves (i : Instr) (s : State) (P : Core → Prop) : Prop :=
  Ready i s → ∃ t, exec i s = .next t ∧ P t.here
    ∧ t.pc = s.pc + 4 ∧ { t.me with pc := s.me.pc } = s.me
    ∧ t.issuer = s.issuer ∧ (∀ j, j ≠ s.issuer.2 → t.here.slot j = s.here.slot j)
    ∧ (∀ c, c ≠ s.issuer.1 → t.core c = s.core c) ∧ SameMemory s t

end Sys2Proof.Claims

/-- R63, R71, R139, R156, R158, R159, R187: a vector load with a remote address is one request, whatever its lanes and destinations, and its
register is not written before every part is answered: its parts are the blocks of VLD, the block of VDEC, and the active lanes of VLDS and
VGATHER in ascending order, of which those of the own core are read at issue and have their bytes already.
STHDR, VST and VENC to another core or to device memory leave at once: what they carry is retained and enters no buffer, STHDR the low word
of g d, VST the bytes of v d, a VST that spans two pages of two stations as two packets that name each other. -/
def Sys2Proof.Claims.RemoteVectorsGoOn : Prop :=
  ∀ (s : State) (d a b : BitVec 5) (im : BitVec 16) (o : BitVec 15) (p : BitVec 2) (mr : BitVec 3) (dest : Node),
    let ea := s.reg a + im.signExtend 64; let eh := s.reg a + o.zeroExtend 64; let ev := s.reg d
    let strided (k : Nat) : Dword := s.reg a + BitVec.ofNat 64 k * s.reg b
    let indexed (k : Nat) : Dword := s.reg a + (lane (s.vreg b) k).zeroExtend 64
    let active (k : Nat) : Prop := k < 64 ∧ (s.mask mr).getLsbD k = true
    let own (x : Dword) : Prop := (s.place x).dest = none ∧ Readable s.here x.toNat 4
    let gathers (i : Instr) (at_ : Nat → Dword) : Prop :=
      (∀ k, active k → (at_ k).toNat % 4 = 0 ∧ ((s.place (at_ k)).dest ≠ none ∨ own (at_ k))) → (∃ k, active k ∧ (s.place (at_ k)).dest ≠ none) →
      User s → Ready i s → ∃ t, exec i s = .next t
        ∧ (∃ k, active k ∧ (s.place (at_ k)).dest ≠ none ∧ (∀ j, j < k → active j → (s.place (at_ j)).dest = none)
          ∧ Awaits s t (.vlanes d) (at_ k) (((List.range 64).filter (fun l => (s.mask mr).getLsbD l)).map (fun l => match (s.place (at_ l)).dest with
              | some n => asked n (at_ l) 4 (4 * l)
              | none => ⟨.core s.issuer.1, at_ l, 4, 4 * l, .got ((List.range 4).map (fun j => byteAt s ((at_ l).toNat + j))) 0⟩)))
        ∧ t.here.outstand = s.here.outstand + 1
        ∧ (∀ r, t.here.pending t.issuer.2 r = (s.here.pending s.issuer.2 r || decide (r = .v d)))
        ∧ t.pc = s.pc + 4 ∧ { t.me with pc := s.me.pc } = s.me
        ∧ t.issuer = s.issuer ∧ (∀ j, j ≠ s.issuer.2 → t.here.slot j = s.here.slot j)
        ∧ (∀ c, c ≠ s.issuer.1 → t.core c = s.core c) ∧ SameMemory s t
    let vst (off n : Nat) (x : Item) : Prop := x.kind = .vst (regBytes (s.vreg d) off n) ∧ x.el.addr = ea + BitVec.ofNat 64 off
    let venc (i : Instr) (auto : Bool) : Prop :=
      ∀ f : Fmt, Fmt.ofCode (hdrFmt ((s.reg b).extractLsb' 0 32)) = some f → f.encodable = true → ¬ (f.narrow = true ∧ a = 31#5) →
        ev.toNat % 64 = 0 → (s.place ev).dest = some dest →
        let xs := vencElements f (s.vreg a) (s.vreg (a + 1))
        let h := if auto then autoHeader f .fp32 xs else givenHeader f ((s.reg b).extractLsb' 0 32)
        let blk := encodeBlock f h s.me.rmode.toNat s.here.ctl.srseed ev 0 xs
        Leaves i s (fun k => KeepsBuffers s k ∧ Retains k dest none (fun l => ∃ x bs, l = [x] ∧ x.kind = .venc bs h ∧ x.el.addr = ev
          ∧ bs.length = 64 ∧ ∀ j, j < 64 → bs[j]? = some (byteOf blk j)))
    let n := 65536 - ea.toNat % 65536; let eb := ea + BitVec.ofNat 64 n
    let st (x : Dword) := Node.station (stationOf (x.extractLsb' 0 56).toNat)
    ((s.place ea).dest = some dest → (s.place ea).holds 256 = true → ea.toNat % 4 = 0 →
      (crosses ea 256 = false →
        Asks (.vld d a im) s [.v d] (.vload d) ea ((pieces ea).map (fun p => asked dest (ea + BitVec.ofNat 64 p.1) p.2 p.1))
        ∧ Leaves (.vst d a im) s (fun k => KeepsBuffers s k ∧ Retains k dest none (fun l => l.length = (pieces ea).length
            ∧ ∀ (j : Nat) (p : Nat × Nat), (pieces ea)[j]? = some p → ∃ x, l[j]? = some x ∧ vst p.1 p.2 x)))
      ∧ (crosses ea 256 = true →
        Asks (.vld d a im) s [.v d] (.vload d) ea [asked (st ea) ea n 0, asked (st eb) eb (256 - n) n]
        ∧ Leaves (.vst d a im) s (fun k => KeepsBuffers s k ∧ ∃ u w, Keeps k u (st ea) (some w) (fun l => ∃ x, l = [x] ∧ vst 0 n x)
            ∧ Keeps k w (st eb) (some u) (fun l => ∃ x, l = [x] ∧ vst n (256 - n) x))))
    ∧ ((s.place (s.reg a)).dest = some dest → (s.reg a).toNat % 64 = 0 →
      Asks (.vdec d a p) s [.v d] (.vdec d p.toNat) (s.reg a) [asked dest (s.reg a) 64 0])
    ∧ gathers (.vlds d a b mr) strided ∧ gathers (.vgather d a b mr) indexed
    ∧ venc (.venc d a b) false ∧ venc (.vencAuto d a b) true
    ∧ ((s.place eh).dest = some dest → eh.toNat % 64 = 0 → Leaves (.sthdr d a o) s (fun k => KeepsBuffers s k ∧ Retains k dest none (fun l =>
        ∃ x, l = [x] ∧ x.kind = .sthdr ((s.reg d).extractLsb' 0 32) ∧ x.el.addr = eh)))

namespace Sys2Proof.Claims

/-- `i` completes inside its core: g `d` takes `v` (d = 0: no register), the pc passes on, the core before and after is as `P` says, and
the other slots and everything beyond the core stand as before. -/
def GivesWith (i : Instr) (s : State) (d : BitVec 5) (v : Dword) (P : Core → Core → Prop) : Prop :=
  Ready i s → ∃ t, exec i s = .next t
    ∧ (∀ r, t.reg r = if r = d ∧ d ≠ 0 then v else s.reg r)
    ∧ t.pc = s.pc + 4 ∧ { t.me with g := s.me.g, pc := s.me.pc } = s.me
    ∧ (∀ j, j ≠ s.issuer.2 → t.here.slot j = s.here.slot j) ∧ P s.here t.here ∧ SameBeyondCore s t

/-- The same where one packet, which `m` describes, leaves too. -/
def GivesSending (i : Instr) (s : State) (d : BitVec 5) (v : Dword) (P : Core → Core → Prop) (m : Packet → Prop) : Prop :=
  Ready i s → ∃ t p, exec i s = .next t
    ∧ (∀ r, t.reg r = if r = d ∧ d ≠ 0 then v else s.reg r)
    ∧ t.pc = s.pc + 4 ∧ { t.me with g := s.me.g, pc := s.me.pc } = s.me
    ∧ (∀ j, j ≠ s.issuer.2 → t.here.slot j = s.here.slot j) ∧ P s.here t.here
    ∧ t.net = s.net ++ [p] ∧ m p ∧ SameBeyondCore s { t with net := s.net }

/-- Failure code n of R39: the negative number −n. -/
abbrev failure (n : Nat) : Dword := -(BitVec.ofNat 64 n)

/-- A release has nothing to wait for: no AGGF is pending, no buffer is OPEN, the slot has no request out and every retained item of it is
settled (R201). -/
def NothingOut (s : State) : Prop :=
  s.me.aggf = none ∧ (∀ i, i < 16 → s.here.ni.bufs.toList[i]? = some none) ∧ (∀ q, q ∈ s.here.ni.reqs → q.slot ≠ s.issuer.2.val)
    ∧ ∀ r, r ∈ s.here.ni.retained → ∀ x, x ∈ r.items → (∃ a, (s.issuer.2.val, a) ∈ x.el.marks) → x.st = .settled

/-- The same for an instruction that has not waited for its release. -/
def Settled (s : State) : Prop := s.me.fencing = false ∧ NothingOut s

/-- The fields of AGGST (R202): XWAIT, LATCH, AGGFPEND, RINGUSED, RETAINED and OPENMASK. -/
def AggstFields (k : Core) (v : Dword) : Prop :=
  v.extractLsb' 37 27 = 0#27
    ∧ (v.getLsbD 36 = true ↔ ∃ r x n a, r ∈ k.ni.retained ∧ x ∈ r.items ∧ x.st = .repair n a)
    ∧ (∀ i, i < 4 → (v.getLsbD (32 + i) = true ↔ ∃ q p n a, k.latch i = some q ∧ p ∈ q.parts ∧ p.st = .repair n a))
    ∧ (∀ i : Fin 4, v.getLsbD (28 + i.val) = (k.slot ⟨i.val, by omega⟩).aggf.isSome)
    ∧ (let at_ := k.ctl.faultring.toNat
       v.extractLsb' 24 4 = if at_ ≠ 0 ∧ at_ + 2048 ≤ k.page.lsbytes then
         BitVec.ofNat 4 ((List.range 8).countP (fun i => (readByte k.ls (at_ + 256 * i + 0x18)).getLsbD 0)) else 0#4)
    ∧ v.extractLsb' 16 8 = BitVec.ofNat 8 k.ni.retained.length
    ∧ ∀ i : Fin 16, v.getLsbD i.val = k.ni.bufs[i].isSome

end Sys2Proof.Claims

/-! Messages, channels and patterns (R211 to R228) -/

/-- R215, R213: SEND and SENDC of a user slot to its own core (the .rel forms, r = 1, once nothing is left to settle). A message enters the
hardware queue while the ring is empty and the queue has room, else the ring's tail; a count grows by bits [47:0]; a channel of
the wrong kind traps REFUSED, a full queue or an overflowing count ends the gang with CHOVF, any offset outside the windows with ADDR. -/
def Sys2Proof.Claims.SendsDeliver : Prop :=
  ∀ (s : State) (a b : BitVec 5) (r : BitVec 1), User s → (r = 1 → Settled s) → s.place (s.reg a) = .own (s.reg a).toNat →
    let ea := s.reg a; let off := ea.toNat; let v := s.reg b; let c := (off - 0xC0000) / 16; let x := s.here.chan c
    let m : Dword × BitVec 16 := (v, BitVec.ofNat 16 s.here.page.rank); let n := (v.extractLsb' 0 48).toNat
    let slot := x.roff + 16 * ((x.rhead + x.spill) % x.rent)
    let others (k k' : Core) : Prop := (∀ j, j < 64 → j ≠ c → k'.chan j = k.chan j)
    off % 16 = 0 →
    (0xC0000 ≤ off → off ≤ 0xC03F0 →
      (s.here.isMsg c = true → x.held < 8 + x.rent →
        (x.spill = 0 ∧ x.msgs.length < 8 → GivesWith (.send a b r) s 0 0 (fun k k' => k'.chan c = { x with msgs := x.msgs ++ [m], cnt := x.cnt + 1 }
          ∧ others k k' ∧ { k' with slots := k.slots, chans := k.chans } = k))
        ∧ (¬ (x.spill = 0 ∧ x.msgs.length < 8) → GivesWith (.send a b r) s 0 0 (fun k k' => k'.chan c = { x with spill := x.spill + 1, cnt := x.cnt + 1 }
          ∧ (∀ j, j < 8 → readByte k'.ls (slot + j) = byteOf m.1 j) ∧ (∀ j, j < 2 → readByte k'.ls (slot + 8 + j) = byteOf m.2 j)
          ∧ (∀ y, y < slot ∨ slot + 16 ≤ y → readByte k'.ls y = readByte k.ls y)
          ∧ others k k' ∧ { k' with slots := k.slots, chans := k.chans, ls := k.ls } = k)))
      ∧ (s.here.isCount c = true → x.cnt + n < 2 ^ 48 → GivesWith (.sendc a b r) s 0 0 (fun k k' => k'.chan c = { x with cnt := x.cnt + n }
          ∧ others k k' ∧ { k' with slots := k.slots, chans := k.chans } = k))
      ∧ (s.here.isMsg c = false → Traps (.send a b r) s 0x05 ea s.pc)
      ∧ (s.here.isCount c = false → Traps (.sendc a b r) s 0x05 ea s.pc)
      ∧ (s.here.isMsg c = true → 8 + x.rent ≤ x.held → Ready (.send a b r) s → Faults (.send a b r) s 0x0B ea s.pc)
      ∧ (s.here.isCount c = true → 2 ^ 48 ≤ x.cnt + n → Ready (.sendc a b r) s → Faults (.sendc a b r) s 0x0B ea s.pc))
    ∧ ((off < 0xC0000 ∨ 0xC03F0 < off) →
      (Ready (.send a b r) s → Faults (.send a b r) s 0x09 ea s.pc) ∧ (Ready (.sendc a b r) s → Faults (.sendc a b r) s 0x09 ea s.pc))

/-- R187, R192, R215: SEND and SENDC to another core, of this device or of another, enter no buffer: each leaves at once and is retained, as a
message or as a count, until it is answered. Of the .rel forms (r = 1), whose release has nothing left to settle, one for which the
retention store has no room, or that HOLD keeps from a core of this device (R314), waits with its release under way. One to an address that is
no multiple of 16 traps; one to device memory ends the gang. -/
def Sys2Proof.Claims.RemoteSendsLeave : Prop :=
  ∀ (s : State) (a b : BitVec 5) (r : BitVec 1), (r = 1 → Settled s) → let ea := s.reg a
    let leaves (i : Instr) (count : Bool) (dest : Node) : Prop := Leaves i s (fun k => KeepsBuffers s k ∧ Retains k dest none (fun l =>
      ∃ x, l = [x] ∧ x.kind = .send count ∧ x.el.addr = ea ∧ x.el.value = s.reg b))
    let waits (i : Instr) : Prop := Ready i s → ∃ t, exec i s = .next t ∧ t.me = { s.me with fencing := true } ∧ SameBeyondSlot s t ∧ SameMemory s t
    (∀ dest, (s.place ea).dest = some dest → (∀ n, dest ≠ .station n) → ea.toNat % 16 = 0 →
      let full : Prop := 32 ≤ s.here.ni.retained.length ∨ (s.here.ni.hold = true ∧ ∃ c, dest = .core c)
      (r = 0 ∨ ¬ full → leaves (.send a b r) false dest ∧ leaves (.sendc a b r) true dest)
      ∧ (r = 1 → full → waits (.send a b r) ∧ waits (.sendc a b r)))
    ∧ (ea.toNat % 16 ≠ 0 → Traps (.send a b r) s 0x02 ea s.pc ∧ Traps (.sendc a b r) s 0x02 ea s.pc)
    ∧ (∀ x, s.place ea = .va x → ea.toNat % 16 = 0 → (Ready (.send a b r) s → Faults (.send a b r) s 0x09 ea s.pc)
        ∧ (Ready (.sendc a b r) s → Faults (.sendc a b r) s 0x09 ea s.pc))

/-- R217, R218: CHCFG refuses a channel at or past NCHAN with BADTERM and with ILLEGAL a word that is malformed (reserved bits, a zero arm level,
a ring out of place or over another ring), a KEEP that changes the kind or finds messages in the ring, and a change of kind of a channel in
use; otherwise it configures the channel and returns its number. CHCNT returns the snapshot, 0 at or past NCHAN. -/
def Sys2Proof.Claims.ChannelsConfigure : Prop :=
  ∀ (s : State) (d a b : BitVec 5), let c := (s.reg a).toNat; let w := s.reg b; let k := s.here; let keep := w.getLsbD 62
    let x := k.chan c; let count := w.getLsbD 63; let rent := (w.extractLsb' 32 12).toNat; let ring := (w.extractLsb' 0 20).toNat
    let names (u : BitVec 256) (lo : Nat) : Prop := (u.extractLsb' lo 6).toNat = c
    let used : Prop := (∃ p t, p ∈ k.pats.toList ∧ p.getLsbD 48 = true ∧ t < 4 ∧ t < (p.extractLsb' 40 8).toNat ∧ (p.extractLsb' (64 + 48 * t) 8).toNat = c)
      ∨ (∃ m, m ∈ k.eng.cmds ∧ ((m.word.getLsbD 9 = true ∧ (names m.word 16 ∨ names m.word 22)) ∨ (m.word.getLsbD 10 = true ∧ names m.word 32)))
      ∨ (k.ctl.faultch.getLsbD 6 = false ∧ (k.ctl.faultch.extractLsb' 0 6).toNat = c)
      ∨ (∃ e, e ∈ k.dir.toList ∧ e.state ≠ .free ∧ e.rch = c) ∨ (∃ o, o ∈ k.offered ∧ o.2.2 = c)
      ∨ (∃ b, b ∈ k.bars.toList ∧ b.member = true ∧ b.ch = c) ∨ (∃ z, z ∈ k.cens.toList ∧ z.state ≠ .free ∧ z.door = c)
    let illegal : Prop := w.extractLsb' 48 14 ≠ 0#14
      ∨ (count = true ∧ w.extractLsb' 0 48 = 0#48)
      ∨ (count = false ∧ (w.extractLsb' 44 4 ≠ 0#4 ∨ w.extractLsb' 20 12 ≠ 0#12))
      ∨ (count = false ∧ 0 < rent ∧ (ring % 16 ≠ 0 ∨ ring < 0x100 ∨ k.page.lsbytes < ring + 16 * rent
          ∨ ∃ j, j < 64 ∧ j ≠ c ∧ k.isMsg j = true ∧ 0 < (k.chan j).rent ∧ ring < (k.chan j).roff + 16 * (k.chan j).rent ∧ (k.chan j).roff < ring + 16 * rent))
      ∨ (keep = true ∧ (count ≠ x.count ∨ (count = false ∧ 0 < x.spill)))
      ∨ (count ≠ x.count ∧ used)
    (k.page.nchan ≤ c → GivesG (.chcfg d a b) s d (failure 6) ∧ GivesG (.chcnt d a) s d 0)
    ∧ (c < k.page.nchan → illegal → GivesG (.chcfg d a b) s d (failure 2))
    ∧ (c < k.page.nchan → k.page.nchan ≤ 64 → ¬ illegal → GivesWith (.chcfg d a b) s d (s.reg a) (fun k k' =>
        let x := k.chan c; let y := k'.chan c
        y.decl = x.decl ∧ y.count = w.getLsbD 63
        ∧ (y.count = true → y.arm = (w.extractLsb' 0 48).toNat ∧ y.cnt = (if keep then x.cnt else 0) ∧ y.msgs = [] ∧ y.spill = 0 ∧ y.rent = 0)
        ∧ (y.count = false → y.rent = (w.extractLsb' 32 12).toNat ∧ y.roff = (w.extractLsb' 0 20).toNat
            ∧ y.msgs = (if keep then x.msgs else []) ∧ y.spill = (if keep then x.spill else 0) ∧ y.arm = 0 ∧ y.cnt = (if keep then x.cnt else 0))
        ∧ (∀ j, j < 64 → j ≠ c → k'.chan j = k.chan j) ∧ { k' with slots := k.slots, chans := k.chans } = k))
    ∧ (c < k.page.nchan → GivesG (.chcnt d a) s d (let x := k.chan c
        (if x.count then 0x8000000000000000#64 else 0) ||| (if x.decl then 0x4000000000000000#64 else 0)
          ||| BitVec.ofNat 64 ((if x.count then x.cnt else x.msgs.length + x.spill) % 2 ^ 48)))

/-- R39, R220, R221: PATSET reads the 32 bytes of a descriptor of its own local store and gives the first failure that holds: ILLEGAL for a
number of terms outside 1 to 4, FLAGS[7:2], a zero byte, a threshold of 0, bytes past the terms, or two terms of one channel; BADADDR for a
handler that is misaligned or outside the store; BADTERM for a channel past NCHAN or a MSG term whose threshold is not 1; NOSLOT for an index past
NPAT. Otherwise it sets pattern INDEX, [63:56], and returns its number; a descriptor elsewhere is BADADDR; PATCLR clears a pattern below
NPAT. -/
def Sys2Proof.Claims.PatternsSet : Prop :=
  ∀ (s : State) (d a : BitVec 5), User s → let off := (s.reg a).toNat; let k := s.here
    let p : BitVec 256 := dwordOf8 s (off + 24) ++ dwordOf8 s (off + 16) ++ dwordOf8 s (off + 8) ++ dwordOf8 s off
    let i := (p.extractLsb' 56 8).toNat; let j := (s.reg a).toNat
    let n := (p.extractLsb' 40 8).toNat; let h := (p.extractLsb' 0 32).toNat
    let ch (t : Nat) := (p.extractLsb' (64 + 48 * t) 8).toNat; let thresh (t : Nat) := (p.extractLsb' (80 + 48 * t) 32).toNat
    let illegal : Prop := n = 0 ∨ 4 < n ∨ p.extractLsb' 50 6 ≠ 0#6
      ∨ (∃ t, t < 4 ∧ t < n ∧ (p.extractLsb' (72 + 48 * t) 8 ≠ 0#8 ∨ thresh t = 0)) ∨ (∃ t, t < 4 ∧ n ≤ t ∧ p.extractLsb' (64 + 48 * t) 48 ≠ 0#48)
      ∨ (∃ t u, t < u ∧ u < 4 ∧ u < n ∧ ch t = ch u)
    let badAddr : Prop := h % 4 ≠ 0 ∨ h < 0x100 ∨ k.page.lsbytes ≤ h
    let badTerm : Prop := ∃ t, t < 4 ∧ t < n ∧ (k.page.nchan ≤ ch t ∨ (k.isMsg (ch t) = true ∧ thresh t ≠ 1))
    let sets (n : Nat) (q : BitVec 256) (k k' : Core) : Prop :=
      k'.pat n = q ∧ (∀ m, m < 32 → m ≠ n → k'.pat m = k.pat m) ∧ { k' with slots := k.slots, pats := k.pats } = k
    k.page.lsbytes ≤ 0x60000 → k.page.npat ≤ 32 →
    ((off % 32 ≠ 0 ∨ off < 0x100 ∨ k.page.lsbytes < off + 32) → GivesG (.patset d a) s d (failure 4))
    ∧ (off % 32 = 0 → 0x100 ≤ off → off + 32 ≤ k.page.lsbytes → Readable k off 32 →
        (illegal → GivesG (.patset d a) s d (failure 2))
        ∧ (¬ illegal → badAddr → GivesG (.patset d a) s d (failure 4))
        ∧ (¬ illegal → ¬ badAddr → badTerm → GivesG (.patset d a) s d (failure 6))
        ∧ (¬ illegal → ¬ badAddr → ¬ badTerm → k.page.npat ≤ i → GivesG (.patset d a) s d (failure 7))
        ∧ (¬ illegal → ¬ badAddr → ¬ badTerm → i < k.page.npat → GivesWith (.patset d a) s d (BitVec.ofNat 64 i) (sets i p)))
    ∧ (k.page.npat ≤ j → GoesTo (.patclr a) s (s.pc + 4))
    ∧ (j < k.page.npat → GivesWith (.patclr a) s 0 0 (sets j 0))

/-- R49, R200 to R203: with no buffer OPEN and nothing outstanding FLUSH, FLUSHD and the fences only pass on, a fence that has waited too;
FLUSHD of an address that fails its decode, an offset in a reserved range of the window included, ends the gang with ADDR; AGGST returns the
fields of R202 and AGGCFG sets AGEMAX and AGGFILL, a fill of 0 being 1 and one above 16 being 16. -/
def Sys2Proof.Claims.FencesPass : Prop :=
  ∀ (s : State) (d a b : BitVec 5),
    ((∀ i, i < 16 → s.here.ni.bufs.toList[i]? = some none) →
      GoesTo .flush s (s.pc + 4) ∧ (s.place (s.reg a) ≠ .bad → (∀ x, s.place (s.reg a) = .own x → ¬ ReservedAt x) → GoesTo (.flushd a) s (s.pc + 4)))
    ∧ (s.place (s.reg a) = .bad ∨ (∃ x, s.place (s.reg a) = .own x ∧ ReservedAt x) → Ready (.flushd a) s → Faults (.flushd a) s 0x09 (s.reg a) s.pc)
    ∧ (Settled s → GoesTo .fenceRel s (s.pc + 4) ∧ GoesTo .fenceAll s (s.pc + 4)
      ∧ (s.me.acquire = false → GoesTo .fenceAcq s (s.pc + 4)))
    ∧ (∀ i, i ∈ [Instr.fenceRel, .fenceAll] → s.me.fencing = true → NothingOut s → Ready i s →
        ∃ t, exec i s = .next t ∧ t.me = { s.me with fencing := false, pc := s.pc + 4 } ∧ SameBeyondSlot s t ∧ SameMemory s t)
    ∧ (∃ v, AggstFields s.here v ∧ GivesG (.aggst d) s d v)
    ∧ GivesWith (.aggcfg a b) s 0 0 (fun k k' =>
        let f := ((s.reg b).extractLsb' 0 5).toNat
        k'.ctl.agemax = ((s.reg a).extractLsb' 0 16).toNat ∧ k'.ctl.aggfill = (if f = 0 then 1 else if 16 < f then 16 else f)
          ∧ { k' with slots := k.slots, ctl := { k'.ctl with agemax := k.ctl.agemax, aggfill := k.ctl.aggfill } } = k)

/-- R190, R200: FLUSH sends every OPEN buffer where the retention store has room: no buffer is OPEN any more and the elements of each are
retained for its destination as one packet. -/
def Sys2Proof.Claims.FlushEmptiesBuffers : Prop :=
  ∀ (s : State), s.here.ni.hold = false → s.here.ni.retained.length + (s.here.ni.bufs.toList.filter Option.isSome).length ≤ 32 →
    Ready .flush s → ∃ t, exec .flush s = .next t
      ∧ (∀ i, i < 16 → t.here.ni.bufs.toList[i]? = some none)
      ∧ (∀ b, some b ∈ s.here.ni.bufs.toList → ∃ r, r ∈ t.here.ni.retained ∧ r.dest = b.dest ∧ r.items.map Item.el = b.elems)
      ∧ (∀ r, r ∈ s.here.ni.retained → r ∈ t.here.ni.retained)
      ∧ t.pc = s.pc + 4 ∧ { t.me with pc := s.me.pc } = s.me ∧ SameMemory s t

/-- R210: a pending AGGF is taken by a fence, an instruction with an implied release, and a plain END, before anything else: CAUSE 0x10
and the payload in TVAL, in a user slot that has a trap entry and is in no trap.

Model's choice where the spec leaves it open: log 102. -/
def Obligations.PendingAggfTraps : Prop :=
  ∀ (s : State) (a b d e : BitVec 5) (i : Instr) (p : Dword), User s → s.here.ctl.trapvec &&& 0xFFFFC#64 ≠ 0 → s.me.intrap = false →
    s.me.aggf = some p → Ready i s →
    (i ∈ [Instr.fenceRel, .fenceAcq, .fenceAll, .endAct, .endExit, .send a b 1, .sendc a b 1, .respond a b, .arrive a, .arrived a, .launch d a]
      ∨ (i = .enq d e ∧ e.toNat ≤ 2 ∧ (s.me.st[0]).getLsbD 8 = true)) →
    ∃ t, exec i s = .next t
      ∧ t.me = { s.me with aggf := none, cause := 0x10#8, tval := p, epc := s.pc, intrap := true, fencing := false,
                            pc := s.here.ctl.trapvec &&& 0xFFFFC#64 }
      ∧ (∀ j, j ≠ s.issuer.2 → t.here.slot j = s.here.slot j) ∧ { t.here with slots := s.here.slots } = s.here
      ∧ (∀ c, c ≠ s.issuer.1 → t.core c = s.core c) ∧ t.net = s.net ∧ SameMemory s t

namespace Sys2Proof.Claims

/-- `i` completes inside its slot, which becomes `x`; nothing else changes. -/
def Becomes (i : Instr) (s : State) (x : Slot) : Prop :=
  Ready i s → ∃ t, exec i s = .next t ∧ t.me = x ∧ SameBeyondSlot s t ∧ SameMemory s t

/-- The arm levels of a command word are reached (R104). -/
def ArmMet (k : Core) (w : BitVec 256) : Prop :=
  ∀ c, c = (w.extractLsb' 16 6).toNat ∨ c = (w.extractLsb' 22 6).toNat → k.isCount c = true ∧ (k.chan c).arm ≤ (k.chan c).cnt

/-- Two accumulator regions share bytes: their rows meet, and so do the bytes of their columns (R171). -/
def ShareBytes (a b : AccRegion) : Prop :=
  (a.row < b.row + b.m ∧ b.row < a.row + a.m)
    ∧ accWidth a.acc * a.col < accWidth b.acc * (b.col + b.n) ∧ accWidth b.acc * b.col < accWidth a.acc * (a.col + a.n)

/-- A hazard holds back command `m`: an earlier command's lock that its destination meets, or an earlier command's DEST lock that its source
meets (R103); of an MXE command an earlier one not over that writes what it reads or writes, or reads what it writes (R171). -/
def Hazard (k : Core) (dev : Nat) (m : Command) : Prop :=
  (∃ o l x, o ∈ k.operands dev m.word ∧ some l ∈ k.locks.toList ∧ x ∈ k.eng.cmds ∧ x.ticket = l.ticket ∧ x.engine = l.engine ∧ x.order < m.order
      ∧ o.lo < l.limit ∧ l.base < o.hi ∧ (o.dest = true ∨ l.dest = true))
    ∨ (m.engine = 0 ∧ ∃ x, x ∈ k.eng.cmds ∧ x.engine = 0 ∧ x.order < m.order ∧ x.done = none
      ∧ ((∃ p q, p ∈ accWrites x.word ∧ q ∈ accReads m.word ++ accWrites m.word ∧ ShareBytes p q) ∨ ∃ p q, p ∈ accReads x.word ∧ q ∈ accWrites m.word ∧ ShareBytes p q))

/-- STATE of TKST: RUNNING; WAITING for arm levels not reached or a hazard; else QUEUED (R100). -/
def TicketState (k : Core) (dev : Nat) (m : Command) (n : Nat) : Prop :=
  let waits : Prop := (m.word.getLsbD 9 = true ∧ m.armed = none ∧ ¬ ArmMet k m.word) ∨ Hazard k dev m
  (m.running = true → n = 3) ∧ (m.running = false → waits → n = 1) ∧ (m.running = false → ¬ waits → n = 2)

/-- A control register write inside the core: the controls become `c`, and the pc passes on. -/
def SetsControl (i : Instr) (s : State) (c : Control) : Prop :=
  GivesWith i s 0 0 (fun k k' => k'.ctl = c ∧ { k' with slots := k.slots, ctl := k.ctl } = k)

end Sys2Proof.Claims

/-! Commands, control registers, traps and ends (R25, R98 to R101, R228, R276 to R284) -/

/-- R36, R39, R98 to R100, R103, R110: STG sets one staging register, LDSTG all four. ENQ captures st3 to st0 and gives the first failure:
ILLEGAL for a code that is not of the engine, a reserved field, a QUEUE out of range, or what the command's own chapter has so; BADADDR for its
operands; BADTERM for an arm channel that is no COUNT channel or a DONECH that is no MSG channel; LOCKFULL for want of lock entries; FULL for want
of room. Otherwise, as one change, it takes a lock entry per operand of a locked command, appends the command and returns its ticket. TKST reports
PROGRESS, ENGINE, ARMED and STATE, WAITING while arm levels or a hazard of R103 or R171 hold the command back. -/
def Sys2Proof.Claims.CommandsQueue : Prop :=
  ∀ (s : State) (d e a : BitVec 5) (n : BitVec 2), let off := (s.reg a).toNat; let k := s.here
    let w : BitVec 256 := s.me.st[3] ++ s.me.st[2] ++ s.me.st[1] ++ s.me.st[0]
    let t := ((s.reg a).extractLsb' 0 16).toNat
    Becomes (.stg n a) s { s.me with st := s.me.st.set n.toNat (s.reg a) n.isLt, pc := s.pc + 4 }
    ∧ (User s → off % 32 = 0 → off < 0x60000 → Readable k off 32 → Becomes (.ldstg a) s
        { s.me with st := #v[dwordOf8 s off, dwordOf8 s (off + 8), dwordOf8 s (off + 16), dwordOf8 s (off + 24)], pc := s.pc + 4 })
    ∧ (e.toNat ≤ 2 → (w.getLsbD 8 = true → Settled s) →
        let code := (w.extractLsb' 0 8).toNat; let queue := (w.extractLsb' 28 4).toNat; let own := checkCommand k s.fab.device w
        let ofEngine : Prop := (e = 0 ∧ 1 ≤ code ∧ code ≤ 5) ∨ (e = 1 ∧ 0x10 ≤ code ∧ code ≤ 0x13) ∨ (e = 2 ∧ (code = 0x20 ∨ code = 0x21))
        let illegal : Prop := ¬ ofEngine ∨ w.extractLsb' 12 4 ≠ 0#4 ∨ w.extractLsb' 45 3 ≠ 0#3 ∨ (if e = 0 then 1 < queue else queue ≠ 0) ∨ own.illegal = true
        let channel (lo : Nat) := (w.extractLsb' lo 6).toNat
        let badTerm : Prop := (w.getLsbD 9 = true ∧ (k.isCount (channel 16) = false ∨ k.isCount (channel 22) = false))
          ∨ (w.getLsbD 10 = true ∧ k.isMsg (channel 32) = false)
        let entries := if w.getLsbD 11 then own.ops.countP (fun o => decide (o.lo < o.hi)) else 0
        let lockFull : Prop := k.locks.toList.countP Option.isNone < entries
        let full : Prop := (if e = 1 then 16 else 8) ≤ k.eng.cmds.countP (fun c => decide (c.engine = e.toNat)
          && (decide (e ≠ 0) || decide ((c.word.extractLsb' 28 4).toNat = queue)))
        let first (n : Nat) : Prop := GivesG (.enq d e) s d (failure n)
        (illegal → first 2)
        ∧ (¬ illegal → own.badAddr = true → first 4)
        ∧ (¬ illegal → own.badAddr = false → badTerm → first 6)
        ∧ (¬ illegal → own.badAddr = false → ¬ badTerm → lockFull → first 3)
        ∧ (¬ illegal → own.badAddr = false → ¬ badTerm → ¬ lockFull → full → first 1)
        ∧ (¬ illegal → own.badAddr = false → ¬ badTerm → ¬ lockFull → ¬ full → GivesWith (.enq d e) s d (BitVec.ofNat 64 k.eng.ticket) (fun k k' =>
            (∃ c : Command, k'.eng.cmds = k.eng.cmds ++ [c] ∧ c.engine = e.toNat ∧ c.ticket = k.eng.ticket ∧ c.word = w
              ∧ c.slot = s.issuer.2.val ∧ c.pc = s.pc ∧ c.seed = k.ctl.srseed ∧ c.running = false ∧ c.armed = none)
            ∧ (∀ l, some l ∈ k.locks.toList → some l ∈ k'.locks.toList)
            ∧ (w.getLsbD 11 = true → ∀ o, o ∈ k.operands s.fab.device w → o.lo < o.hi →
                some ⟨o.dest, e.toNat, k.eng.ticket, o.lo, o.hi⟩ ∈ k'.locks.toList)
            ∧ { k' with slots := k.slots, eng := k.eng, locks := k.locks } = k)))
    ∧ (2 < e.toNat → Ready (.enq d e) s → ∃ x, Faults (.enq d e) s 0x01 x s.pc)
    ∧ (k.command t = none → GivesG (.tkst d a) s d 0)
    ∧ (∀ c, k.command t = some c → ∃ n, TicketState k s.fab.device c n ∧ GivesG (.tkst d a) s d (BitVec.ofNat 64
        ((if c.running then (c.writes.map WriteOut.mark ++ c.own.map OwnWrite.mark).foldl min c.progress % 2 ^ 32 else 0) * 2 ^ 32
          + c.engine * 2 ^ 24 + (if c.armed.isSome then 4 else 0) + n)))

/-- R101: ECANCEL of a command that has not started removes it, frees its lock entries and gives the amounts an arm test took back to their
channels, and of a DMOVE it returns the directory entry SRCENT to ACTIVE; of a running or unknown one it changes nothing; it returns ARMED and
STATE. The fields of that entry but its state are kept, PEER and PENT too: the model's choice (log 88). -/
def Sys2Proof.Claims.CancelReturnsArms : Prop :=
  ∀ (s : State) (d a : BitVec 5), let k := s.here; let t := ((s.reg a).extractLsb' 0 16).toNat
    (k.command t = none → GivesG (.ecancel d a) s d 0)
    ∧ (∀ c, k.command t = some c → c.running = true → GivesG (.ecancel d a) s d (if c.armed.isSome then 7 else 3))
    ∧ (∀ c l, k.command t = some c → c.running = false → c.armed.getD [] = l → (l.map Prod.fst).Nodup →
        (∀ p, p ∈ l → p.1 < 64 ∧ (k.chan p.1).cnt + p.2 < 2 ^ 48) →
        ∃ n, TicketState k s.fab.device c n ∧ GivesWith (.ecancel d a) s d (BitVec.ofNat 64 ((if c.armed.isSome then 4 else 0) + n)) (fun k k' =>
          k'.eng.cmds = k.eng.cmds.filter (fun x => decide (x.ticket ≠ t))
          ∧ (∀ x, some x ∈ k'.locks.toList ↔ some x ∈ k.locks.toList ∧ ¬ (x.engine = c.engine ∧ x.ticket = c.ticket))
          ∧ (∀ p, p ∈ l → k'.chan p.1 = { k.chan p.1 with cnt := (k.chan p.1).cnt + p.2 })
          ∧ (∀ j, j < 64 → j ∉ l.map Prod.fst → k'.chan j = k.chan j)
          ∧ (∀ j : Fin 64, k'.dir[j] = if c.word.extractLsb' 0 8 = 0x14#8 ∧ j.val = (c.word.extractLsb' 212 6).toNat
              then { k.dir[j] with state := .active } else k.dir[j])
          ∧ { k' with slots := k.slots, eng := { k'.eng with cmds := k.eng.cmds }, locks := k.locks, chans := k.chans, dir := k.dir } = k))

/-- R25, R140, R202, R287: MFC of each control register, AGGST with its fields; a privileged number is PRIV in a user slot, an absent one ILLEGAL. -/
def Sys2Proof.Claims.ControlRegistersRead : Prop :=
  ∀ (s : State) (d : BitVec 5) (n : BitVec 12), let k := s.here; let x := s.me
    let table : List (BitVec 12 × Dword) :=
      [(0x000, BitVec.ofNat 64 s.issuer.1), (0x001, BitVec.ofNat 64 s.issuer.2.val), (0x002, k.page.tenant.zeroExtend 64),
       (0x003, k.page.gangId.zeroExtend 64), (0x004, BitVec.ofNat 64 k.page.rank), (0x005, BitVec.ofNat 64 k.cycle), (0x010, k.ctl.trapvec),
       (0x011, x.cause.zeroExtend 64), (0x012, x.epc), (0x013, x.tval), (0x014, k.ctl.faultch.zeroExtend 64), (0x015, k.ctl.faultring),
       (0x020, x.cdc.zeroExtend 64), (0x021, BitVec.ofNat 64 k.ctl.agemax), (0x022, BitVec.ofNat 64 k.ctl.aggfill), (0x030, k.ctl.srseed),
       (0x031, x.rmode.zeroExtend 64), (0x032, k.ctl.cbtab), (0x040, BitVec.ofNat 64 k.ni.reqs.length)]
    (∀ p, p ∈ table → GivesG (.mfc d p.1) s d p.2)
    ∧ (∃ v, AggstFields k v ∧ GivesG (.mfc d 0x041#12) s d v)
    ∧ (User s → 0x100 ≤ n.toNat → Ready (.mfc d n) s → Faults (.mfc d n) s 0x0E (n.zeroExtend 64) s.pc)
    ∧ (¬ User s → GivesG (.mfc d 0x100#12) s d (BitVec.ofNat 64 k.ctl.repairs) ∧ GivesG (.mfc d 0x101#12) s d (BitVec.ofNat 64 k.parkedCount)
        ∧ GivesG (.mfc d 0x102#12) s d (BitVec.ofNat 64 k.ctl.pre.code) ∧ GivesG (.mfc d 0x103#12) s d k.ctl.saveva
        ∧ (k.ctl.pre ≠ .none → GivesG (.mfc d 0x104#12) s d 0x11)
        ∧ (k.ctl.pre = .none → k.ctl.repairs ≠ 0 → GivesG (.mfc d 0x104#12) s d 0x07)
        ∧ (k.ctl.pre = .none → k.ctl.repairs = 0 → GivesG (.mfc d 0x104#12) s d 0)
        ∧ (0x105 ≤ n.toNat → GivesG (.mfc d n) s d 0))
    ∧ (n.toNat < 0x100 → n ≠ 0x041#12 → n ∉ table.map Prod.fst → Ready (.mfc d n) s → ∃ w, Faults (.mfc d n) s 0x01 w s.pc)

/-- R3, R25, R140, R287: MTC writes the fields of a writable register and drops the other bits; a read-only one keeps its value; a privileged
number is PRIV in a user slot, an absent one ILLEGAL. -/
def Sys2Proof.Claims.ControlRegistersWrite : Prop :=
  ∀ (s : State) (a : BitVec 5) (n : BitVec 12), let A := s.reg a; let c := s.here.ctl; let x := s.me; let next := s.pc + 4
    let fill := (A.extractLsb' 0 5).toNat
    SetsControl (.mtc a 0x010#12) s { c with trapvec := A &&& 0xFFFFC#64 }
    ∧ Becomes (.mtc a 0x011#12) s { x with cause := A.extractLsb' 0 8, pc := next }
    ∧ Becomes (.mtc a 0x012#12) s { x with epc := A, pc := next }
    ∧ Becomes (.mtc a 0x013#12) s { x with tval := A, pc := next }
    ∧ SetsControl (.mtc a 0x014#12) s { c with faultch := A.extractLsb' 0 7 }
    ∧ SetsControl (.mtc a 0x015#12) s { c with faultring := A &&& 0xFFF00#64 }
    ∧ Becomes (.mtc a 0x020#12) s { x with cdc := A.extractLsb' 0 7, pc := next }
    ∧ SetsControl (.mtc a 0x021#12) s { c with agemax := (A.extractLsb' 0 16).toNat }
    ∧ SetsControl (.mtc a 0x022#12) s { c with aggfill := if fill = 0 then 1 else if 16 < fill then 16 else fill }
    ∧ SetsControl (.mtc a 0x030#12) s { c with srseed := A }
    ∧ Becomes (.mtc a 0x031#12) s { x with rmode := if 4 < (A.extractLsb' 0 3).toNat then 0 else A.extractLsb' 0 3, pc := next }
    ∧ SetsControl (.mtc a 0x032#12) s { c with cbtab := A &&& 0xFFC00#64 }
    ∧ (∀ r, r ∈ [0x000#12, 0x001#12, 0x002#12, 0x003#12, 0x004#12, 0x005#12, 0x040#12, 0x041#12] → GoesTo (.mtc a r) s next)
    ∧ (User s → 0x100 ≤ n.toNat → Ready (.mtc a n) s → Faults (.mtc a n) s 0x0E (n.zeroExtend 64) s.pc)
    ∧ (¬ User s → SetsControl (.mtc a 0x103#12) s { c with saveva := A }
        ∧ (∀ r : BitVec 12, r ∈ [0x100#12, 0x101#12, 0x102#12, 0x104#12] ∨ 0x105 ≤ r.toNat → GoesTo (.mtc a r) s next))
    ∧ (n.toNat < 0x100 → n ∉ [0x000#12, 0x001#12, 0x002#12, 0x003#12, 0x004#12, 0x005#12, 0x010#12, 0x011#12, 0x012#12, 0x013#12, 0x014#12,
          0x015#12, 0x020#12, 0x021#12, 0x022#12, 0x030#12, 0x031#12, 0x032#12, 0x040#12, 0x041#12] →
        Ready (.mtc a n) s → ∃ w, Faults (.mtc a n) s 0x01 w s.pc)

namespace Sys2Proof.Claims

/-- `i` completes: the core becomes `k` but for its issuing slot, of which the pc alone passes on; nothing else changes. -/
def SetsCore (i : Instr) (s : State) (k : Core) : Prop :=
  Ready i s → ∃ t, exec i s = .next t ∧ t.pc = s.pc + 4 ∧ { t.me with pc := s.me.pc } = s.me
    ∧ (∀ j, j ≠ s.issuer.2 → t.here.slot j = k.slot j) ∧ { t.here with slots := k.slots } = k ∧ SameBeyondCore s t

/-- Dword q of a wide value replaced by `v`. -/
def WithDword {w : Nat} (x y : BitVec w) (q : Nat) (v : Dword) : Prop :=
  y.extractLsb' (64 * q) 64 = v ∧ ∀ b, b < w → b / 64 ≠ q → y.getLsbD b = x.getLsbD b

end Sys2Proof.Claims

/-- R122 to R124: a user slot reads each window register with LDD and writes windows 2 to 7 with STD, reserved bits zero and SRC 2 stored as 3;
windows 0 and 1 and the rest of the control window and the register windows are PRIV, another width on a window register ADDR. R288, R289: the
supervisor slot reads and writes the register windows and the control window with LDD and STD, another width being ADDR; a register window
takes a write only where its slot is STOPPED or FREE; read-only fields and reserved offsets ignore it. -/
def Sys2Proof.Claims.WindowsReadAndWrite : Prop :=
  ∀ (s : State) (d a : BitVec 5) (im : BitVec 16), let ea := s.reg a + im.signExtend 64; let o := ea.toNat; let k := s.here; let D := s.reg d
    let read := Instr.ldd d a im; let write := Instr.std d a im
    let others := [Instr.ldb d a im, .ldbu d a im, .ldh d a im, .ldhu d a im, .ldw d a im, .ldwu d a im, .stb d a im, .sth d a im, .stw d a im]
    let priv : Prop := (0xD0000 ≤ o ∧ o < 0xDC000) ∨ (0xE0000 ≤ o ∧ o < 0xF0000)
    o % 8 = 0 →
    (User s →
      (∀ w : Fin 8, o = 0xE0000 + 8 * w.val →
        GivesG read s d k.windows[w]
        ∧ (w.val < 2 → Ready write s → Faults write s 0x0E ea s.pc)
        ∧ (2 ≤ w.val → let v := D &&& 0x800FE0FFFFFFFFFF#64
            SetsCore write s { k with windows := k.windows.set w (if D.extractLsb' 50 2 = 2#2 then v ||| 0x0004000000000000#64 else v) })
        ∧ ∀ i ∈ others, Ready i s → Faults i s 0x09 ea s.pc)
      ∧ (priv → 0xE0040 ≤ o ∨ o < 0xDC000 → ∀ i ∈ read :: write :: others, Ready i s → Faults i s 0x0E ea s.pc))
    ∧ (¬ User s → priv →
      (∀ i ∈ others, Ready i s → Faults i s 0x09 ea s.pc)
      ∧ (∀ j : Fin 4, let q : Fin 5 := ⟨j.val, by omega⟩; let x := k.slot q; let at_ (n : Nat) : Prop := o = 0xD0000 + 0x3000 * j.val + n
          let open_ := x.state = .stopped ∨ x.state = .free
          let sets (P : Slot → Prop) : Prop := open_ → Ready write s → ∃ y, P y ∧ SetsCore write s (k.setSlot q y)
          (∀ r : BitVec 5, at_ (8 * r.toNat) → GivesG read s d (x.reg r) ∧ sets (fun y => { y with g := x.g } = x
            ∧ ∀ n, y.reg n = if n = r ∧ r ≠ 0 then D else x.reg n))
          ∧ (∀ (r : BitVec 5) (n : Nat), n < 32 → at_ (0x100 + 256 * r.toNat + 8 * n) →
              GivesG read s d ((x.vreg r).extractLsb' (64 * n) 64)
              ∧ sets (fun y => { y with v := x.v } = x ∧ (∀ m, m ≠ r → y.vreg m = x.vreg m) ∧ WithDword (x.vreg r) (y.vreg r) n D))
          ∧ (∀ r : BitVec 3, at_ (0x2100 + 8 * r.toNat) → GivesG read s d (x.mask r) ∧ sets (fun y => { y with m := x.m } = x
              ∧ ∀ n, y.mask n = if n = r ∧ r ≠ 0 then D else x.mask n))
          ∧ (∀ n : Fin 4, at_ (0x2140 + 8 * n.val) → GivesG read s d x.st[n] ∧ sets (fun y => y = { x with st := x.st.set n D }))
          ∧ (at_ 0x2160 → (∃ v : Dword, GivesG read s d v
                ∧ v.extractLsb' 56 8 = BitVec.ofNat 8 x.prio
                ∧ v.extractLsb' 53 3 = (match x.state with | .free => 0#3 | .active => 1#3 | .parked => 2#3 | .stopped => 3#3 | .debug => 4#3)
                ∧ v.getLsbD 52 = x.intrap ∧ v.getLsbD 51 = decide (x.pendTraps ≠ []) ∧ v.extractLsb' 48 3 = 0#3
                ∧ v.extractLsb' 40 8 = BitVec.ofNat 8 ((x.pendTraps.head?.map Prod.fst).getD 0)
                ∧ v.extractLsb' 20 20 = 0#20 ∧ v.extractLsb' 0 20 = x.pc.extractLsb' 0 20)
              ∧ sets (fun y => y = { x with prio := (D.extractLsb' 56 8).toNat, intrap := D.getLsbD 52, pc := D &&& 0xFFFFF#64 }))
          ∧ (at_ 0x2168 → (∃ v : Dword, GivesG read s d v ∧ ∀ r : BitVec 5, v.getLsbD r.toNat = k.pending q (.g r) ∧ v.getLsbD (32 + r.toNat) = k.pending q (.v r)))
          ∧ (at_ 0x2170 → GivesG read s d (x.cause.zeroExtend 64) ∧ sets (fun y => y = { x with cause := D.extractLsb' 0 8 }))
          ∧ (at_ 0x2178 → GivesG read s d x.epc ∧ sets (fun y => y = { x with epc := D }))
          ∧ (at_ 0x2180 → GivesG read s d x.tval ∧ sets (fun y => y = { x with tval := D }))
          ∧ (at_ 0x2188 → GivesG read s d (x.cdc.zeroExtend 64) ∧ sets (fun y => y = { x with cdc := D.extractLsb' 0 7 }))
          ∧ (at_ 0x2190 → GivesG read s d (x.rmode.zeroExtend 64)
              ∧ sets (fun y => y = { x with rmode := if 4 < (D.extractLsb' 0 3).toNat then 0 else D.extractLsb' 0 3 }))
          ∧ (at_ 0x2198 → GivesG read s d ((x.pendTraps.head?.map Prod.snd).getD 0))
          ∧ (∀ n, 0x21A0 ≤ n → n < 0x3000 → at_ n → GivesG read s d 0)
          ∧ (∀ n, n < 0x3000 → at_ n → (¬ open_ ∨ n = 0x2168 ∨ 0x2198 ≤ n) → GoesTo write s (s.pc + 4)))
      ∧ (∀ w : Fin 8, o = 0xE0000 + 8 * w.val → GivesG read s d k.windows[w]
          ∧ SetsCore write s { k with windows := k.windows.set w (D &&& 0x800FE0FFFFFFFFFF#64) })
      ∧ (∀ (p : Fin 32) (n : Nat), n < 4 → o = 0xE0400 + 32 * p.val + 8 * n → GivesG read s d (k.pats[p].extractLsb' (64 * n) 64)
          ∧ (Ready write s → ∃ y : BitVec 256, SetsCore write s { k with pats := k.pats.set p y }
              ∧ (∀ b, b < 256 → b / 8 ∈ [9, 15, 21, 27] → y.getLsbD b = false)
              ∧ ∀ b, b < 256 → b / 8 ∉ [9, 15, 21, 27] → y.getLsbD b = if b / 64 = n then D.getLsbD (b % 64) else k.pats[p].getLsbD b))
      ∧ (∀ c, c < 64 → let x := k.chan c
          (o = 0xE0800 + 16 * c → (∃ v : Dword, GivesG read s d v ∧ v.getLsbD 63 = x.decl ∧ v.getLsbD 62 = x.count ∧ v.extractLsb' 60 2 = 0#2
                ∧ v.extractLsb' 48 12 = BitVec.ofNat 12 x.spill ∧ v.extractLsb' 0 48 = BitVec.ofNat 48 x.cnt)
              ∧ SetsCore write s (k.setChan c { x with decl := D.getLsbD 63, count := D.getLsbD 62, cnt := (D.extractLsb' 0 48).toNat,
                                                       spill := (D.extractLsb' 48 12).toNat }))
          ∧ (o = 0xE0808 + 16 * c → (∃ v : Dword, GivesG read s d v
                ∧ (x.count = true → v.extractLsb' 48 16 = 0#16 ∧ v.extractLsb' 0 48 = BitVec.ofNat 48 x.arm)
                ∧ (x.count = false → v.extractLsb' 52 12 = BitVec.ofNat 12 x.rent ∧ v.extractLsb' 40 12 = BitVec.ofNat 12 x.rhead
                    ∧ v.extractLsb' 20 20 = 0#20 ∧ v.extractLsb' 0 20 = BitVec.ofNat 20 x.roff))
              ∧ SetsCore write s (k.setChan c { x with arm := (D.extractLsb' 0 48).toNat, rent := (D.extractLsb' 52 12).toNat,
                                                       rhead := (D.extractLsb' 40 12).toNat, roff := (D.extractLsb' 0 20).toNat })))
      ∧ (∀ n : Fin 64, let x := k.dir[n]; let reads (j : Nat) (P : Dword → Prop) : Prop := o = 0xE1000 + 32 * n.val + 8 * j → ∃ v, GivesG read s d v ∧ P v
          reads 0 (fun v => v.extractLsb' 62 2 = (match x.state with | .free => 0#2 | .active => 1#2 | .forward => 2#2 | .pending => 3#2)
              ∧ v.extractLsb' 54 8 = 0#8 ∧ v.extractLsb' 48 6 = BitVec.ofNat 6 x.rch ∧ v.extractLsb' 0 48 = BitVec.ofNat 48 x.key)
          ∧ reads 1 (fun v => v.extractLsb' 48 16 = x.answered ∧ v.extractLsb' 0 48 = BitVec.ofNat 48 x.kmask)
          ∧ reads 2 (fun v => v.extractLsb' 40 24 = 0#24 ∧ v.extractLsb' 20 20 = BitVec.ofNat 20 x.len ∧ v.extractLsb' 0 20 = BitVec.ofNat 20 x.addr)
          ∧ reads 3 (fun v => v.extractLsb' 48 16 = x.owed ∧ v.extractLsb' 32 16 = x.seen ∧ v.extractLsb' 19 13 = BitVec.ofNat 13 x.peer
              ∧ v.extractLsb' 13 6 = BitVec.ofNat 6 x.pent ∧ v.extractLsb' 0 13 = 0#13))
      ∧ (∀ n : Fin 16, o = 0xE1800 + 8 * n.val → ∃ v : Dword, GivesG read s d v ∧ (k.locks[n] = none → v = 0)
          ∧ ∀ l, k.locks[n] = some l → v.getLsbD 63 = true ∧ v.getLsbD 62 = l.dest ∧ v.extractLsb' 58 4 = 0#4
              ∧ v.extractLsb' 56 2 = BitVec.ofNat 2 l.engine ∧ v.extractLsb' 40 16 = BitVec.ofNat 16 l.ticket
              ∧ v.extractLsb' 20 20 = BitVec.ofNat 20 l.limit ∧ v.extractLsb' 0 20 = BitVec.ofNat 20 l.base)
      ∧ (o = 0xE1900 → GivesG read s d k.ctl.faultring ∧ SetsControl write s { k.ctl with faultring := D &&& 0xFFF00#64 })
      ∧ ((0xE0040 ≤ o ∧ o < 0xE0400) ∨ (0xE0C00 ≤ o ∧ o < 0xE1000) ∨ (0xE1880 ≤ o ∧ o ≠ 0xE1900) → GivesG read s d 0 ∧ GoesTo write s (s.pc + 4))
      ∧ (0xE1000 ≤ o ∧ o < 0xE1880 → GoesTo write s (s.pc + 4)))

/-- R278, R280 to R282: TRAP and, without DEBUG, BREAK save the offset of the next instruction in EPC and go to the trap entry; a trap
without an entry or inside a trap ends the gang; with the tenant's DEBUG a BREAK stops its slot in DEBUG; RTE clears INTRAP and goes to
EPC[19:0], outside a trap it is ILLEGAL and at a misaligned EPC ALIGN. -/
def Obligations.TrapsAndReturns : Prop :=
  ∀ (s : State) (kc : BitVec 12), User s → let x := s.me; let target := x.epc &&& 0xFFFFF#64
    Traps (.trap kc) s 0x0C (kc.zeroExtend 64) (s.pc + 4)
    ∧ (s.debugging s.issuer.1 = false → Traps .brk s 0x0D 0 (s.pc + 4))
    ∧ ((s.here.ctl.trapvec &&& 0xFFFFC#64 = 0 ∨ x.intrap = true) → Ready (.trap kc) s → Faults (.trap kc) s 0x0C (kc.zeroExtend 64) (s.pc + 4))
    ∧ (s.debugging s.issuer.1 = true → Ready .brk s → ∃ t, exec .brk s = .next t ∧ t.me = { x with state := .debug, epc := s.pc + 4 }
        ∧ (∀ j, j ≠ s.issuer.2 → t.here.slot j = s.here.slot j) ∧ { t.here with slots := s.here.slots } = s.here
        ∧ (∀ c, c ≠ s.issuer.1 → t.core c = s.core c) ∧ { t.hub with host := s.hub.host, log := s.hub.log } = s.hub
        ∧ t.hub.log.getLast? = some ⟨s.issuer.1, s.issuer.2.val, 0x0D, some s.here.tenant⟩ ∧ SameMemory s t)
    ∧ (x.intrap = true → target.extractLsb' 0 2 = 0#2 → Becomes .rte s { x with intrap := false, pc := target })
    ∧ (x.intrap = true → target.extractLsb' 0 2 ≠ 0#2 → Ready .rte s → Faults .rte s 0x02 target s.pc)
    ∧ (x.intrap = false → Ready .rte s → ∃ w, Faults .rte s 0x01 w s.pc)

/-- R141, R228, R284, R270: NOP and IFENCE; END discards every register of its slot and frees it; the first END.EXIT of a rank tells the
scheduler once its accesses are settled; RETRY, PRIV in a user slot, leaves nothing parked and REPAIRS 0; CANCEL tells the scheduler
and stops its slot, and level 0 is ILLEGAL. -/
def Obligations.EndsAndSupervision : Prop :=
  ∀ (s : State) (l : BitVec 2), let k := s.here; let c := s.issuer.1
    let ended : Slot := { Slot.reset with act := s.me.act }
    GoesTo .nop s (s.pc + 4)
    ∧ Becomes .ifence s { s.me with fetched := [], pc := s.pc + 4 }
    ∧ (s.me.aggf = none → Becomes .endAct s ended)
    ∧ (Settled s → (k.exited = true → Becomes .endExit s ended)
      ∧ (k.exited = false → Ready .endExit s → ∃ t p, exec .endExit s = .next t ∧ t.me = ended ∧ t.net = s.net ++ [p]
          ∧ p.dst = .hub ∧ p.src = .core c ∧ p.body = .hub (k.gang.getD 0) (.exit k.page.rank)
          ∧ { t.here with slots := k.slots, exited := false } = k ∧ (∀ j, j ≠ s.issuer.2 → t.here.slot j = k.slot j)
          ∧ t.here.exited = true ∧ SameBeyondCore s { t with net := s.net }))
    ∧ (User s → Ready .retry s → ∃ w, Faults .retry s 0x0E w s.pc)
    ∧ (¬ User s → Ready .retry s → ∃ t, exec .retry s = .next t ∧ t.here.parkedCount = 0 ∧ t.here.ctl.repairs = 0
        ∧ t.pc = s.pc + 4 ∧ { t.me with pc := s.me.pc } = s.me ∧ t.here.ni.reqs.length = k.ni.reqs.length
        ∧ (∀ b, b ≠ c → t.core b = s.core b) ∧ SameMemory s t)
    ∧ (l = 0 → Ready (.cancel l) s → ∃ w, Faults (.cancel l) s 0x01 w s.pc)
    ∧ (l ≠ 0 → User s → Ready (.cancel l) s → ∃ t p, exec (.cancel l) s = .next t ∧ t.me = { s.me with pc := s.pc + 4, state := .stopped }
        ∧ t.net = s.net ++ [p] ∧ p.dst = .hub ∧ p.src = .core c ∧ p.body = .hub (k.gang.getD 0) (.cancel l.toNat)
        ∧ { t.here with slots := k.slots } = k ∧ (∀ j, j ≠ s.issuer.2 → t.here.slot j = k.slot j) ∧ SameBeyondCore s { t with net := s.net })

/-- R259, R262: LAUNCH refuses a record outside its own local store or with a malformed address (BADADDR), at depth 8 (BADDEPTH) and without
a free place (FULL); otherwise the index it returns was free, and a record without a wait counter, its signal counter cached if it has one, then stands in the pool of its tenant
with the words read, the issuing gang, its job and the next depth, unless its graph is cancelling.

Model's choice where the spec leaves it open: log 12. -/
def Obligations.LaunchEntersPool : Prop :=
  ∀ (s : State) (d a : BitVec 5), User s → Settled s → let off := (s.reg a).toNat; let k := s.here
    let r : BitVec 512 := BitVec.ofNat 512 (k.ownLE off 64)
    let asid := k.tenant * 256 + (if recProcSet r then recProcId r else k.asid % 256)
    k.page.lsbytes ≤ 0x60000 →
    (off % 64 ≠ 0 ∨ off < 0x100 ∨ k.page.lsbytes < off + 64 → GivesG (.launch d a) s d (failure 4))
    ∧ (off % 64 = 0 → 0x100 ≤ off → off + 64 ≤ k.page.lsbytes → Readable k off 64 →
        (recordOk r = false → GivesG (.launch d a) s d (failure 4))
        ∧ (recordOk r = true → k.page.depth = 8 → GivesG (.launch d a) s d (failure 5))
        ∧ (∀ t, recordOk r = true → k.page.depth ≠ 8 → s.tenant k.tenant = some t → t.id = k.tenant →
            (t.freeIndexes = [] → GivesG (.launch d a) s d (failure 1))
            ∧ (t.freeIndexes ≠ [] → Ready (.launch d a) s → ∃ u i, exec (.launch d a) s = .next u ∧ i ∈ t.freeIndexes
                ∧ (∀ q, u.reg q = if q = d ∧ d ≠ 0 then BitVec.ofNat 64 i else s.reg q)
                ∧ u.pc = s.pc + 4 ∧ { u.me with g := s.me.g, pc := s.me.pc } = s.me ∧ { u.here with slots := k.slots } = k
                ∧ (∀ c, c ≠ s.issuer.1 → u.core c = s.core c)
                ∧ (recWaitCtr r = 0 → (recSigCtr r = 0 ∨ (s.hub.counter asid (recSigCtr r).toNat).isSome = true) → recNewGraph r = false → (∀ g, g ∈ t.graphs → g.id = k.page.graph.toNat → g.cancelling = false) →
                    (∀ j, j ∈ t.jobs → j.id = k.page.job.toNat → j.cancelling = false) →
                    ∃ v p, u.tenant k.tenant = some v ∧ p ∈ v.pool ∧ p.index = i ∧ p.record = r ∧ p.state = .headerWait
                      ∧ p.issuer = k.gang ∧ p.job = k.page.job.toNat ∧ p.graph = k.page.graph.toNat ∧ p.depth = k.page.depth + 1
                      ∧ SameMemory s u))))

/-! Directories, censuses and gang barriers (R233 to R249, R271 to R275) -/

namespace Sys2Proof.Claims

/-- The 32 bytes of a descriptor at an offset of the issuing core, as one value. -/
def descriptor (s : State) (off : Nat) : BitVec 256 := dwordOf8 s (off + 24) ++ dwordOf8 s (off + 16) ++ dwordOf8 s (off + 8) ++ dwordOf8 s off

/-- A user slot may name the `n` bytes at an offset of its own core as an operand, and read them. -/
def Names (k : Core) (off n : Nat) : Prop := 0x100 ≤ off ∧ off + n ≤ k.page.lsbytes ∧ k.page.lsbytes ≤ 0x60000 ∧ Readable k off n

/-- A message of a tree between a core and the root. -/
def Upward (s : State) (m : TreeMsg) (p : Packet) : Prop :=
  p.src = .core s.issuer.1 ∧ p.dst = .hub ∧ p.vc = .hub ∧ p.tenant = s.here.tenant ∧ p.gang = s.here.gang.getD 0 ∧ p.body = .tree (s.here.gang.getD 0) m

/-- The word of CENST for gang slot j < NCEN of a core, [4] of the operand 0 (R244): OPEN, DONE, CLOSING, OP, LEAF, OWEDN, WITHN and COUNT. -/
def CenstFields (k : Core) (j : Nat) (v : Dword) : Prop :=
  let x := k.cen j; let root : Prop := k.page.rank = 0; let t := (k.cenMap[j]?).getD 0
  (v.getLsbD 63 = true ↔ root ∧ x.state = .opened) ∧ (v.getLsbD 62 = true ↔ root ∧ x.state = .done)
    ∧ (v.getLsbD 61 = true ↔ root ∧ (x.state = .closing ∨ x.closePending = true))
    ∧ v.extractLsb' 58 3 = 0#3 ∧ v.extractLsb' 48 8 = 0#8
    ∧ (root → x.state = .opened ∨ x.state = .done → v.extractLsb' 56 2 = BitVec.ofNat 2 x.op)
    ∧ (¬ (root ∧ (x.state = .opened ∨ x.state = .done)) → v.extractLsb' 56 2 = 0#2)
    ∧ v.extractLsb' 46 2 = (match (k.leaf t).state with | .idle => 0#2 | .arrived => 1#2 | .reported => 2#2)
    ∧ v.extractLsb' 39 7 = BitVec.ofNat 7 ((List.range 64).countP (fun e => (k.entry e).owed.getLsbD t))
    ∧ v.extractLsb' 32 7 = BitVec.ofNat 7 ((List.range 64).countP (fun e => decide ((k.entry e).state = .pending) && (k.entry e).seen.getLsbD t))
    ∧ (root → x.state = .done → v.extractLsb' 0 32 = BitVec.ofNat 32 x.count) ∧ (¬ (root ∧ x.state = .done) → v.extractLsb' 0 32 = 0#32)

/-- The word of BARST for a barrier (R271). -/
def BarstFields (b : Bar) (v : Dword) : Prop :=
  v.getLsbD 63 = b.alloc ∧ v.getLsbD 62 = b.member ∧ v.getLsbD 61 = b.arrived ∧ v.getLsbD 60 = b.drop ∧ v.extractLsb' 57 3 = 0#3
    ∧ v.getLsbD 56 = b.phase ∧ v.extractLsb' 54 2 = 0#2 ∧ v.extractLsb' 48 6 = BitVec.ofNat 6 b.ch ∧ v.extractLsb' 32 16 = 0#16
    ∧ v.extractLsb' 0 32 = BitVec.ofNat 32 b.phases

/-- The responders' values stand in ascending entry order (R246). -/
def Ascending (l : List (Nat × Dword)) : Prop := l.Pairwise (fun a b => a.1 ≤ b.1)

end Sys2Proof.Claims

/-- R237, R243, R244: SOLICIT checks its door (BADADDR) and its slot (FULL), then opens the gang slot, returns its number and sends the
solicit to the root; CENCLOSE closes a slot with a result, marks an open one, and does nothing elsewhere; CENST returns the
fields of R244, with [4] the value of a DONE slot. -/
def Obligations.CensusesOpenAndClose : Prop :=
  ∀ (s : State) (d a : BitVec 5), User s → let off := (s.reg a).toNat; let k := s.here; let w := descriptor s off
    let j := (w.extractLsb' (192 + 22) 4).toNat; let door := (w.extractLsb' 192 20).toNat; let ch := (door - 0xC0000) / 16
    let n := ((s.reg a).extractLsb' 0 4).toNat
    let doorOk := 0xC0000 ≤ door ∧ door < 0xC0400 ∧ door % 16 = 0 ∧ k.isMsg ch = true
    let slotOk := k.page.rank = 0 ∧ j < k.page.ncen ∧ (k.cen j).state = .free
    let sets (q : Nat) (x : CenSlot) (k k' : Core) : Prop :=
      k'.cen q = x ∧ (∀ m, m < 16 → m ≠ q → k'.cen m = k.cen m) ∧ { k' with slots := k.slots, cens := k.cens } = k
    (off % 32 = 0 → Names k off 32 →
      (¬ doorOk → GivesG (.solicit d a) s d (failure 4))
      ∧ (doorOk → ¬ slotOk → GivesG (.solicit d a) s d (failure 1))
      ∧ (∀ t, doorOk → slotOk → k.cenMap[j]? = some t → GivesSending (.solicit d a) s d (BitVec.ofNat 64 j)
          (sets j { state := .opened, closePending := false, op := (w.extractLsb' (192 + 20) 2).toNat, count := 0, value := 0, door := ch })
          (Upward s (.solicit t (w.extractLsb' (192 + 20) 2).toNat (w.extractLsb' 0 48).toNat (w.extractLsb' 64 48).toNat (w.extractLsb' 128 64).toNat))))
    ∧ ((k.page.rank ≠ 0 ∨ k.page.ncen ≤ n ∨ (k.cen n).state = .free ∨ (k.cen n).state = .closing) → GoesTo (.cenclose a) s (s.pc + 4))
    ∧ (k.page.rank = 0 → n < k.page.ncen → (k.cen n).state = .opened →
        GivesWith (.cenclose a) s 0 0 (sets n { k.cen n with closePending := true }))
    ∧ (∀ t, k.page.rank = 0 → n < k.page.ncen → (k.cen n).state = .done → k.cenMap[n]? = some t →
        GivesSending (.cenclose a) s 0 0 (sets n { k.cen n with state := .closing, closePending := false }) (Upward s (.close t)))
    ∧ (k.page.ncen ≤ n → GivesG (.censt d a) s d 0)
    ∧ (n < k.page.ncen → (s.reg a).getLsbD 4 = true →
        GivesG (.censt d a) s d (if k.page.rank = 0 ∧ (k.cen n).state = .done then (k.cen n).value else 0))
    ∧ (n < k.page.ncen → (s.reg a).getLsbD 4 = false → ∃ v, CenstFields k n v ∧ GivesG (.censt d a) s d v)

/-- R239: RESPOND with a token its entry owes, once the slot's accesses are settled, records the value, clears the debt and passes on; the
leaf reports, and is REPORTED, exactly where it was ARRIVED, no entry owes its tenant slot now, none that is PENDING has seen it and no responder
message of it waits for its channel (R236): how many values there are and what OP makes of them. A leaf's values stay in ascending entry order, in
which OP 1 sums them (R97, R246); of OP 3 a NaN gives the canonical NaN where values are combined (R145). Any other token traps REFUSED.

Model's choice where the spec leaves it open: log 30, 41. -/
def Obligations.RespondSettlesDebt : Prop :=
  ∀ (s : State) (a b : BitVec 5), User s → Settled s → let k := s.here; let tok := s.reg a
    let e := (tok.extractLsb' 8 6).toNat; let t := (tok.extractLsb' 0 4).toNat; let lf := k.leaf t
    let good := tok.extractLsb' 14 2 = 0#2 ∧ tok.extractLsb' 4 4 = 0#4 ∧ (k.entry e).owed.getLsbD t = true
    let v : Dword := if lf.op = 1 ∨ lf.op = 3 then (s.reg b).extractLsb' 0 32 |>.zeroExtend 64 else s.reg b
    (¬ good → Traps (.respond a b) s 0x05 tok s.pc)
    ∧ (good → Ready (.respond a b) s → ∃ u, exec (.respond a b) s = .next u
        ∧ (∀ q, q < 16 → (u.here.entry e).owed.getLsbD q = (if q = t then false else (k.entry e).owed.getLsbD q))
        ∧ { u.here.entry e with owed := (k.entry e).owed } = k.entry e
        ∧ { u.here.leaf t with state := lf.state, vals := lf.vals } = lf ∧ (u.here.leaf t).vals.Perm ((e, v) :: lf.vals)
        ∧ (Ascending lf.vals → Ascending (u.here.leaf t).vals)
        ∧ (∀ m, m < 64 → m ≠ e → u.here.entry m = k.entry m) ∧ (∀ m, m < 16 → m ≠ t → u.here.leaf m = k.leaf m)
        ∧ (let due : Prop := lf.state = .arrived ∧ (∀ m, m < 64 → (u.here.entry m).owed.getLsbD t = false)
              ∧ (∀ m, m < 64 → (k.entry m).state = .pending → (k.entry m).seen.getLsbD t = false)
              ∧ (∀ h x y, h ∈ k.held → h.src = .responder x y → y ≠ t);
            (due → (u.here.leaf t).state = .reported ∧ u.hub = { s.hub with census := s.hub.census.map (fun x =>
                if x.tenant = k.tenant ∧ x.slot = t then { x with sent := x.sent ++ [⟨s.issuer.1, (u.here.leaf t).report.1, (u.here.leaf t).report.2⟩] } else x) })
            ∧ (¬ due → (u.here.leaf t).state = lf.state ∧ u.hub = s.hub))
        ∧ u.pc = s.pc + 4 ∧ { u.me with pc := s.me.pc } = s.me
        ∧ { u.here with slots := k.slots, dir := k.dir, leaves := k.leaves } = k ∧ SameBeyondCore s { u with hub := s.hub })
    ∧ (∀ lf : Leaf, let xs := lf.vals.map Prod.snd; let word (x : Dword) : Word := x.extractLsb' 0 32
        xs.length < 2 ^ 32 → lf.report.1 = xs.length
          ∧ (lf.op = 0 → lf.report.2 = xs.sum)
          ∧ (lf.op = 1 → ∀ x l, xs = x :: l → lf.report.2 = l.foldl (fun p q => (roundW .nearestEven
              (Fp.addMode false (ofFp32 (word p)) (ofFp32 (word q)))).zeroExtend 64) (if (ofFp32 (word x)).isNan then 0x7FC00000#64 else x))
          ∧ (lf.op = 2 → xs ≠ [] → lf.report.2 ∈ xs ∧ ∀ x, x ∈ xs → x.toInt ≤ lf.report.2.toInt)
          ∧ (lf.op = 3 → 1 < xs.length → (∃ x, x ∈ xs ∧ nanLane (word x)) → lf.report.2 = 0x7FC00000#64)
          ∧ (lf.op = 3 → xs ≠ [] → (∀ x, x ∈ xs → ¬ nanLane (word x)) → lf.report.2.extractLsb' 0 32 ∈ xs.map word
              ∧ ∀ x, x ∈ xs → orderKey (word x) ≤ orderKey (word lf.report.2)))

/-- R39, R240 to R242: DIRADD takes the lowest free entry, ACTIVE with the answered slots of the leaves that are not IDLE; it fails with BADADDR
for a tile that is no run of blocks of the store, BADTERM for a channel that is no MSG channel and FULL for want of an entry. DIRDEL frees an
ACTIVE entry that owes nothing. DIRMOVE turns an ACTIVE entry to FORWARD and queues a DMOVE with its words; it fails with ILLEGAL for an entry not
ACTIVE, BADADDR for an address that is no tile of another rank, BADTERM for a NOTIFY channel that is no MSG channel, LOCKFULL and FULL. A failure
changes nothing.

Model's choice where the spec leaves it open: log 44. -/
def Obligations.DirectoriesChange : Prop :=
  ∀ (s : State) (d a b : BitVec 5), User s → let off := (s.reg a).toNat; let k := s.here; let w := descriptor s off
    let e := ((s.reg a).extractLsb' 0 6).toNat
    (off % 32 = 0 → Names k off 32 →
      let addr := (w.extractLsb' 128 20).toNat; let len := (w.extractLsb' 148 20).toNat
      let badAddr : Prop := addr % 64 ≠ 0 ∨ len = 0 ∨ len % 64 ≠ 0 ∨ addr < 0x100 ∨ k.page.lsbytes < addr + len
      let badTerm : Prop := k.isMsg (w.extractLsb' 48 6).toNat = false
      let full : Prop := ∀ m, m < 64 → (k.entry m).state ≠ .free
      (badAddr → GivesG (.diradd d a) s d (failure 4))
      ∧ (¬ badAddr → badTerm → GivesG (.diradd d a) s d (failure 6))
      ∧ (¬ badAddr → ¬ badTerm → full → GivesG (.diradd d a) s d (failure 1))
      ∧ (¬ badAddr → ¬ badTerm → ¬ full → ∃ f, f < 64 ∧ (k.entry f).state = .free ∧ (∀ m, m < f → (k.entry m).state ≠ .free)
          ∧ GivesWith (.diradd d a) s d (BitVec.ofNat 64 f) (fun k k' => let x := k'.entry f
              x.state = .active ∧ x.key = (w.extractLsb' 0 48).toNat ∧ x.kmask = (w.extractLsb' 64 48).toNat ∧ x.rch = (w.extractLsb' 48 6).toNat
              ∧ x.addr = (w.extractLsb' 128 20).toNat ∧ x.len = (w.extractLsb' 148 20).toNat ∧ x.owed = 0 ∧ x.seen = 0
              ∧ (∀ t, t < 16 → x.answered.getLsbD t = decide ((k.leaf t).state ≠ .idle))
              ∧ (∀ m, m < 64 → m ≠ f → k'.entry m = k.entry m) ∧ { k' with slots := k.slots, dir := k.dir } = k)))
    ∧ ((off % 32 ≠ 0 ∨ off < 0x100 ∨ k.page.lsbytes < off + 32) → k.page.lsbytes ≤ 0x60000 → GivesG (.diradd d a) s d (failure 4))
    ∧ (((k.entry e).state ≠ .active ∨ (k.entry e).owed ≠ 0) → GivesG (.dirdel d a) s d (failure 1))
    ∧ ((k.entry e).state = .active → (k.entry e).owed = 0 → GivesWith (.dirdel d a) s d (BitVec.ofNat 64 e) (fun k k' =>
        (k'.entry e).state = .free ∧ (∀ m, m < 64 → m ≠ e → k'.entry m = k.entry m) ∧ { k' with slots := k.slots, dir := k.dir } = k))
    ∧ (let x := k.entry e; let B := s.reg b; let rank := (B.extractLsb' 20 13).toNat; let at_ := (B.extractLsb' 0 20).toNat
        let illegal : Prop := x.state ≠ .active
        let badAddr : Prop := B.extractLsb' 62 2 ≠ 1#2 ∨ B.extractLsb' 40 22 ≠ 0x3FFFFE#22 ∨ B.extractLsb' 33 7 ≠ 0#7 ∨ k.page.width * k.page.height ≤ rank
          ∨ B.toNat % 64 ≠ 0 ∨ rank = k.page.rank ∨ at_ < 0x100 ∨ k.page.lsbytes < at_ + x.len
        let badTerm : Prop := (s.reg a).getLsbD 22 = true ∧ k.isMsg ((s.reg a).extractLsb' 16 6).toNat = false
        let lockFull : Prop := x.len % 2 ^ 20 ≠ 0 ∧ ∀ l, l ∈ k.locks.toList → l ≠ none
        let full : Prop := 16 ≤ k.eng.cmds.countP (fun c => decide (c.engine = 1))
        let first (n : Nat) : Prop := GivesG (.dirmove d a b) s d (failure n)
        (illegal → first 2) ∧ (¬ illegal → badAddr → first 4) ∧ (¬ illegal → ¬ badAddr → badTerm → first 6)
        ∧ (¬ illegal → ¬ badAddr → ¬ badTerm → lockFull → first 3)
        ∧ (¬ illegal → ¬ badAddr → ¬ badTerm → ¬ lockFull → full → first 1)
        ∧ (¬ illegal → ¬ badAddr → ¬ badTerm → ¬ lockFull → ¬ full → GivesWith (.dirmove d a b) s d (BitVec.ofNat 64 k.eng.ticket) (fun k k' =>
        k'.entry e = { k.entry e with state := .forward, peer := ((s.reg b).extractLsb' 20 13).toNat, pent := ((s.reg a).extractLsb' 8 6).toNat }
        ∧ (∀ m, m < 64 → m ≠ e → k'.entry m = k.entry m)
        ∧ (∃ c : Command, k'.eng.cmds = k.eng.cmds ++ [c] ∧ c.engine = 1 ∧ c.ticket = k.eng.ticket
            ∧ c.word.extractLsb' 0 8 = 0x14#8 ∧ c.word.extractLsb' 128 64 = s.reg b ∧ c.running = false)
        ∧ { k' with slots := k.slots, dir := k.dir, eng := k.eng, locks := k.locks } = k)))

/-- R271 to R275: BARFREE and an arrival go to the root; an arrival marks the barrier and one at a barrier that is absent, not held or
arrived already traps REFUSED; BARST returns the fields of R271, 0 for a barrier past NBAR; BARALLOC offers its channel to each
member and waits, and once all have answered well takes the lowest free barrier, at the root and every member in one step.

Model's choice where the spec leaves it open: log 30, 53. -/
def Obligations.BarriersAllocateAndArrive : Prop :=
  ∀ (s : State) (d a : BitVec 5), User s → let k := s.here; let off := (s.reg a).toNat; let j := ((s.reg a).extractLsb' 0 6).toNat; let b := k.bar j
    let good := j < k.page.nbar ∧ b.alloc = true ∧ b.member = true ∧ b.arrived = false
    let marks (dr : Bool) (k k' : Core) : Prop := k'.bar j = { b with arrived := true, drop := b.drop || dr }
      ∧ (∀ m, m < 64 → m ≠ j → k'.bar m = k.bar m) ∧ { k' with slots := k.slots, bars := k.bars } = k
    (k.page.nbar ≤ j → GoesTo (.barfree a) s (s.pc + 4) ∧ GivesG (.barst d a) s d 0)
    ∧ (j < k.page.nbar → GivesSending (.barfree a) s 0 0 (fun k k' => { k' with slots := k.slots } = k) (Upward s (.freeUp j))
        ∧ ∃ v, BarstFields b v ∧ GivesG (.barst d a) s d v)
    ∧ (Settled s → good → GivesSending (.arrive a) s 0 0 (marks false) (Upward s (.arrival j k.page.rank false))
        ∧ GivesSending (.arrived a) s 0 0 (marks true) (Upward s (.arrival j k.page.rank true)))
    ∧ (Settled s → ¬ good → Traps (.arrive a) s 0x05 (s.reg a) s.pc ∧ Traps (.arrived a) s 0x05 (s.reg a) s.pc)
    ∧ (∀ g, s.offer = none → off % 8 = 0 → Names k off 8 → Names k off (barDescLen k off) → barMembers k off ≠ [] →
        ((dwordOf8 s off).extractLsb' 0 6).toNat < k.page.nchan → k.gang.bind s.gang = some g → Ready (.baralloc d a) s →
        ∃ t, exec (.baralloc d a) s = .next t ∧ t.me = s.me ∧ t.net.length = s.net.length + (barMembers k off).length
          ∧ t.here.offers = k.offers ++ [⟨s.issuer.2.val, s.me.act, ((dwordOf8 s off).extractLsb' 0 6).toNat, barMembers k off, [], k.page.rank⟩])
    ∧ (∀ o g n, s.offer = some o → (∀ x, x ∈ o.answers → x.2 = true) → k.gang.bind s.gang = some g → g.freeBar = some n → n < 64 → Ready (.baralloc d a) s →
        ∃ t, exec (.baralloc d a) s = .next t
          ∧ (∀ q, t.reg q = if q = d ∧ d ≠ 0 then BitVec.ofNat 64 n else s.reg q) ∧ t.pc = s.pc + 4
          ∧ (∀ r, r ∈ o.members → (t.core (g.coreOf r)).bar n = ⟨true, true, false, false, false, o.ch, 0⟩)
          ∧ (∀ g', t.gang g.id = some g' → g'.bars[n]? = some ⟨true, o.members, [], false, 0⟩)
          ∧ o ∉ t.here.offers ∧ SameMemory s t)
    ∧ (∀ o, s.offer = some o → (∃ x, x ∈ o.answers ∧ x.2 = false) → Ready (.baralloc d a) s → ∃ t, exec (.baralloc d a) s = .next t
        ∧ (∀ q, t.reg q = if q = d ∧ d ≠ 0 then failure 6 else s.reg q) ∧ t.pc = s.pc + 4 ∧ SameMemory s t)

/-! Engines (R99 to R116, R163 to R185, R248): a step reads or writes one block, or updates one accumulator element (log 11) -/

namespace Sys2Proof.Claims

/-- The step of an engine for the command of a ticket, by command code. -/
def engineInstr (code c t pick : Nat) : Instr :=
  match code with
  | 0x01 => .mma c t pick
  | 0x02 => .mmac c t pick
  | 0x03 => .accz c t
  | 0x04 => .accst c t
  | 0x05 => .accld c t
  | 0x10 => .copy c t
  | 0x11 => .gather c t
  | 0x12 => .scatter c t
  | 0x13 => .bcast c t
  | 0x14 => .dmove c t
  | 0x20 => .filt c t
  | _ => .conv c t

/-- The codes of R35. -/
def codes : List Nat := [0x01, 0x02, 0x03, 0x04, 0x05, 0x10, 0x11, 0x12, 0x13, 0x14, 0x20, 0x21]

/-- Everything but core `c` stands as before, packets on their way included. -/
def SameBeyond (s t : State) (c : Nat) : Prop :=
  t.issuer = s.issuer ∧ t.net = s.net ∧ t.mesh = s.mesh ∧ t.mem = s.mem ∧ t.hub = s.hub ∧ t.fab = s.fab ∧ t.fw = s.fw
    ∧ t.agenda = s.agenda ∧ t.fresh = s.fresh ∧ (∀ b, b ≠ c → t.core b = s.core b)

/-- Core `c` holds a running command `m` of the code under the ticket; it may act, nothing of it that may leave is held back, no write to its own
core is under way and no read of it has been refused. -/
abbrev Runs (s : State) (c t code : Nat) (m : Command) : Prop :=
  (s.core c).command t = some m ∧ m.ticket = t ∧ cmdCode m.word = code ∧ m.running = true ∧ m.moves = true
    ∧ m.nextRead (s.core c) s.fab.device = none ∧ m.nextWrite (s.core c) s.fab.device = none ∧ m.own = [] ∧ m.refusal = none

/-- Nothing of a core but its engines' own state and its range locks differs. -/
def EnginesOnly (k k' : Core) : Prop := { k' with eng := k.eng, locks := k.locks } = k

/-- Of the lock entries of a core, those of the command that `P` picks are freed, and no other (R111). -/
def Frees (k k' : Core) (m : Command) (P : Lock → Prop) : Prop :=
  ∀ l, some l ∈ k'.locks.toList ↔ some l ∈ k.locks.toList ∧ ¬ (l.engine = m.engine ∧ l.ticket = m.ticket ∧ P l)

/-- One packet of the command leaves for `d` with its next number, to cross in the core's next cycle; one that cannot be routed comes back
as a NAK of cause ROUTE (R18, R312). -/
def LeavesFor (s u : State) (c : Nat) (m : Command) (d : Node) (b : Body) : Prop :=
  let q := (s.core c).packet c d m.slot (.engine m.ticket (m.unit + 1)) b
  ∃ p, u.net = s.net ++ [p] ∧ p.src = .core c ∧ p.tag = .engine m.ticket (m.unit + 1) ∧ p.due = (s.core c).cycle + 1
    ∧ (s.routable c q = true → p.dst = d ∧ p.body = b) ∧ (s.routable c q = false → p.dst = .core c ∧ ∃ a, p.body = .nak 6 false a)

/-- The step reads the `n` bytes at `a`, all in one block, and its header, the command going on as `m'`: from this core at once, a CB2 block
with its codebook table, the SRC entries of a range that is read going; from elsewhere it asks with one packet. -/
def ReadsBlock (i : Instr) (s : State) (c t : Nat) (m m' : Command) (key : Nat) (a : Dword) (n : Nat) : Prop :=
  let k := s.core c
  (∀ off, decodeAddr k.page s.fab.device a = .own off → ∃ u b, exec i s = .next u ∧ (u.core c).command t = some { m' with bufs := m.bufs ++ [b] }
      ∧ b = k.bufOf m key (k.ownBytes off n) (k.header off) ∧ b.key = key ∧ b.bytes = k.ownBytes off n ∧ b.hdr = k.header off
      ∧ Frees k (u.core c) m (fun l => freesSource { m' with bufs := m.bufs ++ [b] } l = true)
      ∧ EnginesOnly k (u.core c) ∧ SameBeyond s u c)
  ∧ (∀ d, (decodeAddr k.page s.fab.device a).dest = some d → k.mayLeave d = true → ∃ u, exec i s = .next u
      ∧ (u.core c).command t = some { m' with unit := m.unit + 1, reads := m.reads ++ [⟨m.unit + 1, key, a, n, true⟩] }
      ∧ LeavesFor s u c m d (.load a n true) ∧ EnginesOnly k (u.core c) ∧ SameBeyond s { u with net := s.net } c)

/-- `u` follows the write `w` of `m`, in this core at `off`: its bytes and the header of its block are in place as one update, and no other byte
differs. -/
def WrittenHere (s u : State) (c off : Nat) (w : Write) : Prop :=
  let k := s.core c
  (∀ x, readByte (u.core c).ls x = if off ≤ x ∧ x < off + w.bytes.length then w.bytes.getD (x - off) 0 else readByte k.ls x)
    ∧ (u.core c).lsHdr = (k.applyEffect off w.eff).lsHdr ∧ SameBeyond s u c

/-- The command is over: no queue holds it, and none of the core's range locks is its. -/
def IsOver (k : Core) (m : Command) : Prop :=
  k.command m.ticket = none ∧ ∀ l, some l ∈ k.locks.toList → ¬ (l.engine = m.engine ∧ l.ticket = m.ticket)

/-- The completion message of R37 enters DONECH. -/
def Announces (k k' : Core) (m : Command) (status info : Nat) : Prop :=
  let x := k.chan (cmdDone m.word); let y := k'.chan (cmdDone m.word)
  ∃ p : Dword, y.held = x.held + 1 ∧ (x.spill = 0 → x.msgs.length < 8 → y.msgs = x.msgs ++ [(p, BitVec.ofNat 16 k.page.rank)])
    ∧ p.extractLsb' 32 32 = BitVec.ofNat 32 (min info (2 ^ 32 - 1)) ∧ p.extractLsb' 28 4 = 0#4 ∧ p.extractLsb' 24 4 = BitVec.ofNat 4 m.engine
    ∧ p.extractLsb' 16 8 = BitVec.ofNat 8 status ∧ p.extractLsb' 0 16 = BitVec.ofNat 16 m.ticket

/-- DONECH, where the command has NOTIFY, takes its message. -/
def CanAnnounce (k : Core) (m : Command) : Prop :=
  cmdNotify m.word = true → k.isMsg (cmdDone m.word) = true ∧ (k.chan (cmdDone m.word)).held < 8 + (k.chan (cmdDone m.word)).rent
    ∧ ∀ x, x ∈ k.held → x.ch ≠ cmdDone m.word

/-- A command is over with its last write made and all its packets answered; a DMOVE has its commit to come. -/
def Ended (m : Command) : Prop := lastWrite m = true ∧ m.quiet = true ∧ cmdCode m.word ≠ 0x14 ∧ m.moves = true

/-- The step makes `x`, a write of `m` to this core; `m1` is the command without it. Without a credit the command goes on as `m1`, or is over; with
one, the write stands placed and the credit comes in a step of its own; where the channel to credit is no COUNT channel the write is refused and
nothing of it is applied (R107, R114, R213, R348). -/
def MakesOwn (i : Instr) (s : State) (c t : Nat) (m : Command) (x : OwnWrite) (m1 : Command) : Prop :=
  let k := s.core c
  let frees (u : State) (m2 : Command) : Prop := Frees k (u.core c) m (fun l => l.dest = true ∧ lastWrite m2 = true ∧ ∀ y ∈ m2.own, y.placed = true)
  let only (u : State) : Prop := { u.core c with eng := k.eng, locks := k.locks, ls := k.ls, lsHdr := k.lsHdr } = k
  (x.write.credit = false ∨ cmdCredit m.word = none →
    (¬ Ended m1 → ∃ u, exec i s = .next u ∧ (u.core c).command t = some m1 ∧ WrittenHere s u c x.off x.write ∧ frees u m1 ∧ only u)
    ∧ (Ended m1 → cmdNotify m.word = false → ∃ u, exec i s = .next u ∧ IsOver (u.core c) m ∧ WrittenHere s u c x.off x.write ∧ only u))
  ∧ (∀ ch, x.write.credit = true → cmdCredit m.word = some ch →
    (k.isCount ch = true → let m2 := { m1 with own := { x with placed := true } :: m1.own }
      ∃ u, exec i s = .next u ∧ (u.core c).command t = some m2 ∧ WrittenHere s u c x.off x.write ∧ frees u m2 ∧ only u)
    ∧ (k.isCount ch = false →
      (cmdNotify m.word = false → ∃ u, exec i s = .next u ∧ IsOver (u.core c) m ∧ (u.core c).ls = k.ls ∧ (u.core c).lsHdr = k.lsHdr
        ∧ u.hub.log.getLast? = some ⟨c, m.slot, 0x05, some k.tenant⟩)
      ∧ (cmdNotify m.word = true → CanAnnounce k m → m1.writes = [] → m1.own = [] → ∃ u, exec i s = .next u ∧ IsOver (u.core c) m
        ∧ Announces k (u.core c) m 0x05 x.before ∧ (u.core c).lsHdr = k.lsHdr)))

/-- The step makes write `w`, which `before` bytes of the command precede, the command going on as `m1`: in this core at once (`MakesOwn`);
elsewhere with one packet, once no earlier write to its destination is unanswered, and of a CONV no earlier one at all. After the
last write the command's DEST entries go, and with everything acknowledged the command is over. -/
def WritesBlock (i : Instr) (s : State) (c t : Nat) (m m1 : Command) (before mark : Nat) (w : Write) : Prop :=
  let k := s.core c
  let frees (u : State) : Prop := Frees k (u.core c) m (fun l => l.dest = true ∧ lastWrite m1 = true)
  let behind (d : Node) (y : WriteOut) : Prop := cmdCode m.word = 0x21 ∨ (decodeAddr k.page s.fab.device y.write.addr).dest = some d
  (∀ off, decodeAddr k.page s.fab.device w.addr = .own off → MakesOwn i s c t m ⟨off, before, mark, w, false⟩ m1)
  ∧ (∀ d, (decodeAddr k.page s.fab.device w.addr).dest = some d → k.mayLeave d = true →
      ((∀ y, y ∈ m.writes → ¬ behind d y) → ∃ u cr, exec i s = .next u
        ∧ (u.core c).command t = some { m1 with unit := m.unit + 1, writes := m.writes ++ [⟨m.unit + 1, before, mark, w, true⟩] }
        ∧ LeavesFor s u c m d (.block w.addr w.bytes w.eff .engine cr) ∧ (w.credit = false → cr = none)
        ∧ frees u ∧ EnginesOnly k (u.core c) ∧ SameBeyond s { u with net := s.net } c)
      ∧ ((∃ y, y ∈ m.writes ∧ behind d y) → ∃ u, exec i s = .next u
        ∧ (u.core c).command t = some { m1 with writes := m.writes ++ [⟨0, before, mark, w, false⟩] }
        ∧ frees u ∧ EnginesOnly k (u.core c) ∧ SameBeyond s u c))

/-- Bytes from `a` on that lie in its 64-byte block, `n` at most. -/
def toBlockEnd (a : Dword) (n : Nat) : Nat := min (64 - a.toNat % 64) n

/-- A read under way at `x` for an address: of a block in this core or in device memory it brings the whole. -/
def WholeHere (a : Dword) (x : Piece) : Prop := (ownForm a = true ∨ deviceForm a = true) → x = ⟨a.toNat / 64 * 64, 64⟩

/-- Byte `p` of a command as its blocks hold it: of the block read under `key`, the byte at `p - key`; and the header read with it. -/
def heldByte (m : Command) (key p : Nat) : Byte := ((m.buf key).map (fun b => b.bytes.getD (p - key) 0)).getD 0
def heldHeader (m : Command) (key : Nat) : Header := ((m.buf key).map Buf.hdr).getD 0

/-- The blocks of the command that reach past byte `p`. -/
def past (m : Command) (p : Nat) : List Buf := m.bufs.filter (fun b => decide (p < b.key + b.bytes.length))

/-- The step updates accumulator elements `(i, j)` of a view with the bits `x`, and the header of its block to the view's; no other
accumulator byte changes. -/
def UpdatesAcc (ins : Instr) (s : State) (c : Nat) (acc i j : Nat) (x : Nat) (after : Command → Prop) (t : Nat) : Prop :=
  let k := s.core c
  ∃ u, exec ins s = .next u ∧ (∃ m', (u.core c).command t = some m' ∧ after m')
    ∧ (u.core c).accBits acc i j = x % 2 ^ (8 * accWidth acc)
    ∧ (∀ y, y < accOffset acc i j ∨ accOffset acc i j + accWidth acc ≤ y → readByte (u.core c).acc y = readByte k.acc y)
    ∧ (∀ y, (u.core c).header (0x80000 + y) = if y / 64 = accOffset acc i j / 64 then viewHeader acc else k.header (0x80000 + y))
    ∧ { u.core c with eng := k.eng, locks := k.locks, acc := k.acc, accHdr := k.accHdr } = k ∧ SameBeyond s u c

end Sys2Proof.Claims

/-- R102 to R104, R171, R182, R183: a command starts that is the oldest unstarted one of its queue, armed where it has ARM, without a hazard (of R103:
an earlier command's lock that its destination meets, or an earlier DEST lock that its source meets; of R171 on the accumulator), in an engine with
an active place free (COPY four, MXE and STREAM one). Of two heads of the MXE that are ready the high queue's starts and C grows by one, or at
C = 7 the low queue's and C is 0; a head that is ready alone starts and C is 0. -/
def Obligations.CommandsStart : Prop :=
  ∀ (s : State) (c t code pick : Nat) (m : Command), code ∈ codes → let k := s.core c
    let queue (x : Command) := if x.engine = 0 then (x.word.extractLsb' 28 4).toNat else 0
    let oldest (x : Command) : Prop := ∃ before after, k.eng.cmds = before ++ x :: after
      ∧ ∀ y, y ∈ before → y.engine = x.engine → queue y = queue x → y.running = true
    let ready (x : Command) : Prop := x.running = false ∧ oldest x ∧ (x.word.getLsbD 9 = true → x.armed ≠ none) ∧ ¬ Hazard k s.fab.device x
    let other (q : Nat) : Prop := ∃ x, x.engine = 0 ∧ queue x = q ∧ ready x
    let C := k.eng.mxeC
    let starts (C' : Nat) : Prop := ∃ u, exec (engineInstr code c t pick) s = .next u ∧ (u.core c).command t = some { m with running := true }
      ∧ (∀ n, n ≠ t → (u.core c).command n = k.command n) ∧ (u.core c).eng.mxeC = C'
      ∧ { u.core c with eng := k.eng } = k ∧ SameBeyond s u c
    k.command t = some m → cmdCode m.word = code → k.ctl.pre = .none → ready m →
    k.eng.cmds.countP (fun x => decide (x.engine = m.engine) && x.running) < (if m.engine = 1 then 4 else 1) →
    (m.engine ≠ 0 → starts C)
    ∧ (m.engine = 0 → queue m = 0 → (other 1 → C ≠ 7 → starts (C + 1)) ∧ (¬ other 1 → starts 0))
    ∧ (m.engine = 0 → queue m = 1 → (other 0 → C = 7) → starts 0)

/-- R76, R105 to R108, R110, R111, R113, R114, R165, R167, R180: COPY, BCAST, DMOVE, GATHER, SCATTER, FILT, CONV and ACCST read each source
block once, a block of this core or of device memory whole, and write each destination block from what they have read, with the header its
bytes bring; a BCAST writes to every other receiver and then to this core; a write to this
core and the credit of its channel are steps of their own; a row or an element whose two ends may meet is read first; a DMOVE opens first; GATHER and
SCATTER read the index list; FILT skips a record whose key does not pass. Model's choice (log 11): the pieces that are read and written.

Model's choice where the spec leaves it open: log 11, 38, 69. -/
def Obligations.UnitsMove : Prop :=
  ∀ (s : State) (c t : Nat) (m : Command), let k := s.core c; let w := m.word; let dev := s.fab.device
    (∀ code i, (code = 0x10 ∧ i = .copy c t ∨ code = 0x13 ∧ i = .bcast c t ∨ code = 0x14 ∧ i = .dmove c t ∧ m.kept = 1) → Runs s c t code m →
      let h := copyShape w; let x (p : Nat) := h.piece (h.srcAt p)
      let n := toBlockEnd (h.dstAt m.pos) (h.rowEnd m.pos - m.pos)
      m.pos < h.len →
      (h.inHand m m.pos (h.needs k dev m.pos) = true →
        let m1 := { m with pos := m.pos + n, progress := m.pos + n }
        let bytes := (List.range n).map (fun j => heldByte m (x (m.pos + j)).lo (h.srcAt (m.pos + j)).toNat)
        let eff := hdrEffect h.headers (h.firstInBlock m.pos) (heldHeader m (x m.pos).lo)
        (code ≠ 0x13 → WritesBlock i s c t m m1 m.pos m.pos ⟨h.dstAt m.pos, bytes, eff, cmdDstchen w⟩)
        ∧ (code = 0x13 → m.writes = [] → k.ni.hold = false → k.page.orgx + k.page.width ≤ 72 →
            let others := ((bcastRect k w).ranks k.page.width).filter (fun r => decide (r ≠ k.page.rank))
            (∀ r, r ∈ others → r < k.page.width * k.page.height ∧ r < 2 ^ 13) → others ≠ [] →
            let own : List OwnWrite := match decodeAddr k.page dev (h.dstAt m.pos) with
              | .own off => if bcastSelf k w then [⟨off, m.pos, m.pos, ⟨h.dstAt m.pos, bytes, eff, cmdDstchen w⟩, false⟩] else []
              | _ => []
            let sent (j r : Nat) : WriteOut := ⟨m.unit + 1 + j, m.pos, m.pos, ⟨gangAddr r (h.dstAt m.pos), bytes, eff, cmdDstchen w⟩, true⟩
            ∃ u, ∃ ps : List Packet, exec i s = .next u ∧ u.net = s.net ++ ps ∧ ps.length = others.length
              ∧ (u.core c).command t = some { m1 with unit := m.unit + others.length, writes := others.zipIdx.map (fun y => sent y.2 y.1), own := own }
              ∧ (∀ j r, others[j]? = some r → let dest := Node.core (rankCore k.page.orgx k.page.orgy k.page.width r)
                  let b := Body.block (gangAddr r (h.dstAt m.pos)) bytes eff .engine (cmdCredit w)
                  ∃ p : Packet, ps[j]? = some p ∧ p.src = .core c ∧ p.tag = .engine m.ticket (m.unit + 1 + j)
                    ∧ (s.routable c (k.packet c dest m.slot p.tag b) = true → p.dst = dest ∧ p.body = b))
              ∧ EnginesOnly k (u.core c) ∧ SameBeyond s { u with net := s.net } c))
      ∧ (h.inHand m m.pos (h.needs k dev m.pos) = false → ∀ p, m.rpos ≤ p → p < h.len → m.asked (x p).lo = false →
          (∀ q, m.rpos ≤ q → q < p → m.asked (x q).lo = true) → WholeHere (h.srcAt p) (x p)
            ∧ ReadsBlock i s c t m { m with rpos := p + toBlockEnd (h.srcAt p) (h.rowEnd p - p) } (x p).lo (BitVec.ofNat 64 (x p).lo) (x p).len))
    ∧ (∀ code x rest, code ∈ codes → k.command t = some m → m.ticket = t → cmdCode w = code → m.running = true → m.own = x :: rest →
        m.halted = none → m.refusal = none → m.done = none → let i := engineInstr code c t 0; let m1 := { m with own := rest }
        (x.placed = false → MakesOwn i s c t m x m1)
        ∧ (∀ ch, x.placed = true → x.write.credit = true → cmdCredit w = some ch → k.isCount ch = true → let n := (k.chan ch).cnt + x.write.bytes.length
          let credited (u : State) : Prop := (u.core c).chan ch = { k.chan ch with cnt := n } ∧ (∀ j, j < 64 → j ≠ ch → (u.core c).chan j = k.chan j)
            ∧ { u.core c with eng := k.eng, locks := k.locks, chans := k.chans } = k ∧ SameBeyond s u c
          (n < 2 ^ 48 → (¬ Ended m1 → ∃ u, exec i s = .next u ∧ (u.core c).command t = some m1 ∧ credited u)
            ∧ (Ended m1 → cmdNotify w = false → ∃ u, exec i s = .next u ∧ IsOver (u.core c) m ∧ credited u))
          ∧ (2 ^ 48 ≤ n → ∃ u, exec i s = .next u ∧ IsOver (u.core c) m ∧ u.hub.log.getLast? = some ⟨c, m.slot, 0x0B, some k.tenant⟩
            ∧ ∀ id g, k.gang = some id → s.gang id = some g → g.state ≠ .ending → g.leaving = false →
                ∃ g', u.gang id = some g' ∧ g'.state = .ending ∧ g'.fault = some ⟨0x0B, k.page.rank, m.pc, 0⟩)))
    ∧ (Runs s c t 0x14 m → m.kept = 0 → ∀ d, (decodeAddr k.page dev (dwordAt w 2)).dest = some d → k.mayLeave d = true →
        ∃ u, exec (.dmove c t) s = .next u ∧ (u.core c).command t = some { m with xfer := .opening, wait := 1, unit := m.unit + 1 }
          ∧ LeavesFor s u c m d (openBody k w) ∧ EnginesOnly k (u.core c) ∧ SameBeyond s { u with net := s.net } c)
    ∧ (∀ code i, (code = 0x11 ∧ i = .gather c t ∨ code = 0x12 ∧ i = .scatter c t) → Runs s c t code m → let h := indexedOf w
        m.pos < h.n * h.es →
        let writes := m.pos < m.rpos ∧ h.inHand m m.pos (h.needs k dev m m.pos) = true
        (writes → let n := toBlockEnd (h.dstAt m m.pos) (h.stop m.pos - m.pos)
            let first := decide ((h.dstAt m m.pos).toNat % 64 = 0) || decide ((if code = 0x11 then m.pos else m.pos % h.es) = 0)
            WritesBlock i s c t m (indexedNext h m) m.pos m.pos
              ⟨h.dstAt m m.pos, (List.range n).map (fun j => (h.byteOf m (m.pos + j)).1), hdrEffect h.headers first (h.byteOf m m.pos).2, cmdDstchen w⟩
            ∧ (ownForm h.dst = false → indexedNext h m = { m with pos := m.pos + n, progress := m.pos + n }))
        ∧ (¬ writes → m.rpos < h.n * h.es →
          (m.todo.length ≤ m.rpos / h.es → let j := m.todo.length; let n := min ((64 - (h.idx + 4 * j) % 64) / 4) (h.n - j)
              ∃ u, exec i s = .next u ∧ (u.core c).command t = some { m with todo := m.todo ++ (List.range n).map (fun q => k.ownLE (h.idx + 4 * (j + q)) 4) }
                ∧ EnginesOnly k (u.core c) ∧ SameBeyond s u c)
          ∧ (m.rpos / h.es < m.todo.length → h.settled m (m.rpos / h.es) = true → h.check k dev m m.rpos = none →
              ¬ (h.local = true ∧ m.pos < h.start m.rpos) → let x := h.piece m m.rpos
              let m1 := { m with rpos := m.rpos + toBlockEnd (h.srcAt m m.rpos) (h.stop m.rpos - m.rpos) }
              WholeHere (h.srcAt m m.rpos) x
              ∧ (m.asked x.lo = true → ∃ u, exec i s = .next u ∧ (u.core c).command t = some m1 ∧ EnginesOnly k (u.core c) ∧ SameBeyond s u c)
              ∧ (m.asked x.lo = false → ReadsBlock i s c t m m1 x.lo (BitVec.ofNat 64 x.lo) x.len))))
    ∧ (Runs s c t 0x20 m → let h := filterOf w; let next := h.size * (m.row + 1); m.row ≠ h.n →
        let key (p : Nat) := p - (h.srcAt p).toNat % 64
        let bytes (p n : Nat) := (List.range n).map (fun j => heldByte m (key (p + j)) (p + j))
        let passes := h.pass (leNat (bytes (h.size * m.row + 4 * h.kword) 4))
        let after (kept : Nat) : Command := { m with row := m.row + 1, pos := 0, kept := m.kept + kept, progress := m.row + 1, bufs := past m next }
        (m.have next = false → ReadsBlock (.filt c t) s c t m { m with rpos := m.rpos + toBlockEnd (h.srcAt m.rpos) (h.n * h.size - m.rpos) } m.rpos
            (h.srcAt m.rpos) (toBlockEnd (h.srcAt m.rpos) (h.n * h.size - m.rpos)))
        ∧ (m.have next = true → m.pos = 0 → 0 < h.size → passes = false → ∃ u, exec (.filt c t) s = .next u
            ∧ (u.core c).command t = some (after 0) ∧ EnginesOnly k (u.core c) ∧ SameBeyond s u c)
        ∧ (m.have next = true → m.pos < h.size → (m.pos = 0 → passes = true) → let n := toBlockEnd (h.dstAt m) (h.size - m.pos)
            let p := h.size * m.row + m.pos; let first := decide ((h.dstAt m).toNat % 64 = 0) || decide (m.kept = 0) && decide (m.pos = 0)
            WritesBlock (.filt c t) s c t m
              (if m.pos + n = h.size ∧ h.idxen = false then after 1 else { m with pos := m.pos + n }) (h.size * m.kept + m.pos) m.row
              ⟨h.dstAt m, bytes p n, hdrEffect h.headers first (heldHeader m (key p)), cmdDstchen w⟩)
        ∧ (m.have next = true → m.pos = h.size → WritesBlock (.filt c t) s c t m (after 1) (h.size * (m.kept + 1)) m.row
            ⟨BitVec.ofNat 64 (h.idx + 4 * m.kept), leBytes 4 m.row, if (h.idx + 4 * m.kept) % 64 = 0 ∨ m.kept = 0 then .raw else .keep, false⟩))
    ∧ (Runs s c t 0x21 m → let h := convOf w; m.row ≠ h.blocks → h.fault m = none →
        let from_ := h.tf.perBlock * m.row; let to_ := min (from_ + h.tf.perBlock) h.ne
        (m.have ((to_ - 1) / h.df.perBlock + 1) = true → ∃ xs : List (Fmt × Fp), xs.length = to_ - from_
          ∧ (∀ j, j < to_ - from_ → ∀ b, m.buf ((from_ + j) / h.df.perBlock) = some b →
              xs[j]? = some ((viewBlock h.df b.hdr).fmt, b.element h.df ((from_ + j) % h.df.perBlock)))
          ∧ (let hd := encodeHeader h.tf h.auto h.scale xs; let a := h.dst + BitVec.ofNat 64 (64 * m.row)
             WritesBlock (.conv c t) s c t m { m with row := m.row + 1, progress := to_, bufs := m.bufs.filter (fun b =>
                decide (h.tf.perBlock * (m.row + 1) / h.df.perBlock ≤ b.key)) } (64 * m.row) from_
               ⟨a, bytesOfBlock (encodeBlock h.tf hd h.mode m.seed a h.tag (xs.map Prod.snd)), .set hd, cmdDstchen w⟩))
        ∧ (m.have ((to_ - 1) / h.df.perBlock + 1) = false → m.rpos < blocksFor h.ne h.df.perBlock →
            ReadsBlock (.conv c t) s c t m { m with rpos := m.rpos + 1 } m.rpos (h.src + BitVec.ofNat 64 (64 * m.rpos)) 64))
    ∧ (Runs s c t 0x04 m → let r := accRegion w; let h := accStoreOf w; m.row ≠ r.m →
        let n := min h.tf.perBlock (r.n - h.tf.perBlock * m.pos)
        let xs := (List.range n).map (fun i => k.accValue r.acc (r.row + m.row) (r.col + h.tf.perBlock * m.pos + i))
        let hd := encodeHeader h.tf h.auto h.scale (xs.map (fun x => (viewFmt r.acc, x)))
        let a := h.dst + BitVec.ofNat 64 (64 * (h.dstr * m.row + m.pos))
        WritesBlock (.accst c t) s c t m
          (if m.pos + 1 = h.nb then { m with row := m.row + 1, pos := 0, kept := 0, progress := m.row + 1 } else { m with pos := m.pos + 1 })
          (64 * (m.row * h.nb + m.pos)) m.row
          ⟨a, bytesOfBlock (encodeBlock h.tf hd h.mode m.seed a h.tag xs), .set hd, cmdDstchen w⟩)

/-- R93, R94, R170, R174 to R181: MMA and MMAC read each source block of the K-group in progress once and whole, then update one element of the
group, an FP32 or FP64 element with the exact sum of the group's products and the old value rounded once to nearest even, an INT32
element with the saturated sum; ACCZ writes +0; ACCLD reads a block, decodes it whole for the view and then writes its elements.

Model's choice where the spec leaves it open: log 11, 14, 48, 70. -/
def Obligations.AccumulatorUpdates : Prop :=
  ∀ (s : State) (c t pick : Nat) (m : Command), let k := s.core c; let w := m.word; let r := accRegion w
    (∀ code i, (code = 0x01 ∧ i = .mma c t pick ∨ code = 0x02 ∧ i = .mmac c t pick) → Runs s c t code m → m.progress ≠ accKg w →
      let at_ := accG r.acc * m.progress
      (∀ p, (groupBlocks w).find? (fun p => (m.buf (p.1.key p.2 at_)).isNone) = some p →
        ReadsBlock i s c t m m (p.1.key p.2 at_) (BitVec.ofNat 64 (p.1.block p.2 at_)) 64)
      ∧ ((∀ p, p ∈ groupBlocks w → (m.buf (p.1.key p.2 at_)).isSome = true) →
        let todo := if m.todo = [] then r.elements else m.todo; let e := todo.getD (pick % todo.length) 0; let row := e / 128; let col := e % 128
        todo ≠ [] → groupFault m m.progress row col = none →
        (∃ x, UpdatesAcc i s c r.acc (r.row + row) (r.col + col) x (fun m' => e ∉ m'.todo ∧ (m'.progress = m.progress ∨ m'.todo = [] ∧ m'.progress = m.progress + 1)) t
          ∧ (let first := accZero w = true ∧ m.progress = 0; let ks := (List.range (accG r.acc)).map (fun q => at_ + q)
             let prods := ks.map (fun q => (aValue k m row q).mul ((opB w).value m col q))
             (r.acc = 0 → x = (roundW .nearestEven (Fp.add (if first then .fin false 0 0 else k.accValue 0 (r.row + row) (r.col + col)) (Fp.sum prods))).toNat)
             ∧ (r.acc = 2 → x = (roundD .nearestEven (Fp.add (if first then .fin false 0 0 else k.accValue 2 (r.row + row) (r.col + col)) (Fp.sum prods))).toNat)
             ∧ (r.acc = 1 → let old : Int := if first then 0 else (BitVec.ofNat 32 (k.accBits 1 (r.row + row) (r.col + col))).toInt
                  let sum : Int := old + (ks.map (fun q => (opA w).int m row q * (opB w).int m col q)).sum
                  (BitVec.ofNat 32 x).toInt = max (-(2 ^ 31 - 1)) (min (2 ^ 31 - 1) sum))))))
    ∧ (Runs s c t 0x03 m → m.row ≠ r.m → UpdatesAcc (.accz c t) s c r.acc (r.row + m.row) (r.col + m.pos) 0
        (fun m' => if m.pos + 1 = r.n then m'.row = m.row + 1 ∧ m'.pos = 0 else m'.row = m.row ∧ m'.pos = m.pos + 1) t)
    ∧ (Runs s c t 0x05 m → m.row ≠ r.m → let h := accLoadOf w; let j := m.row * h.nb + m.pos; let n := min h.df.perBlock (r.n - h.df.perBlock * m.pos)
        (∀ i, m.todo = [] → m.buf (h.key j) = none → m.rpos ≤ i → i < r.m * h.nb → m.asked (h.key i) = false →
          (∀ q, m.rpos ≤ q → q < i → m.asked (h.key q) = true) →
          ReadsBlock (.accld c t) s c t m { m with rpos := i + 1 } (h.key i) (h.addr i) 64)
        ∧ (∀ b, m.todo = [] → m.buf (h.key j) = some b → h.fault r.acc b (h.addr j) = none → ∃ u, exec (.accld c t) s = .next u
            ∧ (u.core c).command t = some { m with todo := (List.range n).map (fun i =>
                if r.acc = 0 then (rneFp32 (b.element h.df i)).toNat else if r.acc = 1 then (BitVec.ofInt 32 (b.int h.df i)).toNat else (rneFp64 (b.element h.df i)).toNat) }
            ∧ EnginesOnly k (u.core c) ∧ SameBeyond s u c)
        ∧ (m.todo ≠ [] → UpdatesAcc (.accld c t) s c r.acc (r.row + m.row) (r.col + h.df.perBlock * m.pos + m.kept) (m.todo.getD m.kept 0)
            (fun m' => m.kept + 1 < n → m' = { m with kept := m.kept + 1 }) t))

/-- R37, R104, R115, R116, R185, R248, R251, R290: an arm test that comes first takes its levels at once; a command that must stop does so at a
progress point; a command whose work is done frees its entries and, with NOTIFY, sends its message; one of whose reads was refused ends refused
once what it had read before is written, INFO counting the bytes written; a move that is answered commits, in no cycle in which a RESPOND of its
entry has retired.

Model's choice where the spec leaves it open: log 11. -/
def Obligations.CommandsArmStopAndFinish : Prop :=
  ∀ (s : State) (c t pick : Nat) (m : Command), m.ticket = t → (s.core c).command t = some m → let k := s.core c; let w := m.word
    let sent := (w.extractLsb' (192 + 20) 6).toNat
    (k.armNext m = true → ∃ u, exec (.commandArmed c t) s = .next u
      ∧ (u.core c).command t = some { m with armed := some ((armChans w).map (fun ch => (ch, (k.chan ch).arm))) }
      ∧ (∀ ch, ch < 64 → (u.core c).chan ch = if ch ∈ armChans w then { k.chan ch with cnt := (k.chan ch).cnt - (k.chan ch).arm } else k.chan ch)
      ∧ { u.core c with eng := k.eng, chans := k.chans } = k ∧ SameBeyond s u c)
    ∧ (m.running = true → m.stopping = true → m.stopped = false → m.done = none → m.halted = none →
        (m.parked.isSome = true ∧ (∀ x, x ∈ m.reads → x.sent = false) ∧ (∀ x, x ∈ m.writes → x.sent = false)
          ∨ m.reads = [] ∧ m.writes = [] ∧ m.xfer = .idle ∧ atBoundary m = true) → m.own = [] →
        ∃ u, exec (.progressPointStop c t) s = .next u ∧ (u.core c).command t = some { m with stopped := true }
          ∧ { u.core c with eng := k.eng } = k ∧ SameBeyond s u c)
    ∧ (∀ code info, code ∈ codes → Runs s c t code m → nextAct k s.fab.device m pick = .finish info →
        (code = 0x01 ∨ code = 0x02 ∨ pick = 0) →
        CanAnnounce k m → ∃ u, exec (engineInstr code c t pick) s = .next u ∧ IsOver (u.core c) m
          ∧ (cmdNotify w = true → Announces k (u.core c) m 0 info)
          ∧ (cmdNotify w = false → EnginesOnly k (u.core c)) ∧ SameBeyond s u c)
    ∧ (∀ code r, code ∈ codes → code ≠ 0x14 → cmdCode w = code → m.running = true → m.moves = true → m.own = [] → m.reads = [] → m.writes = [] →
        m.refusal = some r → cmdNotify w = true → CanAnnounce k m → (code = 0x01 ∨ code = 0x02 ∨ pick = 0) →
        (let act := nextAct k s.fab.device m pick; act = .rest ∨ (∃ info, act = .finish info) ∨ ∃ m' key a n, act = .read m' key a n) →
        ∃ u, exec (engineInstr code c t pick) s = .next u ∧ IsOver (u.core c) m ∧ Announces k (u.core c) m 0x05 m.made ∧ SameBeyond s u c)
    ∧ (∀ d, m.running = true → cmdCode w = 0x14 → m.moves = true → m.kept = 1 → m.reads = [] → m.writes = [] → m.own = [] →
        k.responded ≠ some (sent, k.cycle) → m.pos = (w.extractLsb' 192 20).toNat →
        (k.entry sent).owed = 0 → k.moveSettled m = true → (decodeAddr k.page s.fab.device (dwordAt w 2)).dest = some d →
        ∃ u, exec (.commit c t) s = .next u ∧ (u.core c).command t = some { m with xfer := .committing, wait := 1, unit := m.unit + 1 }
          ∧ ((u.core c).entry sent).state = .free ∧ (∀ n, n < 64 → n ≠ sent → (u.core c).entry n = k.entry n)
          ∧ LeavesFor s u c m d (.move (.commit (k.entry sent).answered.toNat (w.extractLsb' (192 + 26) 6).toNat))
          ∧ SameBeyond s { u with net := s.net } c)


/-! Steps of the part that no slot issues: the matcher, the NI, packets where they arrive (R65, R113, R126, R127, R190 to R216, R222 to R224,
R278, R279, R284, R285) -/

namespace Sys2Proof.Claims

/-- Packet k arrives: it is `p`, and `s1` is the state without it. -/
def Arrives (s : State) (k : Nat) (p : Packet) (s1 : State) : Prop := s.arrival k = some (p, s1)

/-- The rights of a read, a store, an atomic, a send, and of header accesses (R126). -/
def readRight : Rights := ⟨true, false, false, false, false⟩

/-- Pattern j may fire (R222): below NPAT, enabled, and each of its terms satisfied, a MSG channel by a message and a COUNT channel by its
threshold. -/
def Eligible (k : Core) (j : Nat) : Prop :=
  let p := k.pat j
  j < 32 ∧ j < k.page.npat ∧ patEnabled p = true ∧ ∀ a, a < min (patTerms p) 4 → let x := k.chan (patChan p a)
    (k.isMsg (patChan p a) = true ∧ 0 < x.held) ∨ (k.isCount (patChan p a) = true ∧ patThresh p a ≤ x.cnt)

/-- Pattern w is the one that fires (R223): of the eligible ones of the highest PRIO the first from PTR on, round the table. -/
def Chosen (k : Core) (w : Nat) : Prop :=
  let after (j : Nat) := (j + 32 - k.ptr % 32) % 32
  Eligible k w ∧ ∀ j, Eligible k j → patPrio (k.pat j) < patPrio (k.pat w) ∨ (patPrio (k.pat j) = patPrio (k.pat w) ∧ after w ≤ after j)

/-- User slot i holds no activation (R222). -/
def FreeSlot (k : Core) (i : Fin 5) : Prop := i.val < k.page.nslot ∧ i.val < 4 ∧ (k.slot i).state = .free

/-- An access of `p` to [off, off + n) with the rights `r` is admitted (R120, R126, R127, R292): to the gang page a read of the core's own gang; else
within the limits of its kind and within one valid window that names its source and holds every right. A sealed core admits its own gang alone. -/
def Admits (k : Core) (p : Packet) (off n : Nat) (r : Rights) : Prop :=
  let own : Prop := (∃ b, p.src = .core b) ∧ k.gang = some p.gang ∧ p.tenant = k.tenant
  let names (src : BitVec 2) : Prop := (src = 0#2 ∧ own) ∨ (src = 1#2 ∧ p.src ≠ .hub ∧ p.tenant = k.tenant) ∨ (src = 2#2 ∧ p.src = .hub)
  let limit : Prop := if r.send then 0xC0000 ≤ off ∧ off + 16 ≤ 0xC0400 ∧ off % 16 = 0
    else 0x100 ≤ off ∧ (off + n ≤ 0x60000 ∨ (r.read = true ∧ r.write = false ∧ r.reduce = false ∧ 0x80000 ≤ off ∧ off + n ≤ 0x90000))
  k.gang ≠ none ∧ (own ∨ (k.ctl.pre ≠ .sealed ∧ k.ctl.pre ≠ .saved))
    ∧ (off + n ≤ 0x100 → own ∧ r = readRight)
    ∧ (0x100 < off + n → limit ∧ ∃ w, w ∈ k.windows.toList ∧ w.getLsbD 63 = true ∧ names (w.extractLsb' 50 2)
        ∧ (w.extractLsb' 0 20).toNat ≤ off ∧ off + n ≤ (w.extractLsb' 20 20).toNat
        ∧ (r.read = true → w.getLsbD 45 = true) ∧ (r.write = true → w.getLsbD 46 = true) ∧ (r.reduce = true → w.getLsbD 47 = true)
        ∧ (r.send = true → w.getLsbD 48 = true) ∧ (r.header = true → w.getLsbD 49 = true))

/-- The same for a store, a reduction, an atomic and a header write, which a DEST lock over any of its bytes refuses (R113). -/
def AdmitsWrite (k : Core) (p : Packet) (off n : Nat) (r : Rights) : Prop :=
  Admits k p off n r ∧ ∀ l j, some l ∈ k.locks.toList → l.dest = true → j < n → ¬ (l.base ≤ off + j ∧ off + j < l.limit)

end Sys2Proof.Claims

/-- R24, R190, R222 to R224, R213, R279: of the eligible patterns of the highest priority the matcher fires the first from PTR on into the lowest free
slot, consuming each of its terms, and the slot starts at its handler with what R24 gives its registers; without an eligible pattern or a free slot,
before the release of the gang and in a pre-emption nothing fires; a ONESHOT pattern is disabled; a message that waited for room enters its channel; a slot outside a trap takes its oldest pending REFUSED; a buffer whose oldest element
has been held AGEMAX cycles, or that is due, leaves as one retained packet.

Model's choice where the spec leaves it open: log 68. -/
def Obligations.CoreStepsRun : Prop :=
  ∀ (s : State) (c : Nat), let k := s.core c
    (k.matching = false ∨ k.ctl.pre ≠ .none ∨ (∀ j, ¬ Eligible k j) ∨ (∀ i, ¬ FreeSlot k i) → exec (.matcherFiring c) s = .next s)
    ∧ (∀ w i, k.matching = true → k.ctl.pre = .none → Chosen k w → FreeSlot k i → (∀ j, j < i → ¬ FreeSlot k j) → k.armTakes w = false →
      let p := k.pat w; let terms := min (patTerms p) 4
      (∀ a b, a < terms → b < terms → patChan p a = patChan p b → a = b) →
      ∃ t, exec (.matcherFiring c) s = .next t ∧ SameBeyond s t c ∧ (t.core c).ptr = (w + 1) % 32
        ∧ (∀ j, j ≠ i → (t.core c).slot j = k.slot j)
        ∧ (∀ n, n < 32 → (t.core c).pat n = if n ≠ w then k.pat n else if patOneshot p then p &&& ~~~(1#256 <<< 48) else p)
        ∧ (∀ ch, ch < 64 → (∀ a, a < terms → patChan p a ≠ ch) → (t.core c).chan ch = k.chan ch)
        ∧ (let x := (t.core c).slot i; let g (a : Nat) : Dword := x.reg (BitVec.ofNat 5 (a + 1)); let sender (a : Nat) := (x.reg 5).extractLsb' (16 * a) 16
          { x with g := Slot.reset.g } = { Slot.reset with state := .active, pc := BitVec.ofNat 64 (patHandler p), prio := patPrio p, act := (k.slot i).act + 1 }
          ∧ (∀ r, x.mask r = if r = 0 then BitVec.allOnes 64 else 0) ∧ (∀ r, x.vreg r = 0)
          ∧ x.reg 6 = BitVec.ofNat 64 (i.val * 256 + w) ∧ (∀ r : BitVec 5, 6 < r.toNat → x.reg r = 0)
          ∧ (∀ a, terms ≤ a → a < 4 → g a = 0 ∧ sender a = 0)
          ∧ (∀ a, a < terms → let ch := patChan p a
              (k.isCount ch = true → (t.core c).chan ch = { k.chan ch with cnt := (k.chan ch).cnt - patThresh p a } ∧ g a = BitVec.ofNat 64 (patThresh p a)
                ∧ sender a = 0x1FFE)
              ∧ (∀ m rest, k.isMsg ch = true → (k.chan ch).msgs = m :: rest → ((t.core c).chan ch).held + 1 = (k.chan ch).held ∧ g a = m.1 ∧ sender a = m.2
                ∧ ((k.chan ch).spill = 0 → ((t.core c).chan ch).msgs = rest)))))
    ∧ (∀ ch m, k.held.find? (fun x => decide (x.ch = ch)) = some m → k.isMsg ch = true → (k.chan ch).held < 8 + (k.chan ch).rent →
        (m.src = .fault ∨ m.src = .barrier ∨ m.src = .notice) → ∃ t, exec (.heldMessageDelivery c ch) s = .next t
          ∧ (t.core c).held = k.held.erase m ∧ ((t.core c).chan ch).held = (k.chan ch).held + 1 ∧ SameBeyond s t c)
    ∧ (∀ n tval rest cause, n < 4 → (k.slot (slotNo n)).pendTraps = (cause, tval) :: rest → (k.slot (slotNo n)).intrap = false →
        (k.slot (slotNo n)).state = .active → k.midway (slotNo n) = false → k.trapEntry ≠ 0 → ∃ t, exec (.asyncTrap c n) s = .next t
          ∧ (t.core c).slot (slotNo n) = { k.slot (slotNo n) with
              pendTraps := rest, cause := BitVec.ofNat 8 cause, tval := tval, epc := (k.slot (slotNo n)).pc, intrap := true, fencing := false,
              pc := k.trapEntry }
          ∧ (∀ j, j ≠ slotNo n → (t.core c).slot j = k.slot j) ∧ { t.core c with slots := k.slots } = k ∧ SameBeyond s t c)
    ∧ (∀ n b, n < 16 → k.ni.bufs[(bufNo n)] = some b → k.ni.room b.dest 1 = true →
        let leaves (t : State) : Prop := (t.core c).ni.bufs[(bufNo n)] = none
          ∧ (∃ r, (t.core c).ni.retained = k.ni.retained ++ [r] ∧ r.dest = b.dest ∧ r.items.map Item.el = b.elems)
          ∧ t.net.length = s.net.length + 1 ∧ { t.core c with ni := k.ni } = k ∧ SameBeyond s { t with net := s.net } c
        (b.oldest + k.ctl.agemax ≤ k.cycle → ∃ t, exec (.holdBoundExpiry c n) s = .next t ∧ leaves t)
        ∧ (b.due = true → ∃ t, exec (.bufferLeave c n) s = .next t ∧ leaves t))

/-- R113, R114, R126, R127, R193 to R197, R213, R215, R348: a core serves a request that its gang page, windows and locks admit (`Admits`) and
answers it, a write before its answer, and answers any other REFUSED with nothing changed; the locks do not check an engine's writes. The credit of
a block, and of the elements of a packet, is a step of its own after their bytes.

Model's choice where the spec leaves it open: log 16, 51, 68, 85. -/
def Obligations.CoresServeRequests : Prop :=
  ∀ (s s1 : State) (n c : Nat) (p : Packet), Arrives s n p s1 → p.dst = .core c → let k := s.core c
    let net := s.net.eraseIdx n; let reply (b : Body) : Packet := { answer p p.tag b with due := k.cycle + 1 }
    let answers (b : Body) : State := { s with net := net ++ [reply b] }
    let updates (k' : Core) (b : Body) : State := { s.setCore c k' with net := net ++ [reply b] }
    (∀ a len e, p.body = .load a len e → let off := (a.extractLsb' 0 20).toNat
      (Admits k p off len readRight → exec (.load n) s = .next (answers (.reply (k.ownBytes off len) (k.header off))))
      ∧ (¬ Admits k p off len readRight → exec (.load n) s = .next (answers (.nak 0x05 false a))))
    ∧ (∀ a w op b x, p.body = .amo a w op b x → let off := (a.extractLsb' 0 20).toNat; let old := readLE k.ls off w
      (AdmitsWrite k p off w ⟨true, false, true, false, false⟩ → off + w ≤ 0x60000 →
        exec (.amo n) s = .next (updates (k.writeLs off (leBytes w (amoResult op w old b.toNat x.toNat))) (.reply (leBytes w old) 0)))
      ∧ (¬ AdmitsWrite k p off w ⟨true, false, true, false, false⟩ → exec (.amo n) s = .next (answers (.nak 0x05 false a))))
    ∧ (∀ a, p.body = .hdrRead a → let off := (a.extractLsb' 0 20).toNat / 64 * 64
      (Admits k p off 64 ⟨true, false, false, false, true⟩ → exec (.hdr n) s = .next (answers (.reply [] (k.header off))))
      ∧ (¬ Admits k p off 64 ⟨true, false, false, false, true⟩ → exec (.hdr n) s = .next (answers (.nak 0x05 false a))))
    ∧ (∀ a h, p.body = .hdrWrite a h → let off := (a.extractLsb' 0 20).toNat / 64 * 64
      (AdmitsWrite k p off 64 ⟨false, true, false, false, true⟩ → exec (.hdr n) s = .next (updates (k.setLsHdr off h) (.ack [])))
      ∧ (¬ AdmitsWrite k p off 64 ⟨false, true, false, false, true⟩ → exec (.hdr n) s = .next (answers (.nak 0x05 false a))))
    ∧ (∀ a bs e src cr, p.body = .block a bs e src cr → let off := (a.extractLsb' 0 20).toNat
      let r : Rights := ⟨false, true, false, false, decide (∃ h, e = .set h)⟩
      let ok : Prop := if src = .engine then Admits k p off bs.length r else AdmitsWrite k p off bs.length r
      (ok → cr = none → exec (.block n) s = .next (updates (k.writeBlock off bs e) (.ack [])))
      ∧ (∀ ch, ok → cr = some ch → k.isCount ch = true → exec (.block n) s
          = .next { s.setCore c (k.writeBlock off bs e) with net := s.net.set n { p with body := .crediting bs.length ch } })
      ∧ (¬ ok ∨ (∃ ch, cr = some ch ∧ k.isCount ch = false) → exec (.block n) s = .next (answers (.nak 0x05 false a))))
    ∧ (∀ bytes ch, p.body = .crediting bytes ch → k.isCount ch = true → let x := k.chan ch
      (x.cnt + bytes < 2 ^ 48 → exec (.block n) s = .next (updates (k.setChan ch { x with cnt := x.cnt + bytes }) (.ack [])))
      ∧ (2 ^ 48 ≤ x.cnt + bytes → exec (.block n) s = .next (answers (.nak 0x0B false 0))))
    ∧ (∀ a count v, p.body = .send a count v → let off := (a.extractLsb' 0 20).toNat; let ch := (off - 0xC0000) / 16; let x := k.chan ch
      (¬ Admits k p off 16 ⟨false, false, false, true, false⟩ → exec (.sendPacket n) s = .next (answers (.nak 0x05 false a)))
      ∧ (Admits k p off 16 ⟨false, false, false, true, false⟩ →
        (count = false → k.isMsg ch = true → x.held < 8 + x.rent →
          exec (.sendPacket n) s = .next (updates (k.push ch (v, senderField s k p)) (.ack [])))
        ∧ (count = false → k.isMsg ch = true → 8 + x.rent ≤ x.held → exec (.sendPacket n) s = .next (answers (.nak 0x0B false a)))
        ∧ (count = true → k.isCount ch = true → x.cnt + (v.extractLsb' 0 48).toNat < 2 ^ 48 →
          exec (.sendPacket n) s = .next (updates (k.setChan ch { x with cnt := x.cnt + (v.extractLsb' 0 48).toNat }) (.ack [])))
        ∧ ((if count then k.isCount ch else k.isMsg ch) = false → exec (.sendPacket n) s = .next (answers (.nak 0x05 false a)))))
    ∧ (∀ e rest cdc done, elementsOf p.body = some (e :: rest, cdc, done) →
      (done = [] → cdc.testBit 6 = true → k.isCount (cdc % 64) = false → exec (.elements n) s = .next (answers (.nak 0x05 false e.addr)))
      ∧ ((done = [] → cdc.testBit 6 = true → k.isCount (cdc % 64) = true) → let off := (e.addr.extractLsb' 0 20).toNat
        let ok : Prop := AdmitsWrite k p off e.width (if e.op = .store then ⟨false, true, false, false, false⟩ else ⟨false, false, true, false, false⟩)
        let after (k' : Core) (r : ElemResult) : State := { s.setCore c k' with net := s.net.set n { p with body := .applying rest cdc (done ++ [r]) } }
        (ok → exec (.elements n) s = .next (after (k.writeLs off (leBytes e.width (elemResult e.op e.width (readLE k.ls off e.width) e.value.toNat)))
            (.applied (e.width * e.mult) 0 0)))
        ∧ (¬ ok → exec (.elements n) s = .next (after k (.naked 0x05 false e.addr)))))
    ∧ (∀ cdc done, p.body = .applying [] cdc done → done ≠ [] →
      let ch := cdc % 64; let credit : Prop := cdc.testBit 6 = true ∧ k.isCount ch = true; let x := k.chan ch
      let ends (k' : Core) (b : Body) : Prop := ∃ t q, exec (.elements n) s = .next t ∧ t.net = net ++ [q] ∧ q.dst = p.src ∧ q.body = b ∧ t.core c = k'
        ∧ SameBeyond s { t with net := s.net } c
      ((∀ r, r ∈ done → ElemResult.isApplied r = true) →
        (¬ credit → ends k (.ack []))
        ∧ (credit → x.cnt + creditedBytes done < 2 ^ 48 → ends (k.setChan ch { x with cnt := x.cnt + creditedBytes done }) (.ack []))
        ∧ (credit → 2 ^ 48 ≤ x.cnt + creditedBytes done → ends k (.nak 0x0B false 0)))
      ∧ ((∀ r, r ∈ done → ∃ va, r = .naked 0x05 false va) → ¬ credit → ∃ va, ends k (.nak 0x05 false va)))

/-- R63, R67, R71, R156, R193, R197, R345, R346: a station that translates every page of a request applies it to device memory and answers with the
page's scope, a read with the bytes and the header of its first block. The elements of a packet have a step each and the answer one of its own;
an access to two pages of the station, and a held part that its core releases, goes block by block.

Model's choice where the spec leaves it open: log 68. -/
def Obligations.StationsServeRequests : Prop :=
  ∀ (s s1 : State) (n st : Nat) (p : Packet), Arrives s n p s1 → p.dst = .station st → let net := s.net.eraseIdx n
    let done (s2 : State) (m : DevMem) (b : Body) : State := { s2 with mem := m, net := net ++ [answer p p.tag b] }
    let pa (ms : List Mapped) : Nat := (ms.head?.map Mapped.pa).getD 0
    (∀ a len e s2 ms, p.body = .load a len e → spans a len = false → mapRange s1 st p.asid a false false (pageParts a len) = (s2, .ok ms) → s2.net = net →
      exec (.load n) s = .next (done s2 s2.mem (.reply (ms.flatMap (fun x => readBytes s2.mem.bytes x.pa x.len)) (s2.mem.header (pa ms)))))
    ∧ (∀ a w op b x s2 ms, p.body = .amo a w op b x → mapRange s1 st p.asid a true false [(0, w)] = (s2, .ok ms) → s2.net = net →
      let old := readLE s2.mem.bytes (pa ms) w
      exec (.amo n) s = .next (done s2 (s2.mem.write (pa ms) (leBytes w (amoResult op w old b.toNat x.toNat))) (.reply (leBytes w old) 0)))
    ∧ (∀ a s2 ms, p.body = .hdrRead a → mapRange s1 st p.asid a false false [(0, 64)] = (s2, .ok ms) → s2.net = net →
      exec (.hdr n) s = .next (done s2 s2.mem (.reply [] (s2.mem.header (pa ms)))))
    ∧ (∀ a h s2 ms, p.body = .hdrWrite a h → mapRange s1 st p.asid a true false [(0, 64)] = (s2, .ok ms) → s2.net = net →
      exec (.hdr n) s = .next (done s2 (s2.mem.setHeader (pa ms) h) (.ack (Mapped.scopes ms))))
    ∧ (∀ a bs h src ch s2 ms, p.body = .block a bs (.set h) src ch → mapRange s1 st p.asid a true (wholeBlock (.set h) bs) (pageParts a bs.length) = (s2, .ok ms) →
      s2.net = net → exec (.block n) s = .next (done s2 (s2.mem.writeBlock (pa ms) bs h) (.ack (Mapped.scopes ms))))
    ∧ (∀ e rest cdc done s2 x, elementsOf p.body = some (e :: rest, cdc, done) → mapRange s1 st p.asid e.addr true false [(0, e.width)] = (s2, .ok [x]) →
      s2.net = net → let new := elemResult e.op e.width (readLE s2.mem.bytes x.pa e.width) e.value.toNat
      let s3 := { s2 with mem := s2.mem.write x.pa (leBytes e.width new) }; let all := done ++ [.applied 0 x.page x.scope]
      exec (.elements n) s = .next { s3 with net := s.net.set n { p with body := .applying rest cdc all } })
    ∧ (∀ cdc done, p.body = .applying [] cdc done → done ≠ [] → (∀ r, r ∈ done → ElemResult.isApplied r = true) →
      ∃ q sc, exec (.elements n) s = .next { s with net := net ++ [q] } ∧ q.dst = p.src ∧ q.body = .ack sc
        ∧ ∀ b page scope, .applied b page scope ∈ done → (page, scope) ∈ sc)
    ∧ (∀ a bs src ch s2 ms, p.body = .block a bs .keep src ch → spans a bs.length = false →
      mapRange s1 st p.asid a true false (pageParts a bs.length) = (s2, .ok ms) → s2.net = net →
      exec (.block n) s = .next (done s2 (s2.mem.write (pa ms) bs) (.ack (Mapped.scopes ms))))
    ∧ (∀ a bs src ch s2 ms, p.body = .block a bs .keep src ch → spans a bs.length = true →
      mapRange s1 st p.asid a true true (pageParts a bs.length) = (s2, .ok ms) → s2.net = net →
      exec (.block n) s = .next { s2 with net := s.net.set n { p with body := .partway true (blocksOf a bs.length ms bs) [] (Mapped.scopes ms) none } })
    ∧ (∀ a len e s2 ms, p.body = .load a len e → spans a len = true →
      mapRange s1 st p.asid a false true (pageParts a len) = (s2, .ok ms) → s2.net = net →
      exec (.load n) s = .next { s2 with net := s.net.set n { p with body := .partway false (blocksOf a len ms []) [] (Mapped.scopes ms) none } })
    ∧ (∀ (w : Bool) x rest data sc bad, p.body = .partway w (x :: rest) data sc bad → let i : Instr := if w then .block n else .load n
      let err := s.mem.isBad x.pa x.len
      let mem := if w = true ∧ err = false then s.mem.write x.pa x.bytes else s.mem
      let data' := if w = false ∧ err = false then data ++ readBytes s.mem.bytes x.pa x.len else data
      let bad' : Option Dword := if err then some (bad.getD x.va) else bad
      (rest ≠ [] → exec i s = .next { s with mem := mem, net := s.net.set n { p with body := .partway w rest data' sc bad' } })
      ∧ (∀ va, rest = [] → bad' = some va → exec i s = .next { s with mem := mem, net := net ++ [answer p p.tag (.nak 0x0A false va)] })
      ∧ (rest = [] → bad' = none → exec i s = .next { s with mem := mem, net := net ++ [answer p p.tag (if w then .ack sc else .reply data' 0)] }))
    ∧ (∀ ap h, p.body = .release ap → s.mem.heldPart st p.src p.tag = some h →
      let s4 : State := { s with mem := { s.mem with heldParts := s.mem.heldParts.filter (fun x => decide (x ≠ h)) } }
      (ap = false → exec (.load n) s = .next { s4 with net := net })
      ∧ (∀ a bs, ap = true → h.packet.body = .heldWrite a bs → bs ≠ [] → bs.length ≤ 256 → ∃ todo,
          exec (.load n) s = .next { s4 with net := { h.packet with body := .partway true todo [] h.scopes none } :: net }
          ∧ todo.map (fun x => (x.va, x.len)) = blockParts a bs.length
          ∧ ∀ x, x ∈ todo → let o := (x.va - a).toNat; x.pa = h.pa + o ∧ x.bytes = (bs.drop o).take x.len))

/-- R71, R116, R136, R137, R156, R158, R185, R194, R197, R205, R207, R216, R284, R285, R286: a reply to a load, an LDHDR, an atomic, a vector load or a
VDEC is kept until every part of its request is answered, and with the last one the register that the request names, in the activation that issued
it, takes what the parts have brought; a refusal is logged, writes zero and leaves a REFUSED trap pending; that of a command's read is noted, and the
command goes on with what it had read before; an acknowledgement settles its items; XLATE parks, and is logged; a repair
message adds 1 to REPAIRS; 1,024 cycles after a NAK with NOPARK everything parked is sent again.

Model's choice where the spec leaves it open: log 26. -/
def Obligations.AnswersTakeEffect : Prop :=
  ∀ (s s1 : State) (n c : Nat) (p : Packet), Arrives s n p s1 → p.dst = .core c → let k := s.core c
    (∀ uid j q pt bs h, p.tag = .request uid j → k.ni.reqs = [q] → q.uid = uid → q.parts[j]? = some pt → q.discard = false → q.refused = none →
      k.runs q.slot q.act = true → p.body = .reply bs h → (∀ d part, q.kind = .vdec d part → k.cbFault (viewBlock .fp32 h) = none) →
      let x := k.slot (slotNo q.slot); let q' := { q with parts := q.parts.set j { pt with st := .got bs h } }
      let brings (y : ReqPart) (i : Nat) (v : Byte) : Prop := ∃ l g, y.st = .got l g ∧ y.off ≤ i ∧ i < y.off + l.length ∧ v = l.getD (i - y.off) 0
      let last := ∀ i y, i ≠ j → q.parts[i]? = some y → ∃ l g, y.st = .got l g
      ∃ t, exec (.reply n) s = .next t ∧ t.net = s.net.eraseIdx n ∧ SameBeyond s { t with net := s.net } c
        ∧ ((∃ i y, i ≠ j ∧ q.parts[i]? = some y ∧ y.st.final = false) → (t.core c).ni.reqs = [q'] ∧ { t.core c with ni := k.ni } = k)
        ∧ (last → (t.core c).ni.reqs = [] ∧ (
           let y := (t.core c).slot (slotNo q.slot)
           let gives (d : BitVec 5) (v : Dword) : Prop := ∀ r, y.reg r = if r = d ∧ d ≠ 0 then v else x.reg r
           let fills (d : BitVec 5) (v : VReg → Prop) : Prop := v (y.vreg d) ∧ ∀ r, r ≠ d → y.vreg r = x.vreg r
           let filled (d : BitVec 5) : Prop := (∀ i, q'.parts.Pairwise (fun a b => ¬ ∃ v w, brings a i v ∧ brings b i w)) →
             fills d (fun v => ∀ i, i < 256 → (∀ z u, z ∈ q'.parts → brings z i u → byteOf v i = u)
               ∧ ((∀ z, z ∈ q'.parts → ¬ ∃ u, brings z i u) → byteOf v i = byteOf (x.vreg d) i))
           match q.kind with
           | .load d w sg => q.parts.length = 1 → gives d (loadValue w sg (leNat (bs.take w)))
           | .ldhdr d => q.parts.length = 1 → gives d (h.zeroExtend 64)
           | .amo d w _ _ _ => q.parts.length = 1 → gives d (if w = 8 then BitVec.ofNat 64 (leNat (bs.take w)) else (BitVec.ofNat 32 (leNat (bs.take w))).signExtend 64)
           | .vload d => filled d
           | .vlanes d => filled d
           | .vdec d part => q.parts.length = 1 → fills d (fun v => ∀ i, i < 64 → let e := 64 * part + i; let b := viewBlock .fp32 h
               lane v i = if e < b.fmt.perBlock then rneFp32 (decodeElement b k.cbEntry (blockOf bs) e) else 0))))
    ∧ (∀ uid q d w sg a np, p.tag = .request uid 0 → k.ni.reqs = [q] → q.uid = uid → q.kind = .load d w sg → q.parts.length = 1 → q.discard = false →
      q.refused = none → k.runs q.slot q.act = true →
      (p.body = .nak 0x05 np a → ∃ t, exec (.nak n) s = .next t ∧ (t.core c).ni.reqs = []
        ∧ ((t.core c).slot (slotNo q.slot)).pendTraps = (k.slot (slotNo q.slot)).pendTraps ++ [(0x05, q.ea)]
        ∧ (d ≠ 0 → ((t.core c).slot (slotNo q.slot)).reg d = 0)
        ∧ t.hub.log.getLast? = some ⟨c, q.slot, 0x05, some k.tenant⟩ ∧ SameBeyond s { t with net := s.net, hub := s.hub } c)
      ∧ (p.body = .nak 0x07 np a → ∃ t q', exec (.nak n) s = .next t ∧ (t.core c).ni.reqs = [q'] ∧ q'.parked = true ∧ q'.uid = uid
        ∧ ((k.slot (slotNo q.slot)).state = .active → ((t.core c).slot (slotNo q.slot)).state = if k.midway (slotNo q.slot) then .active else .parked)
        ∧ t.hub.log.getLast? = some ⟨c, q.slot, 0x07, some k.tenant⟩ ∧ { t.hub with log := s.hub.log, host := s.hub.host } = s.hub
        ∧ SameBeyond s { t with net := s.net, hub := s.hub } c))
    ∧ (∀ uid r sc, p.tag = .retained uid (List.range r.items.length) → k.ni.retained = [r] → r.uid = uid → p.body = .ack sc →
      ∃ t, exec (.ack n) s = .next t ∧ (t.core c).ni.retained = [] ∧ t.net = s.net.eraseIdx n ∧ SameBeyond s { t with net := s.net } c)
    ∧ (∀ tk u m r np a, p.tag = .engine tk u → k.command tk = some m → m.ticket = tk → m.halted = none → p.body = .nak 0x05 np a →
      m.reads.find? (fun r => r.sent && decide (r.unit = u)) = some r →
      ∃ t, exec (.nak n) s = .next t ∧ (t.core c).command tk = some { m.without u with refusal := some (match m.refusal with
          | some y => if r.key < y.1 then (r.key, a) else y
          | none => (r.key, a)) }
        ∧ (m.refusal = none → t.hub.log.getLast? = some ⟨c, m.slot, 0x05, some k.tenant⟩)
        ∧ { t.core c with eng := k.eng } = k ∧ SameBeyond s { t with net := s.net, hub := s.hub } c)
    ∧ (∀ asid page, p.body = .repair asid page → k.ctl.pre.isSealed = false → ∃ t, exec (.repair n) s = .next t
        ∧ (t.core c).ctl.repairs = min 255 (k.ctl.repairs + 1) ∧ { t.core c with ctl := { (t.core c).ctl with repairs := k.ctl.repairs } } = k
        ∧ SameBeyond s { t with net := s.net } c)
    ∧ (k.ctl.pre = .none → (∃ m, m ∈ k.noParks ∧ m + 1024 ≤ k.cycle) → ∃ t, exec (.noparkRetry c) s = .next t ∧ (t.core c).parkedCount = 0
        ∧ (t.core c).ctl.repairs = 0 ∧ (∀ b, b ≠ c → t.core b = s.core b) ∧ SameMemory s t)

/-- R62, R64, R65, R71, R194: with its image there the memory manager's release of a page drops its cached translations and its park entries
and tells every core recorded, once from each station; an invalidation waits while a request translated under the page or in the ASID is held
or part-way through its station, a host access is, or an acknowledgement is on its way, and then leaves no cached translation and no scope of the page or of the ASID; a page that will not be mapped
turns the fault of a request that waits for it, and of an answer on its way, to PROT for its gang; an uncorrectable error marks the block.

Model's choice where the spec leaves it open: log 19, 34, 72. -/
def Obligations.PagesChange : Prop :=
  ∀ (s : State) (asid page pa : Nat), s.fw.absent 2 = false →
    let level := s.mem.pageLevel asid (page * 65536)
    let meets (r : PageRef) (e : Tlb) : Prop := samePage (max r.level e.level) r.page (e.page * 2 ^ (pageBits e.level - 16)) = true
    let ofPage (e : Park) : Prop := e.asid = asid ∧ samePage (max level e.level) e.page page = true
    let told (u : State) (st c : Nat) : Nat := u.net.countP (fun p => decide (p.src = .station st) && decide (p.dst = .core c) && decide (p.body = .repair asid page))
    let inPage (a : Dword) : Prop := a.getLsbD 63 = true ∧ (a.extractLsb' 16 40).toNat = page
    (∃ t, exec (.pageRelease asid page) s = .next t ∧ (∀ e, e ∈ t.mem.tlb ↔ e ∈ s.mem.tlb ∧ ¬ (e.asid = asid ∧ meets ⟨page, level⟩ e))
      ∧ (∀ e, e ∈ t.mem.parks ↔ e ∈ s.mem.parks ∧ ¬ ofPage e) ∧ (asid, page) ∉ t.mem.denied
      ∧ (∀ e c, e ∈ s.mem.parks → ofPage e → c ∈ e.cores → told t e.station c = told s e.station c + 1)
      ∧ (∀ st c, told t st c ≤ told s st c + 1)
      ∧ t.cores = s.cores ∧ t.hub = s.hub ∧ t.mem.bytes = s.mem.bytes ∧ t.mem.hdrs = s.mem.hdrs)
    ∧ (∀ r : Option PageRef, let under (q : Nat) : Prop := ∀ x, r = some x → samePage x.level q x.page = true
      let pending : Prop := (∃ h x, h ∈ s.mem.heldParts ∧ h.packet.asid = asid ∧ x ∈ h.scopes ∧ under x.1)
        ∨ (∃ p sc x, p ∈ s.net ∧ p.asid = asid ∧ p.body = .ack sc ∧ x ∈ sc ∧ under x.1)
        ∨ (∃ p es cdc done n q sc, p ∈ s.net ∧ p.asid = asid ∧ p.body = .applying es cdc done ∧ .applied n q sc ∈ done ∧ under q)
        ∨ (∃ p w todo data sc bad x, p ∈ s.net ∧ p.asid = asid ∧ p.body = .partway w todo data sc bad ∧ x ∈ sc ∧ under x.1)
        ∨ (∃ x a l b, x ∈ s.fab.sessions ∧ a ∈ x.waiting ∧ a.window.asid = asid ∧ a.todo = some l ∧ b ∈ l ∧ under (b.va / 65536))
      (pending → exec (.invalidation asid r) s = .next s)
      ∧ (¬ pending → ∃ t, exec (.invalidation asid r) s = .next t
        ∧ (∀ e, e ∈ t.mem.tlb ↔ e ∈ s.mem.tlb ∧ ¬ (e.asid = asid ∧ ∀ x, r = some x → meets x e))
        ∧ (∀ c x, (s.core c).tenant = asidTenant asid → x ∈ (t.core c).ni.scope → ¬ (x.1 = asid ∧ under x.2.1))
        ∧ t.mem.bytes = s.mem.bytes ∧ t.net = s.net ∧ t.hub = s.hub))
    ∧ (∃ t, exec (.xlateUnmappedProt asid page) s = .next t ∧ (asid, page) ∈ t.mem.denied
      ∧ (∀ e, e ∈ t.mem.parks → ¬ (e.asid = asid ∧ e.page = page ∧ e.level = 0))
      ∧ (∀ (i : Nat) p np va, s.net[i]? = some p → p.asid = asid → p.body = .nak 0x07 np va → inPage va → (t.net[i]?).map Packet.body = some (.nak 0x08 np va))
      ∧ (∀ e c q pt np va, e ∈ s.mem.parks → e.asid = asid → e.page = page → e.level = 0 →
          (∀ e', e' ∈ s.mem.parks → e'.asid = asid → e'.page = page → e'.level = 0 → e'.cores = [c]) → (s.core c).asid = asid →
          (s.core c).ni.reqs = [q] → q.split = false → q.parts = [pt] → pt.st = .repair np va → inPage va →
          (t.core c).ni.reqs = [] ∧ ∀ id g, (s.core c).gang = some id → s.gang id = some g → g.state ≠ .ending → g.leaving = false →
            ∃ g' f, t.gang id = some g' ∧ g'.state = .ending ∧ g'.fault = some f ∧ f.cause = 0x08))
    ∧ (pa < 2 ^ 39 → (pa / 64) ∉ s.mem.bad → exec (.uncorrectableError pa) s = .next { s with mem := { s.mem with bad := (pa / 64) :: s.mem.bad } })

/-! The trees and the scheduler (R234 to R248, R255 to R275, R290 to R295) -/

namespace Sys2Proof.Claims

/-- A tree packet of the hub to core `c` is received: it may reach it (R292, R312). -/
def ToCore (s : State) (n c : Nat) (p : Packet) (m : TreeMsg) (s1 : State) : Prop :=
  Arrives s n p s1 ∧ p.src = .hub ∧ p.dst = .core c ∧ p.body = .tree p.gang m ∧ treeReaches s p (forGang m) = true

/-- A tree packet to the root is received. -/
def ToRoot (s : State) (n : Nat) (p : Packet) (m : TreeMsg) (s1 : State) : Prop :=
  Arrives s n p s1 ∧ p.dst = .hub ∧ p.body = .tree p.gang m

/-- The state without packet n and with `ps` sent. -/
def passed (s : State) (n : Nat) (ps : List Packet) : State := { s with net := s.net.eraseIdx n ++ ps }

/-- Slot `t` is cleared at a core: its leaf, and its bits of every entry; nothing else of them (R243). -/
def Clears (k k' : Core) (t : Nat) : Prop :=
  k'.leaf t = Leaf.reset ∧ (∀ j, j < 16 → j ≠ t → k'.leaf j = k.leaf j)
    ∧ (∀ e, e < 64 → (k'.entry e).answered.getLsbD t = false ∧ (k'.entry e).seen.getLsbD t = false
        ∧ (k'.entry e).owed = (k.entry e).owed ∧ (k'.entry e).state = (k.entry e).state)

/-- Channel `ch` of a core has room in its hardware queue for a message of the device, and none waits for it (R212, R213). -/
def RoomAt (k : Core) (ch : Nat) : Prop :=
  k.isMsg ch = true ∧ (k.chan ch).spill = 0 ∧ (k.chan ch).msgs.length < 8 ∧ (∀ m, m ∈ k.held → m.ch ≠ ch)

/-- The byte of the local store at `a` after an image's load: content from 0x100, the default table where the image supplies none, else
zero; above the declared bytes the byte that stood there (R86, R269 step 2). -/
def loadedByte (h : BitVec 512) (content : List Byte) (old : Byte) (a : Nat) : Byte :=
  let t := (a - imgCbTab h) / 1024
  if imgLsBytes h ≤ a then old
  else if imgCbTab h ≠ 0 ∧ imgCbTab h ≤ a ∧ t < 16 ∧ (imgCbMask h).testBit t = false ∧ imgCbTab h + 1024 * t + 1024 ≤ imgLsBytes h then
    (leBytes 4 (defaultEntry ((a - imgCbTab h) % 1024 / 4))).getD (a % 4) 0
  else if 0x100 ≤ a then content.getD (a - 0x100) 0 else 0

/-- The completion record of a gang (R266). -/
def completionBytes (g : Gang) : List Byte :=
  let f := g.fault.getD ⟨0, 0, 0, 0⟩
  leBytes 1 f.cause ++ leBytes 1 0 ++ leBytes 2 (if g.cancelled then 1 else 0) ++ leBytes 4 f.rank ++ leBytes 4 (Config.gangId g.id).toNat
    ++ leBytes 8 f.tval.toNat ++ leBytes 4 f.epc.toNat ++ leBytes 4 0 ++ leBytes 4 g.dropped

end Sys2Proof.Claims

/-- The entries of a core that answer a solicit of slot `t` on channel `ch`, ascending: they match, have not answered, and are not PENDING (R234, R238). -/
def called (k : Core) (t key mask ch : Nat) : List Nat :=
  (List.range 64).filter (fun e => let x := k.entry e; x.matchesKey key mask && !x.answered.getLsbD t && decide (x.state ≠ .pending) && decide (x.rch = ch))

/-- R234, R236, R238, R243, R246, R248: a solicit marks the leaf of its core and the entries it matches, a PENDING one as seen and the
others as answered and owed, whose responder messages enter their channels in ascending entry order with ARG, the entry and the slot, and sender 0x1FFF;
two of one cycle go by tenant slot, the lower first (R251, within log 1); a report goes up to the root, and with the last of the sub-mesh the result, combined by cluster, die and
root, is one message of the asker's door and its slot DONE; a close clears the slot at its core and is acknowledged, at a core with a
commit on its way only after it was forwarded behind it; the root counts the acknowledgements, and with the last the slot is free. -/
def Sys2Proof.Claims.CensusesTravel : Prop :=
  ∀ (s s1 : State) (n c : Nat) (p : Packet), let k := s.core c
    (∀ t op key mask arg j, p.dst = .core c → p.body = .tree p.gang (.solicit t op key mask arg) → s.net[n]? = some p → k.solicited = some (j, k.cycle) → t < j →
      exec (.solicitArrival n) s = .next s)
    ∧ (∀ t op key mask arg, t < 16 → (∀ j, k.solicited = some (j, k.cycle) → j ≤ t) → ToCore s n c p (.solicit t op key mask arg) s1 →
      ∃ u, exec (.solicitArrival n) s = .next u ∧ (u.core c).leaf t ≠ Leaf.reset ∧ ((u.core c).leaf t).state ≠ .idle
        ∧ ((u.core c).leaf t).op = op ∧ ((u.core c).leaf t).arg = arg ∧ (∀ j, j < 16 → j ≠ t → (u.core c).leaf j = k.leaf j)
        ∧ (∀ e, e < 64 → let x := k.entry e; let y := (u.core c).entry e
            if x.matchesKey key mask = true ∧ x.answered.getLsbD t = false then
              (if x.state = .pending then y = { x with seen := setBit16 x.seen t }
               else y = { x with answered := setBit16 x.answered t, owed := setBit16 x.owed t })
            else y = x)
        ∧ (∀ ch, let es := called k t key mask ch; k.isMsg ch = true → (k.chan ch).spill = 0 → (k.chan ch).msgs.length + es.length ≤ 8 → (∀ m, m ∈ k.held → m.ch ≠ ch) →
            ((u.core c).chan ch).msgs = (k.chan ch).msgs ++ es.map (fun e => (BitVec.ofNat 64 (arg / 65536 * 65536 + e * 256 + t), 0x1FFF#16))
            ∧ ((u.core c).chan ch).cnt = (k.chan ch).cnt + es.length)
        ∧ (∀ b, b ≠ c → u.core b = s.core b))
    ∧ (∀ x r tenant slot i, s.hub.census = [x] → x.tenant = tenant → x.slot = slot → x.sent[i]? = some r → (s.gang x.gang = none ∨ x.sent.eraseIdx i ≠ []) →
      exec (.nodeReport tenant slot i) s = .next { s with hub := { s.hub with census := [{ x with sent := x.sent.eraseIdx i, got := x.got ++ [r] }] } })
    ∧ (∀ x r g, s.hub.census = [x] → x.sent = [r] → s.gang x.gang = some g → g.away = false → (∀ y, y ∈ s.hub.gangs → y.tenant = x.tenant → y.away = false) →
        (∀ b, b ∈ s.subMesh x.tenant → ((s.core b).leaf x.slot).state = .reported ∧ (b = r.core ∨ ∃ q, q ∈ x.got ∧ q.core = b)) →
        (∀ q, q ∈ s.net → ∀ h t op key mask arg, q.body = .tree h (.solicit t op key mask arg) → ¬ (q.tenant = x.tenant ∧ t = x.slot)) →
        c = coreAt g.x0 g.y0 → k.ctl.pre.isSealed = false → k.gang = some g.id → k.gangSlotOf x.slot = some x.gslot → (k.cen x.gslot).closePending = false →
        let door := (k.cen x.gslot).door
        let res := combineTree x.op (s.subMesh x.tenant) (x.got ++ [r])
        RoomAt k door → ∃ u, exec (.nodeReport x.tenant x.slot 0) s = .next u ∧ u.hub.census = []
          ∧ (u.core c).cen x.gslot = { k.cen x.gslot with state := .done, count := res.1, value := res.2 }
          ∧ (u.core c).chan door = { k.chan door with msgs := (k.chan door).msgs ++ [(BitVec.ofNat 64 (res.1 * 2 ^ 32 + res.2.toNat % 2 ^ 32), 0x1FFF)], cnt := (k.chan door).cnt + 1 }
          ∧ (∀ b, b ≠ c → u.core b = s.core b) ∧ u.net = s.net)
    ∧ (∀ t, t < 16 → ToCore s n c p (.close t) s1 → k.commits = [] → ∃ u q, exec (.close n) s = .next u
        ∧ u.net = s.net.eraseIdx n ++ [q] ∧ q.dst = .hub ∧ q.src = .core c ∧ q.body = .tree p.gang (.closeAck t)
        ∧ Clears k (u.core c) t ∧ SameBeyond s { u with net := s.net } c)
    ∧ (∀ t m d, t < 16 → ToCore s n c p (.close t) s1 → k.commits = [m] → (decodeAddr k.page s.fab.device (dwordAt m.word 2)).dest = some d →
        (∀ q, q.dst = d → q.tenant = k.tenant → s.routable c q = true) → ∃ u q, exec (.close n) s = .next u ∧ u.net = s.net.eraseIdx n ++ [q] ∧ q.dst = d ∧ q.src = .core c
        ∧ q.tag = .none ∧ q.body = .move (.forwardedClose t (stf m.word 3 31 26)) ∧ u.hub.closings = s.hub.closings ∧ Clears k (u.core c) t
        ∧ (∀ b, b ≠ c → u.core b = s.core b))
    ∧ (∀ t e, t < 16 → Arrives s n p s1 → p.dst = .core c → p.body = .move (.forwardedClose t e) → k.commits = [] → ∃ u q, exec (.close n) s = .next u
        ∧ u.net = s.net.eraseIdx n ++ [q] ∧ q.dst = p.src ∧ q.src = .core c ∧ q.body = .tree p.gang (.closeAck t) ∧ u.hub.closings = s.hub.closings
        ∧ Clears k (u.core c) t ∧ (∀ b, b ≠ c → u.core b = s.core b))
    ∧ (∀ t, Arrives s n p s1 → p.dst = .core c → p.body = .tree p.gang (.closeAck t) → ∃ u q, exec (.closeAck n) s = .next u
        ∧ u.net = s.net.eraseIdx n ++ [q] ∧ q.src = .core c ∧ q.dst = .hub ∧ q.tenant = p.tenant ∧ q.body = .tree p.gang (.closeAck t) ∧ u.cores = s.cores ∧ u.hub = s.hub)
    ∧ (∀ t x, ToRoot s n p (.closeAck t) s1 → p.src = .core c → s.hub.closings = [x] → x.tenant = p.tenant → x.slot = t → c ∈ x.left →
        (x.left.erase c ≠ [] → ∃ u, exec (.closeAck n) s = .next u ∧ u.hub.closings = [{ x with left := x.left.erase c }] ∧ u.net = s.net.eraseIdx n ∧ u.cores = s.cores)
        ∧ (x.left.erase c = [] → (∀ y, y ∈ s.hub.gangs → ¬ (y.tenant = x.tenant ∧ y.state = .saved)) →
          (∀ g, s.gang x.gang = some g → x.gslot < 16 → (s.core (coreAt g.x0 g.y0)).gang = some g.id →
            ∃ u, exec (.closeAck n) s = .next u ∧ u.hub.closings = [] ∧ ((u.core (coreAt g.x0 g.y0)).cen x.gslot).state = .free)
          ∧ (∀ tn, s.gang x.gang = none → s.tenant x.tenant = some tn → ∃ u, exec (.closeAck n) s = .next u ∧ u.hub.closings = []
            ∧ u.tenant x.tenant = some { tn with granted := tn.granted.filter (fun q => decide (q ≠ (x.slot, x.gang))) } ∧ u.cores = s.cores)))

/-- R272 to R274, R237, R245: an offer is answered by its member; the root counts an arrival once, and with the last one starts the next
phase and tells every member; a completion marks its leaf and sends the barrier's message; a solicit that reaches the root opens a
census and goes to every core of the sub-mesh; a free reaches the root and then every leaf. -/
def Sys2Proof.Claims.BarriersTravel : Prop :=
  ∀ (s s1 : State) (n c : Nat) (p : Packet), let k := s.core c
    (∀ o slot ch, Arrives s n p s1 → p.src = .core o → p.dst = .core c → p.body = .tree p.gang (.offer slot ch) → o ≠ c →
      (¬ (k.gang = some p.gang ∧ (s.core o).gang = some p.gang) → exec (.barrierOffer n) s = .next (passed s n []))
      ∧ (k.gang = some p.gang → (s.core o).gang = some p.gang → ∃ u, exec (.barrierOffer n) s = .next u
        ∧ (u.core c).offered = k.offered ++ [((s.core o).page.rank, slot, ch)]
        ∧ (u.core o).offers = (s.core o).offers.map (fun y => if y.slot = slot then { y with answers := y.answers ++ [(k.page.rank, k.isMsg ch)] } else y)
        ∧ { u.core c with offered := k.offered } = k ∧ (∀ b, b ≠ c → b ≠ o → u.core b = s.core b) ∧ u.net = s.net.eraseIdx n ∧ u.hub = s.hub))
    ∧ (∀ j rank drop g b, ToRoot s n p (.arrival j rank drop) s1 → s.gang p.gang = some g → g.bars[j]? = some b → b.alloc = true → rank ∈ b.members →
        (∀ x, x ∈ b.arrived → x.1 ≠ rank) → ∃ u g' b', exec (.barrierArrival n) s = .next u ∧ u.gang g.id = some g' ∧ g'.bars[j]? = some b'
          ∧ (if b.arrived.length + 1 = b.members.length then b'.arrived = [] ∧ b'.phase = !b.phase ∧ b'.phases = (b.phases + 1) % 2 ^ 32
                ∧ (∀ r, r ∈ b'.members → r ∈ b.members) ∧ (drop = true → rank ∉ b'.members) ∧ u.net.length = (s.net.eraseIdx n).length + b.members.length
             else b' = { b with arrived := b.arrived ++ [(rank, drop)] } ∧ u.net = s.net.eraseIdx n) ∧ u.cores = s.cores)
    ∧ (∀ j phase phases, j < 64 → ToCore s n c p (.completion j phase phases) s1 → k.gang = some p.gang → (k.bar j).alloc = true →
        k.isMsg (k.bar j).ch = true → (k.chan (k.bar j).ch).held < 8 + (k.chan (k.bar j).ch).rent → (∀ m, m ∈ k.held → m.ch ≠ (k.bar j).ch) →
        ∃ u, exec (.barrierCompletion n) s = .next u ∧ ((u.core c).bar j).arrived = false ∧ ((u.core c).bar j).phases = phases
          ∧ ((u.core c).bar j).phase = decide (phase = 1) ∧ ((u.core c).bar j).member = ((k.bar j).member && !(k.bar j).drop)
          ∧ ((u.core c).chan (k.bar j).ch).held = (k.chan (k.bar j).ch).held + 1 ∧ SameBeyond s { u with net := s.net } c)
    ∧ (∀ t op key mask arg g, ToRoot s n p (.solicit t op key mask arg) s1 → s.gang p.gang = some g → ∃ u x, exec (.tree n) s = .next u
        ∧ u.hub.census = s.hub.census ++ [x] ∧ x.tenant = p.tenant ∧ x.slot = t ∧ x.op = op ∧ x.gang = g.id ∧ x.sent = [] ∧ x.got = []
        ∧ u.net = s.net.eraseIdx n ++ (s.subMesh p.tenant).map (fun b => treeDown p.tenant g.id b (.solicit t op key mask arg)) ∧ u.cores = s.cores)
    ∧ (∀ j g b, ToRoot s n p (.freeUp j) s1 → s.gang p.gang = some g → g.bars[j]? = some b → b.alloc = true → ∃ u g', exec (.tree n) s = .next u
        ∧ u.gang g.id = some g' ∧ (g'.bars[j]?).map BarRoot.alloc = some false ∧ u.net = s.net.eraseIdx n ++ g.cores.map (fun b => treeDown g.tenant g.id b (.freeDown j)))
    ∧ (∀ j, j < 64 → ToCore s n c p (.freeDown j) s1 → k.gang = some p.gang → ∃ u, exec (.tree n) s = .next u ∧ (u.core c).bar j = Bar.reset
        ∧ (∀ i, i < 64 → i ≠ j → (u.core c).bar i = k.bar i) ∧ { u.core c with bars := k.bars } = k ∧ SameBeyond s { u with net := s.net } c)

/-- R248, R251: a move's open takes a FREE entry whose channel is a MSG channel and answers with the slots in progress, else it is refused; the
answer lets the source go on; a commit makes the entry ACTIVE, owing for the slots seen that the source has not answered, and is acknowledged; an abort frees
it; neither comes after a solicit of its cycle.

Model's choice where the spec leaves it open: log 1, 44, 85, 88. -/
def Obligations.MovesTravel : Prop :=
  ∀ (s s1 : State) (n c : Nat) (p : Packet), Arrives s n p s1 → p.dst = .core c → let k := s.core c
    (∀ key kmask rch len off rank sent dent, dent < 64 → p.body = .move (.openMove key kmask rch len off rank sent dent) →
      ((k.entry dent).state = .free → k.isMsg rch = true → ∃ u, exec (.dmoveOpen n) s = .next u
        ∧ (u.core c).entry dent = ⟨.pending, key, rch, kmask, 0, 0, 0, off, len, rank, sent⟩ ∧ (∀ e, e < 64 → e ≠ dent → (u.core c).entry e = k.entry e)
        ∧ u.net = s.net.eraseIdx n ++ [{ answer p p.tag (.move (.openReply k.busyLeaves)) with due := k.cycle + 1 }] ∧ SameBeyond s { u with net := s.net } c)
      ∧ (¬ ((k.entry dent).state = .free ∧ k.isMsg rch = true) → exec (.dmoveOpen n) s = .next (passed s n [{ answer p p.tag (.nak 0x05 false 0) with due := k.cycle + 1 }])))
    ∧ (∀ e t un m, p.body = .move (.openReply e) → p.tag = .engine t un → k.command t = some m → m.unit = un → m.xfer = .opening → ∃ u, exec (.dmoveOpenReply n) s = .next u
        ∧ (u.core c).command t = some { m with kept := 1, eset := e, closed := 0, xfer := .idle, wait := 0 } ∧ SameBeyond s { u with net := s.net } c)
    ∧ (∀ j, k.solicited = some (j, k.cycle) → (∀ mask dent, p.body = .move (.commit mask dent) → exec (.adoption n) s = .next s)
        ∧ (∀ dent, p.body = .move (.abort dent) → exec (.abortMove n) s = .next s))
    ∧ (∀ q mask dent, dent < 64 → (∀ j, k.solicited ≠ some (j, k.cycle)) → p.body = .move (.commit mask dent) → p.src = .core q → (k.entry dent).state = .pending → (k.entry dent).peer = (s.core q).page.rank →
        ∃ u, exec (.adoption n) s = .next u ∧ ((u.core c).entry dent).state = .active ∧ (k.entry dent).key = ((u.core c).entry dent).key
          ∧ ((u.core c).entry dent).answered = BitVec.ofNat 16 mask ||| (k.entry dent).seen
          ∧ ((u.core c).entry dent).owed = (k.entry dent).seen &&& ~~~(BitVec.ofNat 16 mask) ∧ ((u.core c).entry dent).seen = 0 ∧ { answer p p.tag (.ack []) with due := k.cycle + 1 } ∈ u.net
          ∧ (∀ e, e < 64 → e ≠ dent → (u.core c).entry e = k.entry e) ∧ (∀ b, b ≠ c → u.core b = s.core b))
    ∧ (∀ q dent, dent < 64 → (∀ j, k.solicited ≠ some (j, k.cycle)) → p.body = .move (.abort dent) → p.src = .core q → (k.entry dent).state = .pending → (k.entry dent).peer = (s.core q).page.rank →
        ∃ u, exec (.abortMove n) s = .next u ∧ (u.core c).entry dent = Entry.reset ∧ (∀ e, e < 64 → e ≠ dent → (u.core c).entry e = k.entry e)
          ∧ (∀ b, b ≠ c → u.core b = s.core b))

/-- R24, R226, R260, R261, R267, R269: a header that keeps R257 makes its record READY at the tail of its level; READY records are served by level,
and in a level by order; a pass places the only READY record of a tenant at the first origin where it fits; the image's load leaves each
core with the header's limits, its stores, headers, windows, control registers and tables as the launch sets them, the content as it stands
in device memory; release starts slot 0 of each core of a cluster at 0x100 with priority 255, its registers zero but g6, which is 0xFF, and m0; of a restored gang it resumes the stopped slots, but those that CANCEL stopped (R270, R294).

Model's choice where the spec leaves it open: log 6, 55, 56. -/
def Obligations.GangsLaunch : Prop :=
  (∀ t : Tenant, t.ready.Perm (t.pool.filter (fun r => decide (r.state = .ready)))
      ∧ t.ready.Pairwise (fun a b => b.level < a.level ∨ (a.level = b.level ∧ a.order ≤ b.order)))
  ∧ (∀ (s s2 : State) r m, Memory.wf s.mem.bytes = true → readImage s r = (s2, .ok m) → m.content.length = (imgLoadLen r.header + 63) / 64
      ∧ ∀ j x, m.content[j]? = some x → x.1.length = 64 ∧ ∃ s', (hubRead s' r.asid (recImage r.record + 0x100 + BitVec.ofNat 64 (64 * j)) 64).2 = .ok x
        ∧ s'.cores = s.cores ∧ s'.mem.roots = s.mem.roots ∧ (∀ a, readByte s'.mem.bytes a = readByte s.mem.bytes a ∨ readByte s'.mem.bytes a = 0))
  ∧ ∀ (s : State) (tn : Nat) (t : Tenant), s.tenant tn = some t → t.id = tn →
    (∀ i r s2 b, t.record i = some r → r.state = .headerWait → hubRead s r.asid (recImage r.record) 64 = (s2, .ok b) → s2.hub = s.hub →
      headerOk (BitVec.ofNat 512 (leNat b.1)) = true → (recImage r.record).toNat % 64 = 0 → ∃ u t' r', exec (.headerRead tn i) s = .next u
        ∧ u.tenant tn = some t' ∧ t'.record i = some r' ∧ r'.state = .ready ∧ r'.header = BitVec.ofNat 512 (leNat b.1) ∧ r'.record = r.record ∧ r'.order = t.order
        ∧ (∀ x, x ∈ t.pool → x.order < t.order → x.order < r'.order) ∧ t'.order = t.order + 1 ∧ t'.passDue = true ∧ u.cores = s.cores)
    ∧ (∀ r, s.fw.absent 1 = false → passReady s t = true → s.hub.gangs = [] → t.pool = [r] → r.state = .ready → r.gang = none → t.res = none →
        1 ≤ imgW r.header → 1 ≤ imgH r.header → imgW r.header ≤ t.w → imgH r.header ≤ t.h → t.x0 + t.w ≤ 72 → t.y0 + t.h ≤ 64 →
        (∀ c, (s.core c).gang = none) → imgNbar r.header ≤ 64 → imgNcen r.header ≤ t.freeCens.length → r.level < 256 →
        ∃ u g, exec (.pass tn) s = .next u ∧ u.hub.gangs = [g] ∧ g.id = s.hub.nextGang ∧ g.state = .loading ∧ (g.x0, g.y0) = (t.x0, t.y0)
          ∧ (g.w, g.h) = (imgW r.header, imgH r.header) ∧ g.live = g.w * g.h ∧ g.bars.length = imgNbar r.header ∧ g.cslots.length = imgNcen r.header
          ∧ (∀ c, c ∈ g.cores → (u.core c).gang = some g.id ∧ (u.core c).tenant = tn ∧ (u.core c).matching = false)
          ∧ (∀ c, c ∉ g.cores → u.core c = s.core c) ∧ SameMemory s u)
    ∧ (∀ id g r s2 m, s.gang id = some g → g.tenant = tn → t.record g.index = some r → g.state = .loading → headerOk r.header = true →
        readImage s r = (s2, .ok m) → s2.hub = s.hub → s2.cores = s.cores → g.x0 + g.w ≤ 72 →
        let h := r.header
        ∃ u g', exec (.imageLoad id) s = .next u ∧ u.gang id = some g' ∧ g'.state = .releasing ∧ g'.clusters = g.clusterList
          ∧ (∀ q, q < g.w * g.h → let k := u.core (g.coreOf q); let old := s.core (g.coreOf q)
              (∀ a, readByte k.ls a = loadedByte h (m.content.flatMap Prod.fst) (readByte old.ls a) a)
              ∧ (∀ b, 4 ≤ b → b < imgLsBytes h / 64 → k.header (64 * b) = ((m.content[b - 4]?).map Prod.snd).getD 0)
              ∧ (∀ a, readByte k.acc a = 0) ∧ (∀ b, b < 1024 → k.header (0x80000 + 64 * b) = 0x03F80001)
              ∧ k.page = launchPage g r q m.shape ∧ k.ctl.trapvec = BitVec.ofNat 64 (imgTrapVec h) &&& 0xFFFFC#64 ∧ k.ctl.faultch = imgFaultCh h
              ∧ k.ctl.faultring = BitVec.ofNat 64 (imgFaultRing h) &&& 0xFFF00#64 ∧ k.ctl.srseed = imgSrSeed h
              ∧ k.ctl.cbtab = BitVec.ofNat 64 (imgCbTab h) &&& 0xFFC00#64 ∧ k.ctl.agemax = 256 ∧ k.ctl.aggfill = 16
              ∧ k.chans = m.tables.chans ∧ k.pats = m.tables.pats ∧ (∀ j : Fin 5, j.val < 4 → (k.slot j).state = .free) ∧ k.matching = false
              ∧ k.eng.cmds = [] ∧ k.eng.ticket = 0 ∧ k.eng.mxeC = 0 ∧ k.ni.next = 0 ∧ k.ptr = 0 ∧ k.dir = Vector.replicate 64 Entry.reset
              ∧ k.locks = Vector.replicate 16 none ∧ k.cenMap = g.cslots
              ∧ k.windows[0] = BitVec.ofNat 64 (2 ^ 63 + 0b10111 * 2 ^ 45 + imgLsBytes h * 2 ^ 20 + 0x100)
              ∧ k.windows[1] = BitVec.ofNat 64 (2 ^ 63 + 0b01000 * 2 ^ 45 + (0xC0000 + 16 * imgNchan h) * 2 ^ 20 + 0xC0000)
              ∧ (∀ i : Fin 8, 2 ≤ i.val → k.windows[i] = 0))
          ∧ (∀ c, c ∉ g.cores → u.core c = s.core c))
    ∧ (∀ id g cl rest, s.gang id = some g → g.clusters = cl :: rest → g.state = .releasing → g.restoring = true → g.preemptLater = false → g.x0 + g.w ≤ 72 →
        ∃ u, exec (.clusterRelease id) s = .next u ∧ ∀ q, q < g.w * g.h → clusterOf (g.coreOf q) = cl → let k := u.core (g.coreOf q); let old := s.core (g.coreOf q)
          k.matching = true ∧ k.ctl.pre = .none ∧ ∀ j : Fin 5, k.slot j =
            (if (old.slot j).state = .stopped ∧ (old.slot j).cancelled = false then { old.slot j with state := .active } else old.slot j))
    ∧ (∀ id g cl rest, s.gang id = some g → g.clusters = cl :: rest → g.state = .releasing → g.restoring = false → g.preemptLater = false → g.x0 + g.w ≤ 72 →
        ∃ u g', exec (.clusterRelease id) s = .next u ∧ u.gang id = some g' ∧ g'.clusters = rest ∧ g'.state = (if rest = [] then .running else .releasing)
          ∧ (∀ q, q < g.w * g.h → clusterOf (g.coreOf q) = cl → let k := u.core (g.coreOf q)
              let x := k.slot 0
              k.matching = true ∧ { x with g := Slot.reset.g } = { Slot.reset with state := .active, pc := 0x100, prio := 255, act := ((s.core (g.coreOf q)).slot 0).act + 1 }
                ∧ (∀ r, x.reg r = if r = 6 then 0xFF else 0) ∧ (∀ r, x.mask r = if r = 0 then BitVec.allOnes 64 else 0) ∧ (∀ r, x.vreg r = 0)
                ∧ { k with slots := (s.core (g.coreOf q)).slots, matching := (s.core (g.coreOf q)).matching } = s.core (g.coreOf q))
          ∧ (∀ c, ¬ (c ∈ g.cores ∧ clusterOf c = cl) → u.core c = s.core c) ∧ SameMemory s u)

/-- R263, R265, R266, R270, R290 to R294: the last exit of a gang, once no close of it is in progress, ends it normally; a gang that ends has no slot that issues, but one inside a vector store of lanes, and no matcher; once
everything is settled its cores are free and it is no more, its completion record is written, its counter counts by 1, which lets waiting
records go on, its notice leaves, its record and its place in the graph are gone; PREEMPT stops a core; a core drains and seals; a save
keeps every core, in pages of its own under the tenant's key, and makes the record READY before every other; a restore puts each core back and releases the gang.

Model's choice where the spec leaves it open: log 23, 57, 60, 80. -/
def Obligations.GangsEndAndMove : Prop :=
  ∀ (s : State) (id : Nat) (g : Gang), s.gang id = some g → g.id = id →
    (g.state ≠ .ending → g.leaving = true →
        ((∃ x, x ∈ s.hub.closings ∧ x.gang = id) → exec (.gangEnd id) s = .next s)
        ∧ ((∀ x, x ∈ s.hub.closings → x.gang ≠ id) → ∃ u g', exec (.gangEnd id) s = .next u ∧ u.gang id = some g' ∧ g'.state = .ending ∧ g'.cancelled = false
            ∧ g'.fault = g.fault ∧ g'.live = 0 ∧ SameMemory s u))
    ∧ (g.state = .ending → ∃ u, exec (.gangEnd id) s = .next u ∧ (∀ c, c ∈ occupied s g → (u.core c).matching = false
        ∧ (∀ m, m ∈ (u.core c).eng.cmds → m.running = true ∧ m.stopping = true)
        ∧ (∀ j : Fin 5, j.val < 4 → ((u.core c).slot j).state = .free ∨ ((u.core c).slot j).state = .stopped
            ∨ (((s.core c).slot j).state = .active ∧ ((s.core c).slot j).lanes ≠ 0)))
        ∧ (∀ c, c ∉ occupied s g → u.core c = s.core c) ∧ SameMemory s u)
    ∧ (∀ t r s2 v s3, g.state = .ending → (∀ c, c ∈ occupied s g → (s.core c).endSettled = true) → hubWordsOf s id = false → s.tenant g.tenant = some t →
        t.record g.index = some r → r.gang = some id → recSigCtr r.record ≠ 0 → recCompRec r.record ≠ 0 →
        loadCounter (freeGang s g) r.asid (recSigCtr r.record) = (s2, .ok v) → hubWrite s2 r.asid (recCompRec r.record) (completionBytes g) = (s3, none) →
        ∃ u t', exec (.gangEndSettled id) s = .next u ∧ u.gang id = none ∧ (∀ c, c ∈ occupied s g → (u.core c).gang = none) ∧ u.mem = s3.mem
          ∧ (u.hub.counter r.asid (recSigCtr r.record).toNat).map Counter.value = some (v + 1)
          ∧ u.tenant g.tenant = some t' ∧ t'.record g.index = none ∧ t'.passDue = true
          ∧ (∀ y, y ∈ t.pool → y.index ≠ g.index → ∃ y', y' ∈ t'.pool ∧ y'.index = y.index ∧ y'.record = y.record
              ∧ y'.state = (if y.state = .waiting ∧ y.asid = r.asid ∧ recWaitCtr y.record = recSigCtr r.record ∧ (recWaitVal y.record).toNat ≤ (v + 1).toNat
                  then .headerWait else y.state))
          ∧ (∀ i y, r.issuer = some i → i ≠ id → s.gang i = some y → recNotEn r.record = true → r.host = false → y.ending = false →
              recNotRank r.record < y.w * y.h → ∃ q, q ∈ u.net ∧ q.src = .hub ∧ q.dst = .core (y.coreOf (recNotRank r.record))
                ∧ q.body = .hub y.id (.notice (recNotCh r.record)
                    (BitVec.ofNat 64 ((Config.gangId g.id).toNat * 2 ^ 32 + (g.fault.map FaultRec.cause).getD 0 % 256 * 2 ^ 16 + r.index))))
          ∧ (∀ x, t.graphs.find? (fun x => decide (x.id = r.graph)) = some x → t'.graphs =
              if 1 < x.left then t.graphs.map (fun y => if y.id = r.graph then { y with left := y.left - 1 } else y)
              else t.graphs.filter (fun y => decide (y.id ≠ r.graph))))
    ∧ (∀ (s1 : State) n c p va, Arrives s n p s1 → p.src = .hub → p.dst = .core c → p.body = .hub id (.preempt va) → p.gang = id → (s.core c).gang = some id → (s.core c).ctl.pre = .none →
        g.state ≠ .ending → ∃ u, exec (.preempt n) s = .next u ∧ (u.core c).ctl.pre = .stopping ∧ (u.core c).ctl.saveva = va ∧ (u.core c).matching = false
          ∧ (∀ j : Fin 5, j.val < 4 → ((u.core c).slot j).state ≠ .active) ∧ (∀ m, m ∈ (u.core c).eng.cmds → m.stopping = true) ∧ SameBeyond s { u with net := s.net } c)
    ∧ (∀ c, (s.core c).ctl.pre = .stopping → (∀ m, m ∈ (s.core c).eng.cmds → m.running = false ∨ m.stopped = true) →
        ∃ u, exec (.coreSealed c) s = .next u ∧ (u.core c).ctl.pre = .draining ∧ (∀ b, b ≠ c → u.core b = s.core b) ∧ SameMemory s u)
    ∧ (∀ c, (s.core c).ctl.pre = .draining → (s.core c).drained = true → treesQuiet s c = true →
        ∃ u, exec (.coreSealed c) s = .next u ∧ (u.core c).ctl.pre = .sealed ∧ { (u.core c) with ctl := (s.core c).ctl } = s.core c ∧ SameBeyond s u c)
    ∧ (g.state = .preempting → g.leaving = false → (∀ c, c ∈ g.cores → (s.core c).ctl.pre = .sealed) → ∃ u g', exec (.save id) s = .next u ∧ u.gang id = some g' ∧ g'.state = .saved
        ∧ g'.saved = g.cores.map (fun c => { s.core c with cycle := 0, responded := none, solicited := none, ni := { (s.core c).ni with scope := [] } })
        ∧ (∀ c, c ∈ g.cores → (u.core c).ctl.pre = .saved) ∧ (∀ c, { u.core c with ctl := (s.core c).ctl, ni := (s.core c).ni } = s.core c)
        ∧ (∀ t r, u.tenant g.tenant = some t → r ∈ t.pool → r.index = g.index → r.state = .ready ∧ t.passDue = true
            ∧ (∀ y, y ∈ t.pool → y.index ≠ g.index → r.order < y.order))
        ∧ (∀ t, s.tenant g.tenant = some t → g'.areaKey = t.keySlot) ∧ u.mem = s.mem
        ∧ (∀ c i, g.cores.getLast? = some c → let k := s.core c; let kept (a : Nat) : Byte := readByte g'.area (k.ctl.saveva.toNat + a)
            (i < k.page.lsbytes → kept (0x40000 + i) = readByte k.ls i) ∧ (i < 0x10000 → kept (0x20000 + i) = readByte k.acc i)
            ∧ (i < k.engineBytes.length → kept i = k.engineBytes.getD i 0)))
    ∧ (g.state = .saved → g.restoring = true → g.saved.length = g.w * g.h → g.x0 + g.w ≤ 72 → s.hub.census = [] → s.hub.closings = [] →
        ∃ u g', exec (.restore id) s = .next u ∧ u.gang id = some g' ∧ g'.state = .releasing ∧ g'.clusters = g.clusterList
          ∧ g'.saved = [] ∧ g'.area = []
          ∧ (∀ q k, g.saved[q]? = some k → k.ni.reqs = [] → k.ni.retained = [] → let x := u.core (g.coreOf q)
              x.ctl.pre = .restoring ∧ x.gang = some id ∧ x.slots = k.slots ∧ x.chans = k.chans ∧ x.pats = k.pats ∧ x.dir = k.dir ∧ x.bars = k.bars
              ∧ x.acc = k.acc ∧ (Memory.wf k.ls = true → ∀ a, a < k.page.lsbytes → readByte x.ls a = readByte k.ls a) ∧ x.page.rank = k.page.rank ∧ x.page.orgx = g.x0 ∧ x.page.orgy = g.y0))

/-- R228, R263, R266, R270, R309, R312, R319, R321: the scheduler counts an exit, and with that of the last live rank the gang ends, which
of a running gang with a close under way is put off (model's choice, log 80); a cancel of level 1 ends the gang, but not one whose last exit the
scheduler has; a notice enters its channel; a packet
of a reserved KIND, and one of the hub channel or the trees that no hub sent, is discarded and reported, the logged entry being the
model's choice (log 47); a packet for another device leaves the mesh, and waits while its flow's route is to change.

Model's choice where the spec leaves it open: log 47, 57, 80. -/
def Obligations.HubPacketsTakeEffect : Prop :=
  ∀ (s s1 : State) (n c : Nat) (p : Packet) (g : Gang),
    (∀ r, Arrives s n p s1 → p.dst = .hub → p.body = .hub g.id (.exit r) → s.gang g.id = some g → g.state ≠ .ending →
        ((1 < g.live ∨ g.state ≠ .running ∨ ∀ x, x ∈ s.hub.closings → x.gang ≠ g.id) → ∃ u g', exec (.hub n) s = .next u ∧ u.gang g.id = some g'
          ∧ g'.live = g.live - 1 ∧ g'.state = (if g.live ≤ 1 then .ending else g.state) ∧ g'.cancelled = (if g.live ≤ 1 then false else g.cancelled)
          ∧ u.net = s.net.eraseIdx n ∧ u.cores = s.cores ∧ u.mem = s.mem)
        ∧ (∀ x, g.live ≤ 1 → g.state = .running → x ∈ s.hub.closings → x.gang = g.id → ∃ u, exec (.hub n) s = .next u ∧ u.gang g.id = some { g with leaving := true }
            ∧ u.net = s.net.eraseIdx n ∧ u.cores = s.cores ∧ u.mem = s.mem))
    ∧ (∀ t r, Arrives s n p s1 → p.dst = .hub → p.body = .hub g.id (.cancel 1) → s.gang g.id = some g → g.state ≠ .ending → s.tenant g.tenant = some t → t.record g.index = some r →
        (g.leaving = true → exec (.hub n) s = .next (passed s n []))
        ∧ (g.leaving = false → ∃ u g', exec (.hub n) s = .next u ∧ u.gang g.id = some g' ∧ g'.state = .ending ∧ g'.cancelled = true ∧ u.cores = s.cores
            ∧ u.mem = s.mem))
    ∧ (∀ ch x, Arrives s n p s1 → p.src = .hub → p.dst = .core c → p.body = .hub p.gang (.notice ch x) → noticeHeld s p c = false → (s.core c).gang = some p.gang →
        (s.core c).isMsg ch = true → ((s.core c).chan ch).held < 8 + ((s.core c).chan ch).rent → (∀ m, m ∈ (s.core c).held → m.ch ≠ ch) →
        ∃ u, exec (.hub n) s = .next u ∧ ((u.core c).chan ch).held = ((s.core c).chan ch).held + 1 ∧ SameBeyond s { u with net := s.net } c)
    ∧ (∀ x y z, Arrives s n p s1 → p.body = .reserved x y z → ∃ u, exec (.hub n) s = .next u ∧ u.net = s.net.eraseIdx n ∧ u.cores = s.cores
        ∧ u.hub.log.getLast? = some ⟨0, 7, 0, none⟩)
    ∧ (∀ id, Arrives s n p s1 → p.dst = .core c → p.src ≠ .hub →
        (∀ ch x, p.body = .hub id (.notice ch x) → exec (.hub n) s = .next (reportLink (passed s n [])))
        ∧ (∀ va, p.body = .hub id (.preempt va) → exec (.hub n) s = .next (reportLink (passed s n [])) ∧ exec (.preempt n) s = .next (reportLink (passed s n [])))
        ∧ (∀ m, p.body = .tree id m → (∀ x y, m ≠ .offer x y) → (∀ x, m ≠ .closeAck x) → treeReaches s p (forGang m) = true →
            exec (.tree n) s = .next (reportLink (passed s n []))))
    ∧ (∀ dev f, s.net[0]? = some p → p.dst = .foreign dev f → s.crossed p = true → (s.fab.flow p.tenant dev).next.isSome = true →
        ∃ u, exec (.hub 0) s = .next u ∧ u.net = s.net.eraseIdx 0 ∧ u.cores = s.cores ∧ (u.fab.flow p.tenant dev).held = (s.fab.flow p.tenant dev).held ++ [p])
    ∧ (∀ dev f q m l, s.net[0]? = some p → p.dst = .foreign dev f → s.crossed p = true → let fl := s.fab.flow p.tenant dev; fl.next = none → fl.held = [] →
        s.fab.hop false ⟨fl.route, s.fab.device, dev, p⟩ = (q, .port m) → s.fab.link (.port m) = some l → ∃ u, exec (.hub 0) s = .next u ∧ u.net = s.net.eraseIdx 0
          ∧ u.cores = s.cores ∧ let gl := u.fab.flow p.tenant dev
          (fl.unacked ≠ 0 → fl.port ≠ m → gl = { fl with held := [p] } ∧ u.fab.link (.port m) = some l)
          ∧ (fl.unacked = 0 ∨ fl.port = m → gl.unacked = fl.unacked + expectsOf p ∧ gl.port = m ∧ gl.held = [] ∧ gl.route = fl.route
              ∧ ∃ y, u.fab.link (.port m) = some y ∧ y.queue = l.queue ++ [.packet q]))

/-! The mesh, the host, the firmware and the fabric (R17, R18, R311 to R344) -/

namespace Sys2Proof.Claims

/-- The answer to a command: the header of R333 with the command's opcode and SEQ, and the words. -/
def replyOf (h : CmdHdr) (op status : Nat) (words : List Dword) : HostMsg :=
  ⟨h.session, BitVec.ofNat 128 (op + status * 2 ^ 16 + cmdSeq h * 2 ^ 64 + 8 * words.length % 2 ^ 32 * 2 ^ 96), words⟩

/-- A message that answers no command has opcode and SEQ 0 (log 32). -/
def reportOf (session status : Nat) (words : List Dword) : HostMsg :=
  ⟨session, BitVec.ofNat 128 (status * 2 ^ 16 + 8 * words.length % 2 ^ 32 * 2 ^ 96), words⟩

/-- `u` is `t` with one message more, the last, queued at the link of its session too (R325). -/
def Told (t u : State) (m : HostMsg) : Prop :=
  let bytes := leBytes 16 m.header.toNat ++ m.body.flatMap (fun x => leBytes 8 x.toNat)
  u.hub.host = t.hub.host ++ [m]
    ∧ u.fab.links = t.fab.links.map (fun l => if l.link = .prenor m.session then { l with queue := l.queue ++ [.message bytes] } else l)
    ∧ { u with hub := { u.hub with host := t.hub.host }, fab := { u.fab with links := t.fab.links } } = t

/-- The body of a command: of SUBMIT its record and its job word (R264); of any other its operands in whole dwords, in the order of R334, which
is the model's choice (log 91). -/
def bodyOf : Instr → List Byte
  | .tenantset _ tn x0 y0 w h dl dbg own => operandBytes [(8, tn), (8, x0), (8, y0), (8, w), (8, h), (8, dl), (8, b2n dbg), (48, own.toNat)]
  | .submit _ r j => leBytes 64 r.toNat ++ leBytes 16 j.toNat
  | .cancelCmd _ a b | .resumeCmd _ a b => operandBytes [(8, a), (8, b)]
  | .tenantclose _ a | .preemptCmd _ a | .mode _ a | .bypass _ a | .sessclose _ a | .winclose _ a => operandBytes [(8, a)]
  | .stage _ img => imageBytes img
  | .attest _ nonce => operandBytes [(48, nonce.toNat)]
  | .sessopen _ tn q n => operandBytes [(8, tn), (97, q.toNat), (32, n.toNat)]
  | .sessconf _ n sig => operandBytes [(8, n), (96, sig.toNat)]
  | .winopen _ va len ha pid => operandBytes [(8, va.toNat), (8, len), (8, ha.toNat), (8, pid)]
  | _ => []

/-- A command is well formed: LEN is a multiple of 8, at most 65,536, and its body's length; the fields that must be 0 are (R333). -/
def WellFormedCmd (i : Instr) (h : CmdHdr) : Prop := cmdLen h % 8 = 0 ∧ cmdLen h ≤ 65536 ∧ cmdLen h = (bodyOf i).length ∧ field h.header 63 16 = 0

/-- A session is open (R325, R338). -/
def OpenSession (s : State) (n : Nat) : Prop := ∃ x, x ∈ s.fab.sessions ∧ x.id = n ∧ x.confirmed = true

/-- The command's session is open; session 0 is for what opens it, too (R325, R338; log 75). -/
def KnownSession (s : State) (h : CmdHdr) (op : Nat) : Prop := OpenSession s h.session ∨ (h.session = 0 ∧ (op = 0x41 ∨ op = 0x42))

/-- A command that is well formed and in sequence stands next in its session, with the parser's image in place; `t` is the state without
its bytes (R325, R333). -/
def InOrder (s : State) (i : Instr) (h : CmdHdr) (op : Nat) (t : State) : Prop :=
  s.fw.absent 0 = false ∧ s.received h op (bodyOf i) = some t ∧ KnownSession s h op ∧ WellFormedCmd i h ∧ cmdSeq h = (sget 0 s.hub.seqs h.session + 1) % 2 ^ 32

/-- The same, of the operator's session. -/
def FromOperator (s : State) (i : Instr) (h : CmdHdr) (op : Nat) (t : State) : Prop := InOrder s i h op t ∧ h.session = 0

/-- The same, of a confirmed session of tenant `tn`. -/
def FromTenant (s : State) (i : Instr) (h : CmdHdr) (tn op : Nat) (t : State) : Prop := InOrder s i h op t ∧ h.session ≠ 0 ∧ s.sessionTenant h.session = some tn

/-- The SEQ is the session's last accepted one (R333). -/
def accepted (t : State) (h : CmdHdr) : State := { t with hub := { t.hub with seqs := sset 0 t.hub.seqs h.session (cmdSeq h) } }

/-- `i` completes with an answer, after which `P` holds. -/
def Replies (i : Instr) (s : State) (h : CmdHdr) (op status : Nat) (words : List Dword) (P : State → Prop) : Prop :=
  ∃ u, exec i s = .next u ∧ u.hub.host.getLast? = some (replyOf h op status words) ∧ P u

/-- `i` completes with an answer, and but for that and the SEQ nothing happens. -/
def Answers (i : Instr) (s t : State) (h : CmdHdr) (op status : Nat) (words : List Dword) : Prop :=
  ∃ u, exec i s = .next u ∧ Told (accepted t h) u (replyOf h op status words)

/-- `i` completes with the answer of a refusal: the SEQ is not accepted either. -/
def Refused (i : Instr) (s t : State) (h : CmdHdr) (op status : Nat) : Prop := ∃ u, exec i s = .next u ∧ Told t u (replyOf h op status [])

/-- But for the SEQ and the messages to the host the hub stands as before. -/
def HubKept (s u : State) (h : CmdHdr) : Prop :=
  sget 0 u.hub.seqs h.session = cmdSeq h ∧ { u.hub with host := s.hub.host, seqs := s.hub.seqs } = s.hub

/-- Cores and device memory stand as before. -/
def Inside (s u : State) : Prop := u.cores = s.cores ∧ u.mem = s.mem

/-- Everything but the firmware stands as before. -/
def OnlyFw (s t : State) : Prop := { t with fw := s.fw } = s

/-- Everything but the fabric stands as before. -/
def OnlyFab (s t : State) : Prop := { t with fab := s.fab } = s

/-- An image verifies: it is signed, with its manifest, under the release key, its SVN no lower than its function's minimum (R335). -/
def Verifies (w : Firmware) (x : FwImage) : Prop := Config.ecdsaVerify Config.releaseKey (Config.sha384 (signedBytes x)) x.sig = true ∧ (sget 0 w.svnMin x.function).toNat ≤ x.svn.toNat

/-- An image's manifest accepts a version of a TYPE, 0 for the record's own format (R343). -/
def Accepts (x : FwImage) (typ version : Nat) : Prop := ∃ f, f ∈ x.formats ∧ f.1 = typ ∧ f.2.1 ≤ version ∧ version ≤ f.2.2

/-- n bytes of a record at an offset, as a number. -/
def fieldAt (r : List Byte) (off n : Nat) : Nat := leNat ((r.drop off).take n)

end Sys2Proof.Claims

/-- R17, R311, R314, R316: a mode change puts the mode asked for into force and no architectural state changes; a router gates at the end of
its second idle cycle and is on again two cycles after set-up; a route swap writes the idle bank and holds the tenant's cores, and
with nothing of the tenant in flight the bank flips and the holds clear.

Model's choice where the spec leaves it open: log 25, 74. -/
def Obligations.MeshChanges : Prop :=
  ∀ (s : State) (tn : Nat) (e : Dword),
    (∀ m, s.mesh.modeNext = some m → s.fw.absent 5 = false → ∃ u, exec .modeChange s = .next u ∧ u.mesh.mode = m ∧ u.mesh.modeNext = s.mesh.modeLater
        ∧ { u with mesh := s.mesh } = s ∧ u.mesh.bypass = s.mesh.bypass)
    ∧ (∀ m, s.mesh.modeNext = none → s.mesh.modeLater = some m → s.fw.absent 5 = false → ∃ u, exec .modeChange s = .next u ∧ u.mesh.mode = m ∧ u.mesh.modeNext = none
        ∧ u.mesh.modeLater = none ∧ { u with mesh := s.mesh } = s)
    ∧ (∀ r, s.mesh.router r = .on 2 → ∃ u, exec (.routerGate r) s = .next u ∧ u.mesh.router r = .gated ∧ (∀ q, q ≠ r → u.mesh.router q = s.mesh.router q)
        ∧ { u with mesh := s.mesh } = s)
    ∧ (∀ r, s.mesh.router r = .waking 0 → ∃ u, exec (.routerWake r) s = .next u ∧ u.mesh.router r = .on 0 ∧ (∀ q, q ≠ r → u.mesh.router q = s.mesh.router q)
        ∧ { u with mesh := s.mesh } = s)
    ∧ (∀ t (word : Dword), s.tenant tn = some t → word &&& 0xC3FFFFFF00000000#64 = e → t.owns e = true → s.fw.absent 4 = false → ∃ u, exec (.routeSwap tn word) s = .next u ∧ u.mesh.idleEntry tn = e
        ∧ sget 0 u.mesh.bankSel tn = sget 0 s.mesh.bankSel tn ∧ (∀ c, c ∈ entryCores e → (u.core c).ni.hold = true)
        ∧ (∀ c, { u.core c with ni := { (u.core c).ni with hold := (s.core c).ni.hold } } = s.core c)
        ∧ { u with mesh := s.mesh, cores := s.cores } = s)
    ∧ (s.fw.absent 4 = false → s.mesh.idleEntry tn = e → entryCores e ≠ [] → (∀ c, c ∈ swapCores s tn e → (s.core c).ni.hold = true) →
        (∀ p, p ∈ s.net → classZero tn p = false) → ∃ u, exec (.bankFlip tn) s = .next u
        ∧ sget 0 u.mesh.bankSel tn = 1 - sget 0 s.mesh.bankSel tn ∧ (∀ c, c ∈ entryCores e → (u.core c).ni.hold = false)
        ∧ (∀ c, { u.core c with ni := { (u.core c).ni with hold := (s.core c).ni.hold } } = s.core c)
        ∧ { u with mesh := s.mesh, cores := s.cores } = s)

/-- R325, R326, R330, R333: a command stands next among the bytes its session has received, and waits there while the parser's image is
replaced; a malformed one, one its session may not use and one out of sequence are answered BADCMD, DENIED and BADSEQ, and nothing
else happens; an unknown opcode is BADCMD; a command, or a host access, of no open session is discarded and reported, the logged entry
being the model's choice (log 47).

Model's choice where the spec leaves it open: log 32, 47, 75, 91. -/
def Obligations.CommandsRefused : Prop :=
  ∀ (s : State) (h : CmdHdr) (a b c d e f : Nat) (x : Dword) (dbg : Bool) (o : BitVec 384) (r : BitVec 512) (j : BitVec 128) (q : BitVec 776)
    (n : BitVec 256) (sig : BitVec 768) (img : FwImage),
    let op := decide (h.session = 0); let tn := decide (h.session ≠ 0)
    let forms : List (Nat × Instr × Bool) :=
      [(0x01, .tenantset h a b c d e f dbg o, op), (0x02, .tenantclose h a, op), (0x10, .submit h r j, tn), (0x11, .cancelCmd h a b, tn),
       (0x12, .preemptCmd h a, true), (0x20, .mode h a, op), (0x21, .bypass h a, op), (0x30, .stage h img, op), (0x31, .update h, op),
       (0x32, .upstat h, op), (0x40, .attest h o, true), (0x41, .sessopen h a q n, op), (0x42, .sessconf h a sig, op),
       (0x43, .sessclose h a, op || decide (h.session = a)), (0x50, .winopen h x a x b, tn), (0x51, .winclose h a, tn), (0x60, .logread h, true),
       (0x70, .resumeCmd h a b, tn)]
    (∀ y, y ∈ forms →
      (s.received h y.1 (bodyOf y.2.1) = none ∨ s.fw.absent 0 = true → exec y.2.1 s = .next s)
      ∧ ∀ t, s.fw.absent 0 = false → s.received h y.1 (bodyOf y.2.1) = some t →
        (KnownSession s h y.1 → ¬ WellFormedCmd y.2.1 h → Refused y.2.1 s t h y.1 1)
        ∧ (KnownSession s h y.1 → WellFormedCmd y.2.1 h → y.2.2 = false → Refused y.2.1 s t h y.1 2)
        ∧ (KnownSession s h y.1 → WellFormedCmd y.2.1 h → y.2.2 = true → cmdSeq h ≠ (sget 0 s.hub.seqs h.session + 1) % 2 ^ 32 → Refused y.2.1 s t h y.1 6)
        ∧ (¬ KnownSession s h y.1 → ∃ u, exec y.2.1 s = .next u ∧ u.hub.log.getLast? = some ⟨0, 7, 0, none⟩ ∧ { u with hub := { u.hub with log := t.hub.log } } = t))
    ∧ (∀ t, s.fw.absent 0 = false → cmdOpcode h ∉ opcodes → s.received h (cmdOpcode h) [] = some t → KnownSession s h (cmdOpcode h) →
        Refused (.unknownOpcode h (cmdOpcode h)) s t h (cmdOpcode h) 1)
    ∧ (∀ l (bs : List Byte), s.fab.link (.prenor h.session) = some l → (h.session ≠ 0 ∨ OpenSession s 0) →
        let head := leBytes 16 h.header.toNat; let len := if cmdLen h ≤ 65536 then cmdLen h else 0
        let stands : Prop := l.rxBytes.take 16 = head ∧ 16 + len ≤ l.rxBytes.length ∧ (cmdLen h = bs.length → l.rxBytes.take (16 + cmdLen h) = head ++ bs)
        let got := if cmdLen h = bs.length then bs.length else len
        (stands → 16 + got ≤ l.rxBytes.length → s.received h (cmdOpcode h) bs = some { s with fab := { s.fab with links := s.fab.links.map (fun y =>
          if y.link = .prenor h.session then { l with rxBytes := l.rxBytes.drop (16 + got) } else y) } })
        ∧ (¬ stands → s.received h (cmdOpcode h) bs = none))
    ∧ (∀ w, (∀ y, s.session a = some y → y.confirmed = false) → ∃ u, exec (.hostWindowAccess a x w b) s = .next u ∧ u.hub.log.getLast? = some ⟨0, 7, 0, none⟩
        ∧ { u with hub := { u.hub with log := s.hub.log } } = s)

/-- R255, R334, R338, R339: TENANTSET creates a context on an empty, fitting and free rectangle with a key slot of its own, refuses a bad
or overlapping rectangle, at creation and at a change, another OWNER and a move while a gang runs, and changes the rest; TENANTCLOSE leaves no session and no key of the tenant, and no
frame its own; SESSOPEN opens session 0 first, then gives a free number; SESSCONF confirms or discards by the signature over the transcript
under the key of the session's owner; SESSCLOSE closes the session and its link. BADCMD to TENANTCLOSE and SESSOPEN of an absent tenant is
the model's choice (log 65).

Model's choice where the spec leaves it open: log 20, 63, 65, 71, 75, 91, 96. -/
def Obligations.TenantsAndSessions : Prop :=
  ∀ (s t : State) (h : CmdHdr) (tn x0 y0 w ht dl : Nat) (dbg : Bool) (own : BitVec 384) (qt : BitVec 776) (nt : BitVec 256) (n : Nat) (sig : BitVec 768),
    let set : Instr := .tenantset h tn x0 y0 w ht dl dbg own
    let meets (t : Tenant) : Prop := t.id ≠ tn ∧ x0 < t.x0 + t.w ∧ t.x0 < x0 + w ∧ y0 < t.y0 + t.h ∧ t.y0 < y0 + ht
    let fits : Prop := 1 ≤ w ∧ 1 ≤ ht ∧ x0 + w ≤ 72 ∧ y0 + ht ≤ 64 ∧ ∀ t, t ∈ s.hub.tenants → ¬ meets t
    let busy : Prop := ∃ g, g ∈ s.hub.gangs ∧ g.tenant = tn
    let free (k : Nat) : Prop := 1 ≤ k ∧ k ≤ 255 ∧ sget 0 s.mem.keys k = 0
    let open0 : Prop := OpenSession s 0
    (FromOperator s set h 0x01 t →
      (tn < 256 → dl < 65536 → fits → s.tenant tn = none → s.fw.absent 6 = false → (∃ k, free k) → Replies set s h 0x01 0 [] (fun u =>
        (∃ t, u.tenant tn = some t ∧ (t.x0, t.y0, t.w, t.h) = (x0, y0, w, ht) ∧ t.displim = dl ∧ t.debug = dbg ∧ t.owner = own ∧ t.pool = []
          ∧ free t.keySlot ∧ sget 0 u.mem.keys t.keySlot = tn + 1)
        ∧ (∀ q, q ≠ tn → u.tenant q = s.tenant q) ∧ u.cores = s.cores ∧ u.mem.bytes = s.mem.bytes))
      ∧ (s.tenant tn = none → s.fw.absent 6 = true → exec set s = .next s)
      ∧ (s.tenant tn ≠ none ∨ s.fw.absent 6 = false → ¬ fits → Answers set s t h 0x01 1 [])
      ∧ (∀ x, tn < 256 → dl < 65536 → fits → s.tenant tn = some x →
        (own ≠ x.owner → Answers set s t h 0x01 2 [])
        ∧ (own = x.owner → busy → (x0, y0, w, ht) ≠ (x.x0, x.y0, x.w, x.h) → Answers set s t h 0x01 3 [])
        ∧ (own = x.owner → ¬ busy → Replies set s h 0x01 0 [] (fun u => (∃ t', u.tenant tn = some t' ∧ (t'.x0, t'.y0, t'.w, t'.h) = (x0, y0, w, ht)
            ∧ t'.displim = dl ∧ t'.debug = dbg ∧ t'.owner = x.owner ∧ t'.pool = x.pool ∧ t'.keySlot = x.keySlot) ∧ Inside s u))))
    ∧ (FromOperator s (.tenantclose h tn) h 0x02 t → (s.tenant tn = none → Answers (.tenantclose h tn) s t h 0x02 1 [])
      ∧ (∀ x, s.tenant tn = some x → Replies (.tenantclose h tn) s h 0x02 0 [] (fun u =>
        (∀ y, y ∈ u.fab.sessions → y.id ≠ 0 → y.tenant ≠ tn) ∧ (∀ k, sget 0 u.mem.keys k ≠ tn + 1) ∧ (∀ p, p ∈ u.mem.frames → p.2 ≠ tn + 1)
        ∧ ∃ y, u.tenant tn = some y ∧ y.keySlot = 0 ∧ (y.x0, y.y0, y.w, y.h, y.owner) = (x.x0, x.y0, x.w, x.h, x.owner))))
    ∧ (FromOperator s (.sessopen h tn qt nt) h 0x41 t →
      (¬ open0 → ∃ u x ws, exec (.sessopen h tn qt nt) s = .next u ∧ u.hub.host.getLast? = some (replyOf h 0x41 0 (0 :: ws)) ∧ u.session 0 = some x
        ∧ x.confirmed = false ∧ x.qt = qt ∧ x.nt = nt ∧ Inside s u)
      ∧ (open0 → s.tenant tn = none → Answers (.sessopen h tn qt nt) s t h 0x41 1 [])
      ∧ (open0 → s.tenant tn ≠ none → (∀ k, 1 ≤ k → k ≤ 63 → s.session k ≠ none) → Answers (.sessopen h tn qt nt) s t h 0x41 4 [])
      ∧ (∀ k, open0 → s.tenant tn ≠ none → 1 ≤ k → k ≤ 63 → s.session k = none → (∀ j, 1 ≤ j → j < k → s.session j ≠ none) →
        ∃ u x ws, exec (.sessopen h tn qt nt) s = .next u
        ∧ u.hub.host.getLast? = some (replyOf h 0x41 0 (BitVec.ofNat 64 k :: ws)) ∧ u.session k = some x ∧ x.tenant = tn ∧ x.confirmed = false
        ∧ x.qt = qt ∧ x.nt = nt ∧ x.windows = [] ∧ (∀ j, j ≠ k → u.session j = s.session j) ∧ Inside s u))
    ∧ (∀ x, FromOperator s (.sessconf h n sig) h 0x42 t → s.session n = some x → x.confirmed = false →
        let transcript := Config.sha384 (leBytes 97 x.qt.toNat ++ leBytes 32 x.nt.toNat ++ leBytes 97 x.qd.toNat ++ leBytes 32 x.nd.toNat)
        let proven : Prop := ∃ k, (if n = 0 then s.hub.operatorKey else (s.tenant x.tenant).map Tenant.owner) = some k ∧ Config.ecdsaVerify k transcript sig = true
        (s.fw.absent 6 = true → exec (.sessconf h n sig) s = .next s)
        ∧ (s.fw.absent 6 = false → proven → Replies (.sessconf h n sig) s h 0x42 0 [] (fun u =>
            (∃ y, u.session n = some y ∧ y.confirmed = true ∧ y.tenant = x.tenant ∧ y.z = some (Config.ecdh x.qd x.qt))
            ∧ (∃ l, u.fab.link (.prenor n) = some l ∧ l.tx0.loaded = true ∧ l.rx0.loaded = true ∧ l.tx0.ic = 0) ∧ Inside s u))
        ∧ (s.fw.absent 6 = false → ¬ proven → Replies (.sessconf h n sig) s h 0x42 2 [] (fun u => u.session n = none ∧ Inside s u)))
    ∧ (InOrder s (.sessclose h n) h 0x43 t → (h.session = 0 ∨ h.session = n) → s.session n ≠ none → Replies (.sessclose h n) s h 0x43 0 [] (fun u => u.session n = none
        ∧ (n ≠ 0 → u.fab.link (.prenor n) = none) ∧ (∀ j, j ≠ n → u.session j = s.session j) ∧ Inside s u))

/-- R264, R270, R282, R290, R326, R334: what a tenant's session asks for: SUBMIT of a job word that names nothing is BADCMD and with a full
pool NOSPACE, else it answers index, job and graph; CANCEL ends a gang or marks a graph; PREEMPT stops a gang; RESUME continues a slot in
DEBUG; WINOPEN and WINCLOSE open and close a window; an access through one is carried out block by block, each behind what was received before it for
the same station, a block in error ending it; a write is in memory before it is acknowledged. The form of an answer to an access is the model's choice (log 93).

Model's choice where the spec leaves it open: log 12, 32, 61, 64, 91, 93, 104. -/
def Obligations.TenantCommandsAct : Prop :=
  (∀ (s z : State) (h : CmdHdr) (tn : Nat) (t : Tenant), s.tenant tn = some t →
    (∀ r job, FromTenant s (.submit h r job) h tn 0x10 z →
      (jobOf t r job = none → Answers (.submit h r job) s z h 0x10 1 [])
      ∧ (jobOf t r job ≠ none → t.freeIndexes = [] → Answers (.submit h r job) s z h 0x10 4 [])
      ∧ ((job.extractLsb' 64 64 = 1#64) → recWaitCtr r = 0 → recSigCtr r = 0 → t.freeIndexes ≠ [] → (∀ x, x ∈ t.jobs → x.id < t.nextJob) →
        (∀ x, x ∈ t.graphs → x.id < t.nextGraph) → 1 ≤ t.nextJob → 1 ≤ t.nextGraph → t.nextJob < 2 ^ 32 → t.nextGraph < 2 ^ 32 →
        ∃ u i t' p, exec (.submit h r job) s = .next u ∧ i ∈ t.freeIndexes
        ∧ u.hub.host.getLast? = some (replyOf h 0x10 0 [BitVec.ofNat 64 i, BitVec.ofNat 64 t.nextJob, BitVec.ofNat 64 t.nextGraph])
        ∧ u.tenant tn = some t' ∧ p ∈ t'.pool ∧ p.index = i ∧ p.record = r ∧ p.state = .headerWait ∧ p.depth = 0 ∧ p.issuer = none
        ∧ p.job = t.nextJob ∧ p.graph = t.nextGraph ∧ Inside s u))
    ∧ (∀ lv id, FromTenant s (.cancelCmd h lv id) h tn 0x11 z →
      ((lv = 1 → ∀ g, g ∈ s.hub.gangs → g.tenant = tn → (Config.gangId g.id).toNat ≠ id) → (lv = 2 → ∀ x, x ∈ t.graphs → x.id ≠ id) →
        (lv = 3 → ∀ x, x ∈ t.jobs → x.id ≠ id) → Answers (.cancelCmd h lv id) s z h 0x11 1 [])
      ∧ (∀ g, s.hub.gangs = [g] → g.tenant = tn → g.state ≠ .ending → g.leaving = false → lv = 1 → id = (Config.gangId g.id).toNat →
        Replies (.cancelCmd h lv id) s h 0x11 0 [] (fun u =>
        (∃ g', u.gang g.id = some g' ∧ g'.state = .ending ∧ g'.cancelled = true) ∧ Inside s u))
      ∧ ((∃ x, x ∈ t.graphs ∧ x.id = id) → (∀ r, r ∈ t.pool → r.graph = id → r.gang ≠ none) → lv = 2 → Replies (.cancelCmd h lv id) s h 0x11 0 [] (fun u =>
        (∃ t', u.tenant tn = some t' ∧ ∀ x, x ∈ t'.graphs → x.id = id → x.cancelling = true)
        ∧ (∀ r g, r ∈ t.pool → r.graph = id → r.gang = some g → ∀ x, u.gang g = some x → x.state = .ending ∨ x.leaving = true) ∧ Inside s u)))
    ∧ (∀ id, FromTenant s (.preemptCmd h id) h tn 0x12 z →
      ((∀ g, g ∈ s.hub.gangs → g.tenant = tn → (Config.gangId g.id).toNat ≠ id) → Answers (.preemptCmd h id) s z h 0x12 1 [])
      ∧ (∀ g, s.hub.gangs = [g] → g.tenant = tn → g.state = .running → id = (Config.gangId g.id).toNat → Replies (.preemptCmd h id) s h 0x12 0 [] (fun u =>
        (∃ g', u.gang g.id = some g' ∧ g'.state = .preempting) ∧ u.net.length = s.net.length + g.w * g.h ∧ Inside s u)))
    ∧ (∀ c j, FromTenant s (.resumeCmd h c j) h tn 0x70 z →
      (c < 4608 → j < 4 → (s.core c).gang ≠ none → (s.core c).tenant = tn → ((s.core c).slot (slotNo j)).state = .debug → (s.core c).ctl.pre = .none →
        Replies (.resumeCmd h c j) s h 0x70 0 [] (fun u => let x := (s.core c).slot (slotNo j)
          (u.core c).slot (slotNo j) = { x with state := .active, pc := x.epc } ∧ (∀ b, b ≠ c → u.core b = s.core b) ∧ HubKept s u h ∧ u.mem = s.mem))
      ∧ (((s.core c).slot (slotNo j)).state ≠ .debug → Answers (.resumeCmd h c j) s z h 0x70 1 []))
    ∧ (∀ va len ha pid x, FromTenant s (.winopen h va len ha pid) h tn 0x50 z → s.session h.session = some x → x.windows = [] →
        (∀ p, p ∈ hostParts (va.extractLsb' 0 56).toNat len → hostRefused s.mem (tn * 256 + pid % 256) p.1 = false) →
        Replies (.winopen h va len ha pid) s h 0x50 0 [0] (fun u =>
          (∃ y, u.session h.session = some y ∧ y.windows = [⟨0, (va.extractLsb' 0 56).toNat, len, ha.toNat, tn * 256 + pid % 256⟩])
          ∧ HubKept s u h ∧ Inside s u))
    ∧ (∀ n x, FromTenant s (.winclose h n) h tn 0x51 z → s.session h.session = some x →
        (∀ w, w ∈ x.windows → w.id = n → Replies (.winclose h n) s h 0x51 0 [] (fun u =>
          (∃ y, u.session h.session = some y ∧ ∀ v, v ∈ y.windows ↔ v ∈ x.windows ∧ v.id ≠ n) ∧ HubKept s u h ∧ Inside s u))
        ∧ ((∀ w, w ∈ x.windows → w.id ≠ n) → Answers (.winclose h n) s z h 0x51 1 [])))
  ∧ (∀ (s z : State) n x w ha bs, s.session n = some x → x.confirmed = true → x.windows = [w] → x.waiting = [] →
      s.takeBytes n (Config.accessBytes ha (some bs) 0) 0 = some z → w.haddr ≤ ha.toNat → ha.toNat + bs.length ≤ w.haddr + w.len →
      let a : HostAccess := ⟨w, ha.toNat, some bs, bs.length, none, []⟩
      let z1 := z.modSession n (fun y => { y with waiting := y.waiting ++ [a] })
      (∀ s2, hostMap z1 a = (s2, .error 7) → exec (.hostWindowAccess n ha (some bs) 0) s = .next z1)
      ∧ (∀ s2 cause, hostMap z1 a = (s2, .error cause) → cause ≠ 7 → ∃ u, exec (.hostWindowAccess n ha (some bs) 0) s = .next u
          ∧ u.hub.host.getLast? = some (reportOf n 8 [BitVec.ofNat 64 cause]) ∧ u.mem = s2.mem)
      ∧ (∀ s2 ms b rest, hostMap z1 a = (s2, .ok ms) → hostBlocks a ms = b :: rest → s2.mem.isBad b.pa b.len = false →
          ∃ u y, exec (.hostWindowAccess n ha (some bs) 0) s = .next u ∧ u.mem = s2.mem.write b.pa ((bs.drop b.off).take b.len) ∧ u.session n = some y
            ∧ (rest = [] → u.hub.host.getLast? = some (reportOf n 0 []) ∧ y.waiting = [])
            ∧ (rest ≠ [] → u.hub.host = s2.hub.host ∧ y.waiting = [{ a with todo := some rest }])))
  ∧ ∀ (s : State) n x i (a : HostAccess) l j (b : HostBlock), s.session n = some x → x.waiting[i]? = some a → a.todo = some l → l[j]? = some b →
      ((∃ m y, m < i ∧ x.waiting[m]? = some y ∧ y.holds b.station = true) → ∃ u, runTurn s (.hostStep n i j) = .next u ∧ u.session n = some x ∧ u.hub = s.hub ∧ u.mem = s.mem)
      ∧ ((∀ m y, m < i → x.waiting[m]? = some y → y.holds b.station = false) →
        (s.mem.isBad b.pa b.len = true → ∃ u y, runTurn s (.hostStep n i j) = .next u ∧ u.hub.host.getLast? = some (reportOf n 8 [0xA])
          ∧ u.session n = some y ∧ y.waiting = x.waiting.eraseIdx i ∧ u.mem = s.mem)
        ∧ (s.mem.isBad b.pa b.len = false →
          let after : HostAccess := { a with todo := some (l.eraseIdx j), got := if a.write = none then a.got ++ [(b.off, readBytes s.mem.bytes b.pa b.len)] else a.got }
          ∃ u y, runTurn s (.hostStep n i j) = .next u ∧ u.session n = some y
            ∧ u.mem = (match a.write with | some bs => s.mem.write b.pa ((bs.drop b.off).take b.len) | none => s.mem)
            ∧ (1 < l.length → u.hub = s.hub ∧ y.waiting = x.waiting.set i after)
            ∧ (l.length ≤ 1 → y.waiting = x.waiting.eraseIdx i ∧ (a.write ≠ none → u.hub.host.getLast? = some (reportOf n 0 []))
                ∧ (a.write = none → a.len ≤ 65536 → u.hub.host.getLast? = some (reportOf n 0 (dwordsOf after.read))))))

/-- R17, R18, R330, R334, R336, R337, R340, R341: MODE asks for a mode, which waits while the power manager's image is replaced; BYPASS sets
the length, once the fabric manager's image is there; STAGE keeps an image that verifies, UPDATE begins its hand-over with QUIESCE to the
target and UPSTAT tells where it stands; ATTEST answers nonce, context (zero in session 0, else the digest of the tenant's) and measurements before a signature; LOGREAD answers the log, or a
tenant's own entries. The codes and replies of MODE and BYPASS and the words of LOGREAD are the model's choice (log 74).

Model's choice where the spec leaves it open: log 20, 65, 74, 91, 94. -/
def Obligations.OperatorCommandsAct : Prop :=
  ∀ (s t : State) (h : CmdHdr) (m : Nat) (img : FwImage),
    (FromOperator s (.mode h m) h 0x20 t → (2 < m → Answers (.mode h m) s t h 0x20 1 [])
      ∧ (m ≤ 2 → Replies (.mode h m) s h 0x20 0 [] (fun u => HubKept s u h ∧ { u with hub := s.hub, mesh := s.mesh, fab := s.fab } = s ∧ u.mesh.mode = s.mesh.mode
        ∧ (if s.mesh.modeNext = none ∧ s.fw.absent 5 = false then u.mesh.modeNext = some m ∧ u.mesh.modeLater = none
           else u.mesh.modeNext = s.mesh.modeNext ∧ u.mesh.modeLater = some m))))
    ∧ (FromOperator s (.bypass h m) h 0x21 t → (s.fw.absent 4 = true → exec (.bypass h m) s = .next s)
      ∧ (s.fw.absent 4 = false → m ∈ [1, 2, 4, 8] → Replies (.bypass h m) s h 0x21 0 [] (fun u => HubKept s u h ∧ u.mesh = { s.mesh with bypass := m }
        ∧ { u with hub := s.hub, mesh := s.mesh, fab := s.fab } = s))
      ∧ (s.fw.absent 4 = false → m ∉ [1, 2, 4, 8] → Answers (.bypass h m) s t h 0x21 1 []))
    ∧ (FromOperator s (.stage h img) h 0x30 t → s.fw.absent 7 = false → s.fw.absent 6 = false → (s.fw.update = .idle ∨ s.fw.update = .staged) → s.fw.micro = .none →
        (img.function ≤ 9 → Verifies s.fw img → Replies (.stage h img) s h 0x30 0 [] (fun u =>
          HubKept s u h ∧ u.fw = { s.fw with stagedImg := some img, update := .staged } ∧ { u with hub := s.hub, fw := s.fw, fab := s.fab } = s))
        ∧ (¬ Verifies s.fw img → Answers (.stage h img) s t h 0x30 5 []))
    ∧ (FromOperator s (.update h) h 0x31 t → s.fw.absent 7 = false → s.fw.absent 6 = false → (s.fw.update = .idle ∨ s.fw.update = .staged) → s.fw.micro = .none →
        (s.fw.stagedImg = none → Answers (.update h) s t h 0x31 1 [])
        ∧ (∀ x, s.fw.stagedImg = some x → x.function < 7 → (s.fw.box 7 x.function).length < 16 → ∃ u, exec (.update h) s = .next u ∧ u.fw.update = .quiescing
            ∧ u.fw.target = x.function ∧ u.fw.box 7 x.function = s.fw.box 7 x.function ++ [0xF000000000000000#64] ∧ u.fw.watchdog = some s.hub.cycles[7]
            ∧ u.fw.asker = some (h.session, 0x31, cmdSeq h) ∧ u.hub.host = s.hub.host ∧ Inside s u))
    ∧ ((s.fw.update = .quiescing ∨ s.fw.micro = .switching) → s.fw.absent 7 = false → s.fw.absent 6 = false →
        (FromOperator s (.stage h img) h 0x30 t → Answers (.stage h img) s t h 0x30 3 []) ∧ (FromOperator s (.update h) h 0x31 t → Answers (.update h) s t h 0x31 3 []))
    ∧ (FromOperator s (.upstat h) h 0x32 t → Answers (.upstat h) s t h 0x32 0 [BitVec.ofNat 64 s.fw.update.code, BitVec.ofNat 64 s.fw.micro.code])
    ∧ (∀ nonce, FromOperator s (.attest h nonce) h 0x40 t → ∃ ws rs, Answers (.attest h nonce) s t h 0x40 0 ws
        ∧ ws = dwordsOf rs ∧ rs.length = 48 + 48 + 10 * 64 + 96 ∧ rs.take 48 = leBytes 48 nonce.toNat ∧ (rs.drop 48).take 48 = List.replicate 48 0#8
        ∧ (∀ f, f < 10 → (rs.drop (96 + 64 * f)).take 64 = (s.fw.measure f).bytes f)
        ∧ rs.drop 736 = leBytes 96 (Config.ecdsaSign (Config.sha384 (rs.take 736))).toNat)
    ∧ (∀ nonce tn x, FromTenant s (.attest h nonce) h tn 0x40 t → s.tenant tn = some x → ∃ rs, Answers (.attest h nonce) s t h 0x40 0 (dwordsOf rs)
        ∧ rs.length = 48 + 48 + 10 * 64 + 96 ∧ rs.take 48 = leBytes 48 nonce.toNat
        ∧ (rs.drop 48).take 48 = leBytes 48 (Config.sha384 (Config.contextBytes [x.id, x.x0, x.y0, x.w, x.h, x.owner.toNat])).toNat
        ∧ (∀ f, f < 10 → (rs.drop (96 + 64 * f)).take 64 = (s.fw.measure f).bytes f)
        ∧ rs.drop 736 = leBytes 96 (Config.ecdsaSign (Config.sha384 (rs.take 736))).toNat)
    ∧ (∀ tn, let words (e : LogEntry) : List Dword := [BitVec.ofNat 64 (e.core % 65536 + e.slot % 65536 * 2 ^ 16 + e.cause % 65536 * 2 ^ 32), (e.tenant.map (BitVec.ofNat 64)).getD (-1)]
        (FromOperator s (.logread h) h 0x60 t → Answers (.logread h) s t h 0x60 0 (s.hub.log.flatMap words))
        ∧ (FromTenant s (.logread h) h tn 0x60 t → Answers (.logread h) s t h 0x60 0 ((s.hub.log.filter (fun e => decide (e.tenant = some tn))).flatMap words)))

/-- R331, R332, R340 to R344: a mailbox takes 16 words in order, a full one discards the word and sets OVF, a read gives and takes the head;
the hand-over record has R343's header and is accepted by R343's test; the state machine of R341 arrow by arrow; a gated write rolls back;
the watchdog acts at 2^27 cycles; microcode switches bank core by core.

Model's choice where the spec leaves it open: log 20, 47, 66, 77, 91, 95. -/
def Obligations.FirmwareActs : Prop :=
  ∀ (s : State) (i j : Nat) (x : Dword), let w := s.fw; let f := w.target
    let runs (c : Nat) : Prop := c < 8 ∧ c ∉ w.stopped ∧ c ∉ w.failedFns
    let clock (m : Firmware) : Prop := m.watchdog = some s.runnerClock
    let tells (u : State) (status : Nat) : Prop := ∀ a, w.asker = some a →
      u.hub.host = s.hub.host ++ [⟨a.1, BitVec.ofNat 128 (a.2.1 % 65536 + status * 2 ^ 16 + a.2.2 % 2 ^ 32 * 2 ^ 64), []⟩]
    (runs i → j < 8 → w.update = .idle → (w.box i j).length < 16 → ∃ u, exec (.txWrite i j x) s = .next u ∧ OnlyFw s u ∧ u.fw.box i j = w.box i j ++ [x]
        ∧ (∀ a b, a < 8 → b < 8 → (a, b) ≠ (i, j) → u.fw.box a b = w.box a b) ∧ u.fw.ovf = w.ovf
        ∧ exec (.registerWrite i (8 * j) ⟨8, x⟩) s = .next u)
    ∧ (runs i → j < 8 → w.update = .idle → 16 ≤ (w.box i j).length → ∃ u, exec (.txWrite i j x) s = .next u ∧ OnlyFw s u ∧ u.fw.boxes = w.boxes
        ∧ u.fw.ovf[hubNo i] = w.ovf[hubNo i] ||| (1#8 <<< j) ∧ exec (.registerWrite i (8 * j) ⟨8, x⟩) s = .next u)
    ∧ (runs i → w.gate = false → exec (.registerWrite i (8 * j) ⟨4, x⟩) s = .next s ∧ (∃ u, exec (.registerWrite i 0x218 ⟨8, x⟩) s = .next u ∧ OnlyFw s u
        ∧ u.fw.ie[hubNo i] = x.extractLsb' 0 8 ∧ u.fw.boxes = w.boxes ∧ u.fw.ovf = w.ovf))
    ∧ (runs j → i < 8 → w.gate = false → ∃ u, exec (.rxRead j i) s = .next u ∧ OnlyFw s u ∧ u.fw.reads[hubNo j] = (w.box i j).headD 0 ∧ u.fw.box i j = (w.box i j).tail
        ∧ (∀ a b, a < 8 → b < 8 → (a, b) ≠ (i, j) → u.fw.box a b = w.box a b) ∧ u.fw.ovf = w.ovf)
    ∧ (∀ b, runs i → w.gate = false → ∃ u, exec (.mbovfClear i b) s = .next u ∧ OnlyFw s u ∧ u.fw.ovf[hubNo i] = w.ovf[hubNo i] &&& ~~~b ∧ u.fw.boxes = w.boxes)
    ∧ (w.update = .quiescing → w.headType w.runner f = 0xF0 → ∃ u, exec .quiesce s = .next u ∧ OnlyFw s u ∧ u.fw.box w.runner f = (w.box w.runner f).tail)
    ∧ (∀ img, w.update = .quiescing → f < 7 → runs f → s.watched = true → (w.box 7 f).length < 16 → (w.box f 7).length < 16 → w.stagedImg = some img → ∃ u, exec (.handed x) s = .next u
        ∧ u.fw.box f 7 = w.box f 7 ++ [boxWord 0xF1 x] ∧ { u with fw := w, fresh := s.fresh } = s ∧ u.fw.update = .starting ∧ u.fw.gate = true ∧ f ∈ u.fw.stopped ∧ u.fw.box 7 f = w.box 7 f ++ [boxWord 0xF2 (wordArg x)] ∧ clock u.fw
        ∧ (f < u.fw.measures.length → u.fw.measure f = ⟨true, img.svn, img.version, Config.sha384 (signedBytes img)⟩) ∧ u.fw.oldMeasure = some (w.measure f)
        ∧ (let r := u.fw.recordBytes; fieldAt r 0 4 = 0x4F4D4552 ∧ fieldAt r 4 1 = f ∧ fieldAt r 0x0C 4 = (w.measure f).version.toNat % 2 ^ 32
            ∧ (let secs := s.sections f; let bytes (y : Nat × Bool × Config.Section) := Config.sectionBytes y.2.2
               fieldAt r 8 4 = secs.length % 2 ^ 32 ∧ ∀ k y, secs[k]? = some y → fieldAt r (0x80 + 16 * k) 2 = y.1 % 65536 ∧ fieldAt r (0x82 + 16 * k) 2 = b2n y.2.1
                 ∧ (r.drop (128 + 16 * secs.length + ((secs.take k).map (fun z => (bytes z).length)).sum)).take (bytes y).length = bytes y)
            ∧ fieldAt r 0x10 8 = (sget 0 w.handovers f + 1) % 2 ^ 64 ∧ fieldAt r 0x18 8 = r.length % 2 ^ 64 ∧ fieldAt r 0x50 48 = (Config.sha384 (r.drop 128)).toNat))
    ∧ (w.update = .quiescing → runs f → s.watched = true → 16 ≤ (w.box f w.runner).length → ∃ u, exec (.handed x) s = .next u ∧ OnlyFw s u
        ∧ u.fw.update = .quiescing ∧ u.fw.boxes = w.boxes ∧ u.fw.ovf[hubNo f] = w.ovf[hubNo f] ||| (1#8 <<< w.runner))
    ∧ (w.update = .quiescing → runs f → wordType x = 0xF1 → exec (.txWrite f w.runner x) s = exec (.handed (wordArg x)) s)
    ∧ (let r := w.recordBytes; w.recordAccepted = true ↔ ∃ y, w.stagedImg = some y ∧ fieldAt r 0 4 = 0x4F4D4552 ∧ fieldAt r 4 1 = y.function ∧ Accepts y 0 (fieldAt r 6 2)
        ∧ (∀ k, k < fieldAt r 8 4 → fieldAt r (0x82 + 16 * k) 2 % 2 = 1 → Accepts y (fieldAt r (0x80 + 16 * k) 2) (fieldAt r (0x84 + 16 * k) 4))
        ∧ fieldAt r 0x50 48 = (Config.sha384 ((r.drop 128).take (fieldAt r 0x18 8 - 128))).toNat)
    ∧ ((w.update = .starting ∨ w.update = .resuming) → f < 8 → f ∈ w.stopped → w.headType w.runner f = 0xF2 →
        (w.update = .starting → w.recordAccepted = true) → ∃ u, exec .resume s = .next u ∧ OnlyFw s u
        ∧ u.fw.box w.runner f = (w.box w.runner f).tail ∧ f ∉ u.fw.stopped ∧ u.fw.update = w.update ∧ clock u.fw)
    ∧ (w.update = .starting → w.recordAccepted = false → f < 8 → f ∈ w.stopped → w.headType w.runner f = 0xF2 → (w.box f w.runner).length < 16 →
        ∃ u q, exec .resume s = .next u ∧ { u with fw := w, fresh := s.fresh } = s ∧ u.fw.box f w.runner = w.box f w.runner ++ [q] ∧ wordType q = 0xF4
          ∧ u.fw.update = .resuming ∧ u.fw.gate = false ∧ f ∈ u.fw.stopped ∧ clock u.fw)
    ∧ ((w.update = .starting ∨ w.update = .resuming) → (s.watched = false → ∀ v, exec (.alive v) s = .next s)
        ∧ (s.watched = true → runs f → 16 ≤ (w.box f w.runner).length → ∀ v, ∃ u, exec (.alive v) s = .next u ∧ OnlyFw s u ∧ u.fw.update = w.update ∧ u.fw.boxes = w.boxes))
    ∧ (w.update = .starting → runs f → s.watched = true → (w.box f w.runner).length < 16 →
        (∀ v, ∃ u, exec (.alive v) s = .next u ∧ u.fw.box f w.runner = w.box f w.runner ++ [boxWord 0xF3 v] ∧ u.fw.update = .idle ∧ u.fw.gate = false
          ∧ u.fw.stagedImg = none ∧ u.fw.watchdog = none ∧ Inside s u ∧ tells u 0)
        ∧ (∀ q, ∃ u, exec (.reject q) s = .next u ∧ OnlyFw s u ∧ u.fw.box f w.runner = w.box f w.runner ++ [boxWord 0xF4 (BitVec.ofNat 64 q)]
          ∧ u.fw.update = .resuming ∧ u.fw.gate = false ∧ f ∈ u.fw.stopped ∧ clock u.fw))
    ∧ (w.update = .starting → runs f → (∃ u, exec .imageFault s = .next u ∧ OnlyFw s u ∧ u.fw.update = .resuming ∧ f ∈ u.fw.stopped)
        ∧ (w.gate = true → ∃ u, exec .gatedWrite s = .next u ∧ OnlyFw s u ∧ u.fw.update = .resuming ∧ u.fw.gate = false ∧ f ∈ u.fw.stopped))
    ∧ (w.update = .resuming → runs f →
        (∀ v, s.watched = true → (w.box f w.runner).length < 16 → ∃ u, exec (.alive v) s = .next u ∧ u.fw.box f w.runner = w.box f w.runner ++ [boxWord 0xF3 v] ∧ u.fw.update = .idle
          ∧ u.fw.stagedImg = none ∧ u.fw.watchdog = none ∧ Inside s u ∧ tells u 7)
        ∧ (∃ u, exec .imageFault s = .next u ∧ u.fw.update = .failed ∧ f ∈ u.fw.failedFns ∧ f ∈ u.fw.stopped ∧ u.hub.log.getLast? = some ⟨0, 7, 0, none⟩ ∧ Inside s u ∧ tells u 8))
    ∧ ((w.update = .starting ∨ w.update = .resuming) → runs f → wordType x = 0xF3 → exec (.txWrite f w.runner x) s = exec (.alive (wordArg x)) s)
    ∧ (w.headType w.runner f = 0xF5 → ∃ u, exec .continueImage s = .next u ∧ OnlyFw s u ∧ u.fw.box w.runner f = (w.box w.runner f).tail)
    ∧ (∀ t0, w.watchdog = some t0 → t0 + 2 ^ 27 ≤ s.runnerClock →
        (w.update = .quiescing → (w.box w.runner f).length < 16 → ∃ u, exec .watchdogExpiry s = .next u ∧ u.fw.update = .staged
          ∧ u.fw.box w.runner f = w.box w.runner f ++ [0xF500000000000000#64] ∧ tells u 9)
        ∧ (w.update = .starting → ∃ u, exec .watchdogExpiry s = .next u ∧ OnlyFw s u ∧ u.fw.update = .resuming ∧ f ∈ u.fw.stopped)
        ∧ (w.update = .resuming → ∃ u, exec .watchdogExpiry s = .next u ∧ u.fw.update = .failed ∧ f ∈ u.fw.failedFns ∧ tells u 8))
    ∧ (∀ t0, w.watchdog = some t0 → s.runnerClock < t0 + 2 ^ 27 → exec .watchdogExpiry s = .next s)
    ∧ (w.micro = .multicasting → ∃ u, exec .microcodeMulticastDone s = .next u ∧ OnlyFw s u ∧ u.fw.micro = .switching ∧ clock u.fw)
    ∧ (∀ c, w.micro = .switching → c < 4608 → c ∉ w.reported → (s.core c).scause = 0 → (s.core c).ctl.pre = .none → s.watched = true →
        (w.reported.length + 1 < 4608 →
          ∃ u, exec (.microcodeBankSwitch c) s = .next u ∧ (u.core c).ctl.bank = 1 - (s.core c).ctl.bank ∧ (u.core c).ctl.switched = true ∧ c ∈ u.fw.reported
            ∧ { u.core c with ctl := (s.core c).ctl } = s.core c ∧ (∀ b, b ≠ c → u.core b = s.core b) ∧ { u with cores := s.cores, fw := s.fw } = s)
        ∧ (w.reported.length + 1 = 4608 → ∃ u, exec (.microcodeBankSwitch c) s = .next u ∧ u.fw.micro = .none ∧ u.fw.stagedImg = none ∧ tells u 0))
    ∧ (∀ c, w.micro = .rollingBack → (s.core c).ctl.switched = true → (s.core c).scause = 0 → (s.core c).ctl.pre = .none →
        ∃ u, exec (.microcodeSwitchBack c) s = .next u ∧ (u.core c).ctl.bank = 1 - (s.core c).ctl.bank ∧ (u.core c).ctl.switched = false
          ∧ (∀ b, b ≠ c → u.core b = s.core b) ∧ u.mem = s.mem)

/-- R317, R335, R336, R338: package reset starts the images that verify, measures them, reports FAILED for each function without one through
session 0 and leaves cores, mesh and headers as at reset, the fabric with a link for every port that its straps give a neighbour, each at
reset, and no flow, session or routing entry; the operator's key is written once.

Model's choice where the spec leaves it open: log 22, 32, 67, 91. -/
def Obligations.ResetsThePackage : Prop :=
  ∀ (s : State) (imgs : List FwImage) (strap : Option Nat) (dg : BitVec 384),
    (∃ u, exec (.packageReset imgs strap) s = .next u ∧ u.cores = [] ∧ u.net = [] ∧ u.mesh = State.reset.mesh ∧ u.mem = { State.reset.mem with bytes := s.mem.bytes }
      ∧ u.hub.tenants = [] ∧ u.hub.gangs = [] ∧ u.fw.svnMin = s.fw.svnMin ∧ u.hub.operatorKey = s.hub.operatorKey
      ∧ (∀ f, f < 10 → (f ∈ u.fw.failedFns ↔ ¬ ∃ b x, b ∈ imgs ∧ b.function = 9 ∧ Verifies s.fw b ∧ x ∈ imgs ∧ x.function = f ∧ Verifies s.fw x))
      ∧ (∀ f, f < 10 → f ∉ u.fw.failedFns → ∃ x, x ∈ imgs ∧ x.function = f ∧ Verifies s.fw x ∧ u.fw.measure f = ⟨false, x.svn, x.version, Config.sha384 (signedBytes x)⟩)
      ∧ u.hub.host = u.fw.failedFns.map (fun f => reportOf 0 8 [BitVec.ofNat 64 f])
      ∧ (let named (d : Nat) : Prop := strap = some d ∧ d % 2048 < 1057 ∧ d < 2 ^ 22;
          (∀ d, named d → u.fab.device = d ∧ u.fab.strapped = true ∧ ∀ n, (u.fab.link (.port n)).isSome = true ↔ n < 37 ∧ ¬ (n = 32 ∧ orthogonal (d % 2048) (d % 2048) = true))
          ∧ ((∀ d, ¬ named d) → u.fab.device = 0 ∧ u.fab.strapped = false ∧ ∀ n, u.fab.link (.port n) = none)
          ∧ (u.fab.link (.prenor 0)).isSome = true ∧ (∀ l, l ∈ u.fab.links → { l with queue := [] } = LinkState.reset l.link)
          ∧ u.fab.flows = [] ∧ u.fab.sessions = [] ∧ u.fab.partition = [] ∧ ∀ p, routeValid (u.fab.entry p) = false))
    ∧ (s.hub.operatorKey = none → ∃ u, exec (.operatorKeyWrite dg) s = .next u ∧ u.hub.operatorKey = some dg ∧ { u with hub := { u.hub with operatorKey := none } } = s)
    ∧ (s.hub.operatorKey ≠ none → exec (.operatorKeyWrite dg) s = .next s)

/-- R127, R308, R318 to R324, R329: a fabric packet for this device enters the mesh on the HUB channel, a request of a device outside its tenant's
partition being refused, an answer settling its flow; one for another device leaves by the table, one with a reserved ROUTE is NAKed, in the flow to its source,
and one for a core that is none (DEST 4,608 up) is dropped and reported, the model's choice (log 73); a
flow's route changes with nothing unacknowledged, else waits; a DATA flit in order is taken and acknowledged, one out of order NAKed once,
the one lacking whenever it fails; an ACK frees, a NAK replays, a flit replayed three times takes the link down, which is told through
session 0 (its words: log 74); a key switch seals a MARKER and goes on under the other slot.

Model's choice where the spec leaves it open: log 20, 21, 24, 32, 47, 73, 74, 92. -/
def Obligations.FabricActs : Prop :=
  ∀ (s : State) (l : LinkState), let lk := l.link; s.fab.link lk = some l →
    let after (i : Instr) (P : LinkState → Prop) : Prop := ∃ u y, exec i s = .next u ∧ u.fab.link lk = some y ∧ P y ∧ OnlyFab s u
    let opened (f : Flit) : Prop := ∀ n, lk = .prenor n → OpenSession s f.session
    let good (f : Flit) : Prop := l.up = true ∧ opened f ∧ f.session = linkSession lk ∧ f.authentic = true ∧ (l.rx f.ks).loaded = true ∧ f.len ≤ 224
    (∀ f, good f → f.typ = 0 → exec (.flitIdle lk f) s = .next s)
    ∧ (∀ f, good f → f.typ = 1 → f.lseq = l.rxSeq → after (.flitData lk f) (fun y =>
        y = { l with rxBytes := l.rxBytes ++ f.payload.take f.len, rxSeq := (l.rxSeq + 1) % 2 ^ 32, nakSent := false, owed := l.owed ++ [(3, l.rxSeq)] }))
    ∧ (∀ f, l.up = true → opened f → f.typ = 1 → f.session = linkSession lk → (f.authentic = false ∨ f.lseq ≠ l.rxSeq) → after (.flitData lk f) (fun y =>
        y = if l.nakSent = true ∧ f.lseq ≠ l.rxSeq then l else { l with nakSent := true, owed := l.owed ++ [(4, l.rxSeq)] }))
    ∧ (∀ n f, l.up = true → lk = .prenor n → ¬ OpenSession s f.session → f.typ = 1 → ∃ u, exec (.flitData lk f) s = .next u
        ∧ u.hub.log.getLast? = some ⟨0, 7, 0, none⟩ ∧ { u with hub := { u.hub with log := s.hub.log } } = s)
    ∧ (∀ f, good f → f.typ = 2 → f.lseq = l.rxSeq → after (.flitMarker lk f) (fun y => (y.rx f.ks).retiring = true ∧ (y.rx f.ks).loaded = true
        ∧ y.rxSeq = (l.rxSeq + 1) % 2 ^ 32 ∧ y.rxBytes = l.rxBytes))
    ∧ (∀ f x rest, good f → f.typ = 3 → l.unacked = x :: rest → leNat (f.payload.take 4) = x.flit.lseq → after (.flitAck lk f) (fun y => y.unacked = rest))
    ∧ (∀ f x rest, good f → f.typ = 4 → l.unacked = x :: rest → leNat (f.payload.take 4) = x.flit.lseq → (∀ z, z ∈ l.unacked → z.replays < 3) →
        after (.flitNak lk f) (fun y => y.unacked = l.unacked.map (fun z => ⟨z.flit, z.replays + 1⟩) ∧ y.up = true))
    ∧ (∀ f x rest, good f → f.typ = 4 → l.unacked = x :: rest → leNat (f.payload.take 4) = x.flit.lseq → 3 ≤ x.replays → ∃ u y, exec (.flitNak lk f) s = .next u
        ∧ u.fab.link lk = some y ∧ y.up = false ∧ y.unacked = [] ∧ u.hub.log.getLast? = some ⟨0, 7, 0, none⟩
        ∧ u.hub.host.getLast? = some (reportOf 0 8 [BitVec.ofNat 64 (match lk with | .port n => n | .prenor n => 64 + n)]) ∧ Inside s u)
    ∧ (l.up = true → l.cur < 2 → l.txSlot.loaded = true → (l.tx (1 - l.cur)).loaded = true → (l.tx (1 - l.cur)).retiring = false → after (.keySwitch lk) (fun y =>
        y.cur = 1 - l.cur ∧ (y.tx l.cur).retiring = true ∧ y.tx (1 - l.cur) = l.tx (1 - l.cur) ∧ y.lseq = (l.lseq + 1) % 2 ^ 32
        ∧ ∃ m : Flit, y.unacked = l.unacked ++ [⟨m, 0⟩] ∧ m.typ = 2 ∧ m.ks = l.cur ∧ m.ic = l.txSlot.ic ∧ m.lseq = l.lseq))
    ∧ (∀ salt, s.fw.absent 6 = false → l.cur < 2 → l.txSlot.loaded = true → (l.tx (1 - l.cur)).loaded = false → after (.keySlotLoad lk salt) (fun y =>
        (y.tx (1 - l.cur)).loaded = true ∧ (y.tx (1 - l.cur)).ic = 0 ∧ y.tx l.cur = l.tx l.cur ∧ y.cur = l.cur))
    ∧ (∀ n p, lk = .port n → n < 33 → l.rxBytes.take (fabricLen p) = fabricBytes p →
        (∀ c a d, p.ddev = s.fab.device → p.route < 9 → devPoint p.ddev ≤ 1056 → p.packet.src = .core c → p.packet.dst = .foreign a d →
            d < 4608 → (∀ g m, p.packet.body ≠ .hub g m) → (∀ g m, p.packet.body ≠ .tree g m) → (∀ x y, p.packet.body ≠ .repair x y) → (∀ m, p.packet.body ≠ .move m) →
            (∀ x, p.packet.body ≠ .release x) → ∃ u, exec (.fabricPacket n p) s = .next u ∧ Inside s u
              ∧ (∃ y, u.fab.link lk = some y ∧ y.rxBytes = l.rxBytes.drop (fabricLen p))
              ∧ (let q : Packet := { p.packet with src := .foreign p.sdev c, dst := .core d, vc := .hub }
                 if isAnswer p.packet = true then u.net = s.net ++ [q] ∧ ∀ fl, s.fab.asking q = some fl → let gl := u.fab.flow fl.tenant fl.ddev
                   gl = fl.settle d q.tag (answersOf q.tag)
                     ∧ ∀ x rest, fl.out = x :: rest → x.core = d → x.tag = tagKey q.tag → answersOf q.tag ≤ x.left → gl.unacked + answersOf q.tag = fl.unacked
                 else if (q.tenant, p.sdev) ∈ s.fab.partition ∨ isReserved q = true then u.net = s.net ++ [q]
                 else ∃ z a, u.net = s.net ++ [z] ∧ z.dst = .foreign p.sdev c ∧ z.tag = q.tag ∧ z.body = .nak 0x05 false a))
        ∧ (∀ c a d, p.ddev = s.fab.device → p.route < 9 → devPoint p.ddev ≤ 1056 → p.packet.src = .core c → p.packet.dst = .foreign a d → 4608 ≤ d →
            ∃ u y, exec (.fabricPacket n p) s = .next u ∧ u.net = s.net ∧ u.cores = s.cores ∧ u.hub.log.getLast? = some ⟨0, 7, 0, none⟩ ∧ u.fab.link lk = some y
              ∧ y.rxBytes = l.rxBytes.drop (fabricLen p))
        ∧ (∀ m k, p.ddev ≠ s.fab.device → p.route = 0 → devPoint p.ddev ≤ 1056 → devPod p.ddev = devPod s.fab.device →
            routeValid (s.fab.entry (devPoint p.ddev)) = true → routePort (s.fab.entry (devPoint p.ddev)) = m → m ≠ n → s.fab.link (.port m) = some k → k.present = true → k.up = true →
            ∃ u y, exec (.fabricPacket n p) s = .next u ∧ u.fab.link (.port m) = some y ∧ y.queue = k.queue ++ [.packet p] ∧ u.net = s.net ∧ OnlyFab s u)
        ∧ (∀ c, 9 ≤ p.route → p.sdev ≠ s.fab.device → p.packet.src = .core c → let fl := s.fab.flow p.packet.tenant p.sdev
            (fl.next.isSome = true ∨ fl.held ≠ []) → ∃ u z, exec (.fabricPacket n p) s = .next u ∧ (u.fab.flow p.packet.tenant p.sdev).held = fl.held ++ [z]
              ∧ z.dst = .foreign p.sdev c ∧ (∃ x, z.body = .nak 0x06 false x) ∧ u.net = s.net ∧ OnlyFab s u)
        ∧ (∀ c m k, 9 ≤ p.route → p.sdev ≠ s.fab.device → p.packet.src = .core c → let fl := s.fab.flow p.packet.tenant p.sdev
            fl.next = none → fl.held = [] → fl.route = 0 → (fl.unacked = 0 ∨ fl.port = m) → devPoint p.sdev ≤ 1056 → devPod p.sdev = devPod s.fab.device →
            routeValid (s.fab.entry (devPoint p.sdev)) = true → routePort (s.fab.entry (devPoint p.sdev)) = m → m ≠ n → s.fab.link (.port m) = some k → k.present = true → k.up = true →
            ∃ u y q, exec (.fabricPacket n p) s = .next u ∧ u.fab.link (.port m) = some y ∧ y.queue = k.queue ++ [.packet q] ∧ q.ddev = p.sdev
              ∧ (∃ x, q.packet.body = .nak 0x06 false x) ∧ u.net = s.net ∧ OnlyFab s u))
    ∧ (∀ tn dev r, dev ≠ s.fab.device → s.fab.names dev = true → s.fw.absent 4 = false → r ≤ routeNint (s.fab.entry (devPoint dev)) → let fl := s.fab.flow tn dev
        (fl.unacked = 0 → fl.held = [] → ∃ u, exec (.flowRouteChange tn dev r) s = .next u ∧ (u.fab.flow tn dev).route = r ∧ (u.fab.flow tn dev).next = none ∧ OnlyFab s u)
        ∧ (fl.unacked ≠ 0 → ∃ u, exec (.flowRouteChange tn dev r) s = .next u ∧ (u.fab.flow tn dev).route = fl.route ∧ (u.fab.flow tn dev).next = some r ∧ OnlyFab s u))

/-! The decoder, the step and the reset -/

namespace Sys2Proof.Claims

/-- Every store of a core is in its canonical form: addresses strictly rising, no entry equal to what an unlisted one reads as. -/
def CoreCanonical (k : Core) : Prop :=
  Memory.wf k.ls = true ∧ Memory.wf k.acc = true ∧ swf 0 k.lsHdr = true ∧ swf k.accBase k.accHdr = true

/-- Every store of the part is: the cores, device memory and its headers, and the cores and the save area that saved gangs hold. -/
def Canonical (s : State) : Prop :=
  swf Core.reset s.cores = true ∧ (∀ c, CoreCanonical (s.core c)) ∧ Memory.wf s.mem.bytes = true ∧ swf 0 s.mem.hdrs = true
    ∧ ∀ g, g ∈ s.hub.gangs → Memory.wf g.area = true ∧ ∀ k, k ∈ g.saved → CoreCanonical k

/-- The word at an offset of a core's local store, byte by byte. -/
def wordIn (k : Core) (x : Nat) : BitVec 32 := readByte k.ls (x + 3) ++ readByte k.ls (x + 2) ++ readByte k.ls (x + 1) ++ readByte k.ls x

end Sys2Proof.Claims

/-- R26, R28 to R33: words written out field by field from the tables stand for their instructions. -/
def Obligations.DecodesTableWords : Prop :=
  decodeWord (0b000001#6 ++ 3#5 ++ 1#5 ++ 2#5 ++ 0x000#11) = .ok (.add 3 1 2)
  ∧ decodeWord (0b000011#6 ++ 3#5 ++ 1#5 ++ 0xFFFF#16) = .ok (.addi 3 1 0xFFFF)
  ∧ decodeWord 0x00000000#32 = .error .unusedMajor
  ∧ decodeTableWord 32 0x04611000 = some (.add 3 1 2)

/-- R26 to R33: decode of encode is the identity on every well-formed instruction that a word encodes, at every value of every operand. -/
def Obligations.DecodeEncode : Prop := ∀ (i : Instr) (w : BitVec 32), i.wellFormed = true → encode i = some w → decodeWord w = .ok i

/-- R53, R141, R227, R279, R285: a cycle of a core executes the word at the pc of the slot chosen, in the state that the tick and the cycle's
consumptions leave and in which that slot is the issuer, a word that is none as ILLEGAL, and a pending trap before any word; where RETRY is
due the supervisor slot executes it instead, and where no slot is ready the cycle passes. A step with nothing on the agenda is a cycle of the
issuing core; a turn of the supervisor executes its word in such a cycle, unless it waits, and a turn of an event executes that (log 1, log 9).

Model's choice where the spec leaves it open: log 1, 9, 79. -/
def Obligations.StepRunsDecoded : Prop :=
  ∀ (s : State) (c : Nat) (rest : List Turn), let s0 : State := { s with agenda := rest }; let s1 := tickCore s0 c; let s2 := cycleState s0 c; let k := s1.core c
    (((s.agenda = .cycle c :: rest ∧ c < 4608) ∨ (s.agenda = [] ∧ rest = [] ∧ c = s.issuer.1)) →
      (s1.retryDue c = true → step s = exec (if 0 < k.ctl.repairs then .retry else .noparkRetry c) { s2 with issuer := (c, 4) })
      ∧ (s1.retryDue c = false → s1.chooseSlot c = none → step s = .next s2)
      ∧ (∀ j, s1.retryDue c = false → s1.chooseSlot c = some j → let x := k.slot j
          (x.intrap = false → x.pendTraps ≠ [] → k.midway j = false → step s = exec (.asyncTrap c j.val) (s2.startIssue c j))
          ∧ ((x.intrap = true ∨ x.pendTraps = [] ∨ k.midway j = true) → x.fetched = [] → 0x100 ≤ x.pc.toNat → x.pc.toNat + 4 ≤ k.page.lsbytes →
              (∀ l y, some l ∈ k.locks.toList → l.dest = true → x.pc.toNat ≤ y → y < x.pc.toNat + 4 → ¬ (l.base ≤ y ∧ y < l.limit)) →
              (∀ i, decodeWord (wordIn k x.pc.toNat) = .ok i → step s = exec i (s2.startIssue c j))
              ∧ (∀ e, decodeWord (wordIn k x.pc.toNat) = .error e → step s = exec (.illegal (wordIn k x.pc.toNat)) (s2.startIssue c j)))))
    ∧ (∀ w i, s.agenda = .micro c w :: rest → c < 4608 → 8 ∉ s.fw.failedFns → decodeWord w = .ok i →
        (waitsAt i { s1 with issuer := (c, 4) } = false → step s = exec i { s2 with issuer := (c, 4) })
        ∧ (waitsAt i { s1 with issuer := (c, 4) } = true → step s = step { s with agenda := .cycle c :: rest }))
    ∧ (∀ i, s.agenda = .event i :: rest → encode i = none → i ≠ .fetchFault → (∀ w, i ≠ .illegal w) → (∀ b, i ≠ .matcherFiring b ∧ i ≠ .noparkRetry b) → step s = exec i s0)

/-- R5, R25, R55, R72, R194, R311, R318, R331: what the tables give as reset values, and the canonical form of every store at reset.

Model's choice where the spec leaves it open: log 6. -/
def Obligations.ResetValues : Prop :=
  Canonical State.reset
  ∧ (∀ c, let k := State.reset.core c
      k.cycle = 0 ∧ k.ctl.agemax = 256 ∧ k.ctl.aggfill = 16 ∧ k.outstand = 0 ∧ k.aggst = 0 ∧ k.ni.scope = []
      ∧ (∀ i : Fin 5, let x := k.slot i
          x.state = .free ∧ x.cause = 0 ∧ x.epc = 0 ∧ x.tval = 0 ∧ x.cdc = 0 ∧ x.rmode = 0 ∧ x.intrap = false ∧ ∀ n : Fin 4, x.st[n] = 0)
      ∧ ∀ off, k.header off = 0)
  ∧ (∀ a, State.reset.mem.header a = 0)
  ∧ (∀ t, let m := State.reset.mesh; sget 0 m.members t = 0 ∧ sget 0 m.bankSel t = 0 ∧ sget 0 m.bank0 t = 0 ∧ sget 0 m.bank1 t = 0)
  ∧ (∀ p, routeValid (State.reset.fab.entry p) = false)
  ∧ (∀ i j, State.reset.fw.box i j = [])

/-- Every step keeps every store in its canonical form, so that equal memories are equal data.

Model's choice where the spec leaves it open: log 5, 7. -/
def Obligations.StepKeepsCanonical : Prop := ∀ (s t : State), Canonical s → step s = .next t → Canonical t

/-! Statements of several parts -/

/-- R128, R131, R132: `AluResults` and `ImmediateResults` and `ConstantResults`. -/
def Obligations.IntegerResults : Prop := Claims.AluResults ∧ Claims.ImmediateResults ∧ Claims.ConstantResults

/-- R128, R129: `BitCountResults` and `BitFieldResults`. -/
def Obligations.BitResults : Prop := Claims.BitCountResults ∧ Claims.BitFieldResults

/-- R133, R134: `BranchesGo` and `JumpsLink`. -/
def Obligations.BranchesAndJumps : Prop := Claims.BranchesGo ∧ Claims.JumpsLink

/-- R112, R117, R135: `OwnLoadsGiveDatum` and `OwnStoresWriteBytes`. -/
def Obligations.OwnLoadsAndStores : Prop := Claims.OwnLoadsGiveDatum ∧ Claims.OwnStoresWriteBytes

/-- R87, R96, R197: `OwnReductionsUpdate` and `OwnFloatReductionsUpdate`.

Model's choice where the spec leaves it open: log 14. -/
def Obligations.OwnReductions : Prop := Claims.OwnReductionsUpdate ∧ Claims.OwnFloatReductionsUpdate

/-- R63, R71, R136, R139, R156, R158, R159, R187: `RemoteRequestsGoOn` and `RemoteVectorsGoOn`.

Model's choice where the spec leaves it open: log 25. -/
def Obligations.RemoteRequests : Prop := Claims.RemoteRequestsGoOn ∧ Claims.RemoteVectorsGoOn

/-- R145, R146, R150: `LaneFloatResults` and `LaneSignAndOrderResults`.

Model's choice where the spec leaves it open: log 13, 14. -/
def Obligations.LaneFloats : Prop := Claims.LaneFloatResults ∧ Claims.LaneSignAndOrderResults

/-- R152: `CompareResults` and `MaskResults`. -/
def Obligations.ComparesAndMasks : Prop := Claims.CompareResults ∧ Claims.MaskResults

/-- R73, R92, R160, R161: `LaneConversions` and `NumberFormats`.

Model's choice where the spec leaves it open: log 45, 101. -/
def Obligations.ConversionResults : Prop := Claims.LaneConversions ∧ Claims.NumberFormats

/-- R112, R121, R153, R154: `OwnVectorsMove` and `OwnLanesMove`.

Model's choice where the spec leaves it open: log 15, 97. -/
def Obligations.OwnVectors : Prop := Claims.OwnVectorsMove ∧ Claims.OwnLanesMove

/-- R158, R159: `OwnBlocksDecode` and `OwnBlocksEncode`.

Model's choice where the spec leaves it open: log 36, 76. -/
def Obligations.OwnBlocks : Prop := Claims.OwnBlocksDecode ∧ Claims.OwnBlocksEncode

/-- R187, R192, R213, R215: `SendsDeliver` and `RemoteSendsLeave`.

Model's choice where the spec leaves it open: log 27, 30. -/
def Obligations.Sends : Prop := Claims.SendsDeliver ∧ Claims.RemoteSendsLeave

/-- R39, R217, R218, R220, R221: `ChannelsConfigure` and `PatternsSet`.

Model's choice where the spec leaves it open: log 84, 87. -/
def Obligations.ChannelsAndPatterns : Prop := Claims.ChannelsConfigure ∧ Claims.PatternsSet

/-- R49, R190, R200, R203: `FencesPass` and `FlushEmptiesBuffers`.

Model's choice where the spec leaves it open: log 30. -/
def Obligations.FencesAndFlush : Prop := Claims.FencesPass ∧ Claims.FlushEmptiesBuffers

/-- R3, R25, R122, R124, R140, R202, R287: `ControlRegistersRead` and `ControlRegistersWrite` and `WindowsReadAndWrite`.

Model's choice where the spec leaves it open: log 86, 89. -/
def Obligations.ControlRegisters : Prop := Claims.ControlRegistersRead ∧ Claims.ControlRegistersWrite ∧ Claims.WindowsReadAndWrite

/-- R36, R39, R98, R100, R101, R103, R110: `CommandsQueue` and `CancelReturnsArms`.

Model's choice where the spec leaves it open: log 88, 100. -/
def Obligations.CommandsAndCancel : Prop := Claims.CommandsQueue ∧ Claims.CancelReturnsArms

/-- R234, R236, R237, R238, R243, R245, R246, R248, R272, R274: `CensusesTravel` and `BarriersTravel`.

Model's choice where the spec leaves it open: log 1, 35, 53. -/
def Obligations.TreesTravel : Prop := Claims.CensusesTravel ∧ Claims.BarriersTravel
end

