-- ==== Sys2Proof/Laws/Dispatch.lean ====
section
/-! SUPPORT. The arms of exec, one equation each: what an instruction does is its own meaning. -/

namespace Sys2Proof.Machine

@[simp] theorem exec_add (d a b : BitVec 5) (s : State) : exec (.add d a b) s = execAdd d a b s := rfl
@[simp] theorem exec_sub (d a b : BitVec 5) (s : State) : exec (.sub d a b) s = execSub d a b s := rfl
@[simp] theorem exec_and (d a b : BitVec 5) (s : State) : exec (.and d a b) s = execAnd d a b s := rfl
@[simp] theorem exec_or (d a b : BitVec 5) (s : State) : exec (.or d a b) s = execOr d a b s := rfl
@[simp] theorem exec_xor (d a b : BitVec 5) (s : State) : exec (.xor d a b) s = execXor d a b s := rfl
@[simp] theorem exec_andn (d a b : BitVec 5) (s : State) : exec (.andn d a b) s = execAndn d a b s := rfl
@[simp] theorem exec_sll (d a b : BitVec 5) (s : State) : exec (.sll d a b) s = execSll d a b s := rfl
@[simp] theorem exec_srl (d a b : BitVec 5) (s : State) : exec (.srl d a b) s = execSrl d a b s := rfl
@[simp] theorem exec_sra (d a b : BitVec 5) (s : State) : exec (.sra d a b) s = execSra d a b s := rfl
@[simp] theorem exec_slt (d a b : BitVec 5) (s : State) : exec (.slt d a b) s = execSlt d a b s := rfl
@[simp] theorem exec_sltu (d a b : BitVec 5) (s : State) : exec (.sltu d a b) s = execSltu d a b s := rfl
@[simp] theorem exec_min (d a b : BitVec 5) (s : State) : exec (.min d a b) s = execMin d a b s := rfl
@[simp] theorem exec_max (d a b : BitVec 5) (s : State) : exec (.max d a b) s = execMax d a b s := rfl
@[simp] theorem exec_minu (d a b : BitVec 5) (s : State) : exec (.minu d a b) s = execMinu d a b s := rfl
@[simp] theorem exec_maxu (d a b : BitVec 5) (s : State) : exec (.maxu d a b) s = execMaxu d a b s := rfl
@[simp] theorem exec_sel (d a b : BitVec 5) (s : State) : exec (.sel d a b) s = execSel d a b s := rfl
@[simp] theorem exec_clz (d a : BitVec 5) (s : State) : exec (.clz d a) s = execClz d a s := rfl
@[simp] theorem exec_ctz (d a : BitVec 5) (s : State) : exec (.ctz d a) s = execCtz d a s := rfl
@[simp] theorem exec_popc (d a : BitVec 5) (s : State) : exec (.popc d a) s = execPopc d a s := rfl
@[simp] theorem exec_bfx (d a b : BitVec 5) (s : State) : exec (.bfx d a b) s = execBfx d a b s := rfl
@[simp] theorem exec_bfi (d a b : BitVec 5) (s : State) : exec (.bfi d a b) s = execBfi d a b s := rfl
@[simp] theorem exec_mul (d a b : BitVec 5) (s : State) : exec (.mul d a b) s = execMul d a b s := rfl
@[simp] theorem exec_mulh (d a b : BitVec 5) (s : State) : exec (.mulh d a b) s = execMulh d a b s := rfl
@[simp] theorem exec_mulhu (d a b : BitVec 5) (s : State) : exec (.mulhu d a b) s = execMulhu d a b s := rfl
@[simp] theorem exec_div (d a b : BitVec 5) (s : State) : exec (.div d a b) s = execDiv d a b s := rfl
@[simp] theorem exec_divu (d a b : BitVec 5) (s : State) : exec (.divu d a b) s = execDivu d a b s := rfl
@[simp] theorem exec_rem (d a b : BitVec 5) (s : State) : exec (.rem d a b) s = execRem d a b s := rfl
@[simp] theorem exec_remu (d a b : BitVec 5) (s : State) : exec (.remu d a b) s = execRemu d a b s := rfl
@[simp] theorem exec_addi (d a : BitVec 5) (im : BitVec 16) (s : State) : exec (.addi d a im) s = execAddi d a im s := rfl
@[simp] theorem exec_andi (d a : BitVec 5) (im : BitVec 16) (s : State) : exec (.andi d a im) s = execAndi d a im s := rfl
@[simp] theorem exec_ori (d a : BitVec 5) (im : BitVec 16) (s : State) : exec (.ori d a im) s = execOri d a im s := rfl
@[simp] theorem exec_xori (d a : BitVec 5) (im : BitVec 16) (s : State) : exec (.xori d a im) s = execXori d a im s := rfl
@[simp] theorem exec_slti (d a : BitVec 5) (im : BitVec 16) (s : State) : exec (.slti d a im) s = execSlti d a im s := rfl
@[simp] theorem exec_sltiu (d a : BitVec 5) (im : BitVec 16) (s : State) : exec (.sltiu d a im) s = execSltiu d a im s := rfl
@[simp] theorem exec_slli (d a : BitVec 5) (sh : BitVec 6) (s : State) : exec (.slli d a sh) s = execSlli d a sh s := rfl
@[simp] theorem exec_srli (d a : BitVec 5) (sh : BitVec 6) (s : State) : exec (.srli d a sh) s = execSrli d a sh s := rfl
@[simp] theorem exec_srai (d a : BitVec 5) (sh : BitVec 6) (s : State) : exec (.srai d a sh) s = execSrai d a sh s := rfl
@[simp] theorem exec_lih (d : BitVec 5) (im : BitVec 21) (s : State) : exec (.lih d im) s = execLih d im s := rfl
@[simp] theorem exec_lix (d : BitVec 5) (im : BitVec 21) (s : State) : exec (.lix d im) s = execLix d im s := rfl
@[simp] theorem exec_addpc (d : BitVec 5) (im : BitVec 21) (s : State) : exec (.addpc d im) s = execAddpc d im s := rfl
@[simp] theorem exec_beq (a b : BitVec 5) (o : BitVec 16) (s : State) : exec (.beq a b o) s = execBeq a b o s := rfl
@[simp] theorem exec_bne (a b : BitVec 5) (o : BitVec 16) (s : State) : exec (.bne a b o) s = execBne a b o s := rfl
@[simp] theorem exec_blt (a b : BitVec 5) (o : BitVec 16) (s : State) : exec (.blt a b o) s = execBlt a b o s := rfl
@[simp] theorem exec_bge (a b : BitVec 5) (o : BitVec 16) (s : State) : exec (.bge a b o) s = execBge a b o s := rfl
@[simp] theorem exec_bltu (a b : BitVec 5) (o : BitVec 16) (s : State) : exec (.bltu a b o) s = execBltu a b o s := rfl
@[simp] theorem exec_bgeu (a b : BitVec 5) (o : BitVec 16) (s : State) : exec (.bgeu a b o) s = execBgeu a b o s := rfl
@[simp] theorem exec_jal (d : BitVec 5) (o : BitVec 21) (s : State) : exec (.jal d o) s = execJal d o s := rfl
@[simp] theorem exec_jalr (d a : BitVec 5) (im : BitVec 16) (s : State) : exec (.jalr d a im) s = execJalr d a im s := rfl
@[simp] theorem exec_ldb (d a : BitVec 5) (im : BitVec 16) (s : State) : exec (.ldb d a im) s = execLdb d a im s := rfl
@[simp] theorem exec_ldbu (d a : BitVec 5) (im : BitVec 16) (s : State) : exec (.ldbu d a im) s = execLdbu d a im s := rfl
@[simp] theorem exec_ldh (d a : BitVec 5) (im : BitVec 16) (s : State) : exec (.ldh d a im) s = execLdh d a im s := rfl
@[simp] theorem exec_ldhu (d a : BitVec 5) (im : BitVec 16) (s : State) : exec (.ldhu d a im) s = execLdhu d a im s := rfl
@[simp] theorem exec_ldw (d a : BitVec 5) (im : BitVec 16) (s : State) : exec (.ldw d a im) s = execLdw d a im s := rfl
@[simp] theorem exec_ldwu (d a : BitVec 5) (im : BitVec 16) (s : State) : exec (.ldwu d a im) s = execLdwu d a im s := rfl
@[simp] theorem exec_ldd (d a : BitVec 5) (im : BitVec 16) (s : State) : exec (.ldd d a im) s = execLdd d a im s := rfl
@[simp] theorem exec_stb (d a : BitVec 5) (im : BitVec 16) (s : State) : exec (.stb d a im) s = execStb d a im s := rfl
@[simp] theorem exec_sth (d a : BitVec 5) (im : BitVec 16) (s : State) : exec (.sth d a im) s = execSth d a im s := rfl
@[simp] theorem exec_stw (d a : BitVec 5) (im : BitVec 16) (s : State) : exec (.stw d a im) s = execStw d a im s := rfl
@[simp] theorem exec_std (d a : BitVec 5) (im : BitVec 16) (s : State) : exec (.std d a im) s = execStd d a im s := rfl
@[simp] theorem exec_amoadd (d a b : BitVec 5) (w : BitVec 1) (s : State) : exec (.amoadd d a b w) s = execAmoadd d a b w s := rfl
@[simp] theorem exec_amomin (d a b : BitVec 5) (w : BitVec 1) (s : State) : exec (.amomin d a b w) s = execAmomin d a b w s := rfl
@[simp] theorem exec_amomax (d a b : BitVec 5) (w : BitVec 1) (s : State) : exec (.amomax d a b w) s = execAmomax d a b w s := rfl
@[simp] theorem exec_amominu (d a b : BitVec 5) (w : BitVec 1) (s : State) : exec (.amominu d a b w) s = execAmominu d a b w s := rfl
@[simp] theorem exec_amomaxu (d a b : BitVec 5) (w : BitVec 1) (s : State) : exec (.amomaxu d a b w) s = execAmomaxu d a b w s := rfl
@[simp] theorem exec_amoand (d a b : BitVec 5) (w : BitVec 1) (s : State) : exec (.amoand d a b w) s = execAmoand d a b w s := rfl
@[simp] theorem exec_amoor (d a b : BitVec 5) (w : BitVec 1) (s : State) : exec (.amoor d a b w) s = execAmoor d a b w s := rfl
@[simp] theorem exec_amoxor (d a b : BitVec 5) (w : BitVec 1) (s : State) : exec (.amoxor d a b w) s = execAmoxor d a b w s := rfl
@[simp] theorem exec_amoswp (d a b : BitVec 5) (w : BitVec 1) (s : State) : exec (.amoswp d a b w) s = execAmoswp d a b w s := rfl
@[simp] theorem exec_amocas (d a b : BitVec 5) (w : BitVec 1) (s : State) : exec (.amocas d a b w) s = execAmocas d a b w s := rfl
@[simp] theorem exec_redAdd (a b : BitVec 5) (w : BitVec 1) (s : State) : exec (.redAdd a b w) s = execRedAdd a b w s := rfl
@[simp] theorem exec_redMin (a b : BitVec 5) (w : BitVec 1) (s : State) : exec (.redMin a b w) s = execRedMin a b w s := rfl
@[simp] theorem exec_redMax (a b : BitVec 5) (w : BitVec 1) (s : State) : exec (.redMax a b w) s = execRedMax a b w s := rfl
@[simp] theorem exec_redOr (a b : BitVec 5) (w : BitVec 1) (s : State) : exec (.redOr a b w) s = execRedOr a b w s := rfl
@[simp] theorem exec_redFadd (a b : BitVec 5) (s : State) : exec (.redFadd a b) s = execRedFadd a b s := rfl
@[simp] theorem exec_redBadd (a b : BitVec 5) (s : State) : exec (.redBadd a b) s = execRedBadd a b s := rfl
@[simp] theorem exec_ldhdr (d a : BitVec 5) (o : BitVec 15) (s : State) : exec (.ldhdr d a o) s = execLdhdr d a o s := rfl
@[simp] theorem exec_sthdr (d a : BitVec 5) (o : BitVec 15) (s : State) : exec (.sthdr d a o) s = execSthdr d a o s := rfl
@[simp] theorem exec_vaddF (d a b : BitVec 5) (m : BitVec 3) (s : State) : exec (.vaddF d a b m) s = execVaddF d a b m s := rfl
@[simp] theorem exec_vsubF (d a b : BitVec 5) (m : BitVec 3) (s : State) : exec (.vsubF d a b m) s = execVsubF d a b m s := rfl
@[simp] theorem exec_vmulF (d a b : BitVec 5) (m : BitVec 3) (s : State) : exec (.vmulF d a b m) s = execVmulF d a b m s := rfl
@[simp] theorem exec_vfmaF (d a b : BitVec 5) (m : BitVec 3) (s : State) : exec (.vfmaF d a b m) s = execVfmaF d a b m s := rfl
@[simp] theorem exec_vminF (d a b : BitVec 5) (m : BitVec 3) (s : State) : exec (.vminF d a b m) s = execVminF d a b m s := rfl
@[simp] theorem exec_vmaxF (d a b : BitVec 5) (m : BitVec 3) (s : State) : exec (.vmaxF d a b m) s = execVmaxF d a b m s := rfl
@[simp] theorem exec_vabsF (d a : BitVec 5) (m : BitVec 3) (s : State) : exec (.vabsF d a m) s = execVabsF d a m s := rfl
@[simp] theorem exec_vnegF (d a : BitVec 5) (m : BitVec 3) (s : State) : exec (.vnegF d a m) s = execVnegF d a m s := rfl
@[simp] theorem exec_vrcp (d a : BitVec 5) (m : BitVec 3) (s : State) : exec (.vrcp d a m) s = execVrcp d a m s := rfl
@[simp] theorem exec_vrsq (d a : BitVec 5) (m : BitVec 3) (s : State) : exec (.vrsq d a m) s = execVrsq d a m s := rfl
@[simp] theorem exec_vexp2 (d a : BitVec 5) (m : BitVec 3) (s : State) : exec (.vexp2 d a m) s = execVexp2 d a m s := rfl
@[simp] theorem exec_vlog2 (d a : BitVec 5) (m : BitVec 3) (s : State) : exec (.vlog2 d a m) s = execVlog2 d a m s := rfl
@[simp] theorem exec_vaddI (d a b : BitVec 5) (m : BitVec 3) (s : State) : exec (.vaddI d a b m) s = execVaddI d a b m s := rfl
@[simp] theorem exec_vsubI (d a b : BitVec 5) (m : BitVec 3) (s : State) : exec (.vsubI d a b m) s = execVsubI d a b m s := rfl
@[simp] theorem exec_vmulI (d a b : BitVec 5) (m : BitVec 3) (s : State) : exec (.vmulI d a b m) s = execVmulI d a b m s := rfl
@[simp] theorem exec_vand (d a b : BitVec 5) (m : BitVec 3) (s : State) : exec (.vand d a b m) s = execVand d a b m s := rfl
@[simp] theorem exec_vor (d a b : BitVec 5) (m : BitVec 3) (s : State) : exec (.vor d a b m) s = execVor d a b m s := rfl
@[simp] theorem exec_vxor (d a b : BitVec 5) (m : BitVec 3) (s : State) : exec (.vxor d a b m) s = execVxor d a b m s := rfl
@[simp] theorem exec_vsll (d a b : BitVec 5) (m : BitVec 3) (s : State) : exec (.vsll d a b m) s = execVsll d a b m s := rfl
@[simp] theorem exec_vsrl (d a b : BitVec 5) (m : BitVec 3) (s : State) : exec (.vsrl d a b m) s = execVsrl d a b m s := rfl
@[simp] theorem exec_vsra (d a b : BitVec 5) (m : BitVec 3) (s : State) : exec (.vsra d a b m) s = execVsra d a b m s := rfl
@[simp] theorem exec_vminI (d a b : BitVec 5) (m : BitVec 3) (s : State) : exec (.vminI d a b m) s = execVminI d a b m s := rfl
@[simp] theorem exec_vmaxI (d a b : BitVec 5) (m : BitVec 3) (s : State) : exec (.vmaxI d a b m) s = execVmaxI d a b m s := rfl
@[simp] theorem exec_vbcast (d a : BitVec 5) (m : BitVec 3) (s : State) : exec (.vbcast d a m) s = execVbcast d a m s := rfl
@[simp] theorem exec_vext (d a b : BitVec 5) (s : State) : exec (.vext d a b) s = execVext d a b s := rfl
@[simp] theorem exec_vredsumF (d a : BitVec 5) (m : BitVec 3) (s : State) : exec (.vredsumF d a m) s = execVredsumF d a m s := rfl
@[simp] theorem exec_vredmaxF (d a : BitVec 5) (m : BitVec 3) (s : State) : exec (.vredmaxF d a m) s = execVredmaxF d a m s := rfl
@[simp] theorem exec_vperm (d a b : BitVec 5) (m : BitVec 3) (s : State) : exec (.vperm d a b m) s = execVperm d a b m s := rfl
@[simp] theorem exec_viota (d : BitVec 5) (m : BitVec 3) (s : State) : exec (.viota d m) s = execViota d m s := rfl
@[simp] theorem exec_vscal (d a b : BitVec 5) (m : BitVec 3) (s : State) : exec (.vscal d a b m) s = execVscal d a b m s := rfl
@[simp] theorem exec_vaddD (d a b : BitVec 5) (m : BitVec 3) (s : State) : exec (.vaddD d a b m) s = execVaddD d a b m s := rfl
@[simp] theorem exec_vsubD (d a b : BitVec 5) (m : BitVec 3) (s : State) : exec (.vsubD d a b m) s = execVsubD d a b m s := rfl
@[simp] theorem exec_vmulD (d a b : BitVec 5) (m : BitVec 3) (s : State) : exec (.vmulD d a b m) s = execVmulD d a b m s := rfl
@[simp] theorem exec_vfmaD (d a b : BitVec 5) (m : BitVec 3) (s : State) : exec (.vfmaD d a b m) s = execVfmaD d a b m s := rfl
@[simp] theorem exec_vcmpeqF (d : BitVec 3) (a b : BitVec 5) (m : BitVec 3) (s : State) : exec (.vcmpeqF d a b m) s = execVcmpeqF d a b m s := rfl
@[simp] theorem exec_vcmpltF (d : BitVec 3) (a b : BitVec 5) (m : BitVec 3) (s : State) : exec (.vcmpltF d a b m) s = execVcmpltF d a b m s := rfl
@[simp] theorem exec_vcmpleF (d : BitVec 3) (a b : BitVec 5) (m : BitVec 3) (s : State) : exec (.vcmpleF d a b m) s = execVcmpleF d a b m s := rfl
@[simp] theorem exec_vcmpunF (d : BitVec 3) (a b : BitVec 5) (m : BitVec 3) (s : State) : exec (.vcmpunF d a b m) s = execVcmpunF d a b m s := rfl
@[simp] theorem exec_vcmpeqI (d : BitVec 3) (a b : BitVec 5) (m : BitVec 3) (s : State) : exec (.vcmpeqI d a b m) s = execVcmpeqI d a b m s := rfl
@[simp] theorem exec_vcmpltI (d : BitVec 3) (a b : BitVec 5) (m : BitVec 3) (s : State) : exec (.vcmpltI d a b m) s = execVcmpltI d a b m s := rfl
@[simp] theorem exec_vcmpltuI (d : BitVec 3) (a b : BitVec 5) (m : BitVec 3) (s : State) : exec (.vcmpltuI d a b m) s = execVcmpltuI d a b m s := rfl
@[simp] theorem exec_vsel (d a b : BitVec 5) (m : BitVec 3) (s : State) : exec (.vsel d a b m) s = execVsel d a b m s := rfl
@[simp] theorem exec_mand (d a b : BitVec 3) (s : State) : exec (.mand d a b) s = execMand d a b s := rfl
@[simp] theorem exec_mor (d a b : BitVec 3) (s : State) : exec (.mor d a b) s = execMor d a b s := rfl
@[simp] theorem exec_mxor (d a b : BitVec 3) (s : State) : exec (.mxor d a b) s = execMxor d a b s := rfl
@[simp] theorem exec_mnot (d a : BitVec 3) (s : State) : exec (.mnot d a) s = execMnot d a s := rfl
@[simp] theorem exec_mpop (d : BitVec 5) (a : BitVec 3) (s : State) : exec (.mpop d a) s = execMpop d a s := rfl
@[simp] theorem exec_mset (d : BitVec 3) (a : BitVec 5) (s : State) : exec (.mset d a) s = execMset d a s := rfl
@[simp] theorem exec_vld (d a : BitVec 5) (im : BitVec 16) (s : State) : exec (.vld d a im) s = execVld d a im s := rfl
@[simp] theorem exec_vst (d a : BitVec 5) (im : BitVec 16) (s : State) : exec (.vst d a im) s = execVst d a im s := rfl
@[simp] theorem exec_vlds (d a b : BitVec 5) (m : BitVec 3) (s : State) : exec (.vlds d a b m) s = execVlds d a b m s := rfl
@[simp] theorem exec_vsts (d a b : BitVec 5) (m : BitVec 3) (s : State) : exec (.vsts d a b m) s = execVsts d a b m s := rfl
@[simp] theorem exec_vgather (d a b : BitVec 5) (m : BitVec 3) (s : State) : exec (.vgather d a b m) s = execVgather d a b m s := rfl
@[simp] theorem exec_vscatter (d a b : BitVec 5) (m : BitVec 3) (s : State) : exec (.vscatter d a b m) s = execVscatter d a b m s := rfl
@[simp] theorem exec_vcompress (d a : BitVec 5) (m : BitVec 3) (s : State) : exec (.vcompress d a m) s = execVcompress d a m s := rfl
@[simp] theorem exec_vexpand (d a : BitVec 5) (m : BitVec 3) (s : State) : exec (.vexpand d a m) s = execVexpand d a m s := rfl
@[simp] theorem exec_vdec (d a : BitVec 5) (p : BitVec 2) (s : State) : exec (.vdec d a p) s = execVdec d a p s := rfl
@[simp] theorem exec_venc (d a b : BitVec 5) (s : State) : exec (.venc d a b) s = execVenc d a b s := rfl
@[simp] theorem exec_vencAuto (d a b : BitVec 5) (s : State) : exec (.vencAuto d a b) s = execVencAuto d a b s := rfl
@[simp] theorem exec_vcvt (d a sh : BitVec 5) (m : BitVec 3) (s : State) : exec (.vcvt d a sh m) s = execVcvt d a sh m s := rfl
@[simp] theorem exec_vcvts (d a b : BitVec 5) (m : BitVec 3) (s : State) : exec (.vcvts d a b m) s = execVcvts d a b m s := rfl
@[simp] theorem exec_send (a b : BitVec 5) (r : BitVec 1) (s : State) : exec (.send a b r) s = execSend a b r s := rfl
@[simp] theorem exec_sendc (a b : BitVec 5) (r : BitVec 1) (s : State) : exec (.sendc a b r) s = execSendc a b r s := rfl
@[simp] theorem exec_patset (d a : BitVec 5) (s : State) : exec (.patset d a) s = execPatset d a s := rfl
@[simp] theorem exec_patclr (a : BitVec 5) (s : State) : exec (.patclr a) s = execPatclr a s := rfl
@[simp] theorem exec_chcfg (d a b : BitVec 5) (s : State) : exec (.chcfg d a b) s = execChcfg d a b s := rfl
@[simp] theorem exec_chcnt (d a : BitVec 5) (s : State) : exec (.chcnt d a) s = execChcnt d a s := rfl
@[simp] theorem exec_flush (s : State) : exec (.flush) s = execFlush s := rfl
@[simp] theorem exec_flushd (a : BitVec 5) (s : State) : exec (.flushd a) s = execFlushd a s := rfl
@[simp] theorem exec_fenceRel (s : State) : exec (.fenceRel) s = execFenceRel s := rfl
@[simp] theorem exec_fenceAcq (s : State) : exec (.fenceAcq) s = execFenceAcq s := rfl
@[simp] theorem exec_fenceAll (s : State) : exec (.fenceAll) s = execFenceAll s := rfl
@[simp] theorem exec_aggst (d : BitVec 5) (s : State) : exec (.aggst d) s = execAggst d s := rfl
@[simp] theorem exec_aggcfg (a b : BitVec 5) (s : State) : exec (.aggcfg a b) s = execAggcfg a b s := rfl
@[simp] theorem exec_stg (n : BitVec 2) (a : BitVec 5) (s : State) : exec (.stg n a) s = execStg n a s := rfl
@[simp] theorem exec_enq (d e : BitVec 5) (s : State) : exec (.enq d e) s = execEnq d e s := rfl
@[simp] theorem exec_tkst (d a : BitVec 5) (s : State) : exec (.tkst d a) s = execTkst d a s := rfl
@[simp] theorem exec_ecancel (d a : BitVec 5) (s : State) : exec (.ecancel d a) s = execEcancel d a s := rfl
@[simp] theorem exec_ldstg (a : BitVec 5) (s : State) : exec (.ldstg a) s = execLdstg a s := rfl
@[simp] theorem exec_solicit (d a : BitVec 5) (s : State) : exec (.solicit d a) s = execSolicit d a s := rfl
@[simp] theorem exec_respond (a b : BitVec 5) (s : State) : exec (.respond a b) s = execRespond a b s := rfl
@[simp] theorem exec_diradd (d a : BitVec 5) (s : State) : exec (.diradd d a) s = execDiradd d a s := rfl
@[simp] theorem exec_dirdel (d a : BitVec 5) (s : State) : exec (.dirdel d a) s = execDirdel d a s := rfl
@[simp] theorem exec_dirmove (d a b : BitVec 5) (s : State) : exec (.dirmove d a b) s = execDirmove d a b s := rfl
@[simp] theorem exec_cenclose (a : BitVec 5) (s : State) : exec (.cenclose a) s = execCenclose a s := rfl
@[simp] theorem exec_censt (d a : BitVec 5) (s : State) : exec (.censt d a) s = execCenst d a s := rfl
@[simp] theorem exec_baralloc (d a : BitVec 5) (s : State) : exec (.baralloc d a) s = execBaralloc d a s := rfl
@[simp] theorem exec_barfree (a : BitVec 5) (s : State) : exec (.barfree a) s = execBarfree a s := rfl
@[simp] theorem exec_arrive (a : BitVec 5) (s : State) : exec (.arrive a) s = execArrive a s := rfl
@[simp] theorem exec_arrived (a : BitVec 5) (s : State) : exec (.arrived a) s = execArrived a s := rfl
@[simp] theorem exec_barst (d a : BitVec 5) (s : State) : exec (.barst d a) s = execBarst d a s := rfl
@[simp] theorem exec_mfc (d : BitVec 5) (c : BitVec 12) (s : State) : exec (.mfc d c) s = execMfc d c s := rfl
@[simp] theorem exec_mtc (a : BitVec 5) (c : BitVec 12) (s : State) : exec (.mtc a c) s = execMtc a c s := rfl
@[simp] theorem exec_trap (k : BitVec 12) (s : State) : exec (.trap k) s = execTrap k s := rfl
@[simp] theorem exec_rte (s : State) : exec (.rte) s = execRte s := rfl
@[simp] theorem exec_endAct (s : State) : exec (.endAct) s = execEndAct s := rfl
@[simp] theorem exec_endExit (s : State) : exec (.endExit) s = execEndExit s := rfl
@[simp] theorem exec_brk (s : State) : exec (.brk) s = execBrk s := rfl
@[simp] theorem exec_retry (s : State) : exec (.retry) s = execRetry s := rfl
@[simp] theorem exec_launch (d a : BitVec 5) (s : State) : exec (.launch d a) s = execLaunch d a s := rfl
@[simp] theorem exec_cancel (l : BitVec 2) (s : State) : exec (.cancel l) s = execCancel l s := rfl
@[simp] theorem exec_nop (s : State) : exec (.nop) s = execNop s := rfl
@[simp] theorem exec_ifence (s : State) : exec (.ifence) s = execIfence s := rfl
@[simp] theorem exec_illegal (word : BitVec 32) (s : State) : exec (.illegal word) s = execIllegal word s := rfl
@[simp] theorem exec_fetchFault (s : State) : exec (.fetchFault) s = execFetchFault s := rfl
@[simp] theorem exec_mma (core ticket pick : Nat) (s : State) : exec (.mma core ticket pick) s = execMma core ticket pick s := rfl
@[simp] theorem exec_mmac (core ticket pick : Nat) (s : State) : exec (.mmac core ticket pick) s = execMmac core ticket pick s := rfl
@[simp] theorem exec_accz (core ticket : Nat) (s : State) : exec (.accz core ticket) s = execAccz core ticket s := rfl
@[simp] theorem exec_accst (core ticket : Nat) (s : State) : exec (.accst core ticket) s = execAccst core ticket s := rfl
@[simp] theorem exec_accld (core ticket : Nat) (s : State) : exec (.accld core ticket) s = execAccld core ticket s := rfl
@[simp] theorem exec_copy (core ticket : Nat) (s : State) : exec (.copy core ticket) s = execCopy core ticket s := rfl
@[simp] theorem exec_gather (core ticket : Nat) (s : State) : exec (.gather core ticket) s = execGather core ticket s := rfl
@[simp] theorem exec_scatter (core ticket : Nat) (s : State) : exec (.scatter core ticket) s = execScatter core ticket s := rfl
@[simp] theorem exec_bcast (core ticket : Nat) (s : State) : exec (.bcast core ticket) s = execBcast core ticket s := rfl
@[simp] theorem exec_dmove (core ticket : Nat) (s : State) : exec (.dmove core ticket) s = execDmove core ticket s := rfl
@[simp] theorem exec_filt (core ticket : Nat) (s : State) : exec (.filt core ticket) s = execFilt core ticket s := rfl
@[simp] theorem exec_conv (core ticket : Nat) (s : State) : exec (.conv core ticket) s = execConv core ticket s := rfl
@[simp] theorem exec_commandArmed (core ticket : Nat) (s : State) : exec (.commandArmed core ticket) s = execCommandArmed core ticket s := rfl
@[simp] theorem exec_progressPointStop (core ticket : Nat) (s : State) : exec (.progressPointStop core ticket) s = execProgressPointStop core ticket s := rfl
@[simp] theorem exec_matcherFiring (core : Nat) (s : State) : exec (.matcherFiring core) s = execMatcherFiring core s := rfl
@[simp] theorem exec_heldMessageDelivery (core ch : Nat) (s : State) : exec (.heldMessageDelivery core ch) s = execHeldMessageDelivery core ch s := rfl
@[simp] theorem exec_asyncTrap (core slot : Nat) (s : State) : exec (.asyncTrap core slot) s = execAsyncTrap core slot s := rfl
@[simp] theorem exec_holdBoundExpiry (core buf : Nat) (s : State) : exec (.holdBoundExpiry core buf) s = execHoldBoundExpiry core buf s := rfl
@[simp] theorem exec_bufferLeave (core buf : Nat) (s : State) : exec (.bufferLeave core buf) s = execBufferLeave core buf s := rfl
@[simp] theorem exec_elements (k : Nat) (s : State) : exec (.elements k) s = execElements k s := rfl
@[simp] theorem exec_load (k : Nat) (s : State) : exec (.load k) s = execLoad k s := rfl
@[simp] theorem exec_amo (k : Nat) (s : State) : exec (.amo k) s = execAmo k s := rfl
@[simp] theorem exec_hdr (k : Nat) (s : State) : exec (.hdr k) s = execHdr k s := rfl
@[simp] theorem exec_block (k : Nat) (s : State) : exec (.block k) s = execBlock k s := rfl
@[simp] theorem exec_sendPacket (k : Nat) (s : State) : exec (.sendPacket k) s = execSendPacket k s := rfl
@[simp] theorem exec_ack (k : Nat) (s : State) : exec (.ack k) s = execAck k s := rfl
@[simp] theorem exec_nak (k : Nat) (s : State) : exec (.nak k) s = execNak k s := rfl
@[simp] theorem exec_reply (k : Nat) (s : State) : exec (.reply k) s = execReply k s := rfl
@[simp] theorem exec_repair (k : Nat) (s : State) : exec (.repair k) s = execRepair k s := rfl
@[simp] theorem exec_noparkRetry (core : Nat) (s : State) : exec (.noparkRetry core) s = execNoparkRetry core s := rfl
@[simp] theorem exec_pageRelease (asid page : Nat) (s : State) : exec (.pageRelease asid page) s = execPageRelease asid page s := rfl
@[simp] theorem exec_invalidation (asid : Nat) (page : Option PageRef) (s : State) : exec (.invalidation asid page) s = execInvalidation asid page s := rfl
@[simp] theorem exec_solicitArrival (k : Nat) (s : State) : exec (.solicitArrival k) s = execSolicitArrival k s := rfl
@[simp] theorem exec_nodeReport (tenant slot k : Nat) (s : State) : exec (.nodeReport tenant slot k) s = execNodeReport tenant slot k s := rfl
@[simp] theorem exec_close (k : Nat) (s : State) : exec (.close k) s = execClose k s := rfl
@[simp] theorem exec_closeAck (k : Nat) (s : State) : exec (.closeAck k) s = execCloseAck k s := rfl
@[simp] theorem exec_dmoveOpen (k : Nat) (s : State) : exec (.dmoveOpen k) s = execDmoveOpen k s := rfl
@[simp] theorem exec_dmoveOpenReply (k : Nat) (s : State) : exec (.dmoveOpenReply k) s = execDmoveOpenReply k s := rfl
@[simp] theorem exec_commit (core ticket : Nat) (s : State) : exec (.commit core ticket) s = execCommit core ticket s := rfl
@[simp] theorem exec_adoption (k : Nat) (s : State) : exec (.adoption k) s = execAdoption k s := rfl
@[simp] theorem exec_abortMove (k : Nat) (s : State) : exec (.abortMove k) s = execAbortMove k s := rfl
@[simp] theorem exec_barrierOffer (k : Nat) (s : State) : exec (.barrierOffer k) s = execBarrierOffer k s := rfl
@[simp] theorem exec_barrierArrival (k : Nat) (s : State) : exec (.barrierArrival k) s = execBarrierArrival k s := rfl
@[simp] theorem exec_barrierCompletion (k : Nat) (s : State) : exec (.barrierCompletion k) s = execBarrierCompletion k s := rfl
@[simp] theorem exec_tree (k : Nat) (s : State) : exec (.tree k) s = execTree k s := rfl
@[simp] theorem exec_hub (k : Nat) (s : State) : exec (.hub k) s = execHub k s := rfl
@[simp] theorem exec_pass (tenant : Nat) (s : State) : exec (.pass tenant) s = execPass tenant s := rfl
@[simp] theorem exec_headerRead (tenant index : Nat) (s : State) : exec (.headerRead tenant index) s = execHeaderRead tenant index s := rfl
@[simp] theorem exec_imageLoad (gang : Nat) (s : State) : exec (.imageLoad gang) s = execImageLoad gang s := rfl
@[simp] theorem exec_clusterRelease (gang : Nat) (s : State) : exec (.clusterRelease gang) s = execClusterRelease gang s := rfl
@[simp] theorem exec_gangEnd (gang : Nat) (s : State) : exec (.gangEnd gang) s = execGangEnd gang s := rfl
@[simp] theorem exec_gangEndSettled (gang : Nat) (s : State) : exec (.gangEndSettled gang) s = execGangEndSettled gang s := rfl
@[simp] theorem exec_preempt (k : Nat) (s : State) : exec (.preempt k) s = execPreempt k s := rfl
@[simp] theorem exec_coreSealed (core : Nat) (s : State) : exec (.coreSealed core) s = execCoreSealed core s := rfl
@[simp] theorem exec_save (gang : Nat) (s : State) : exec (.save gang) s = execSave gang s := rfl
@[simp] theorem exec_restore (gang : Nat) (s : State) : exec (.restore gang) s = execRestore gang s := rfl
@[simp] theorem exec_modeChange (s : State) : exec (.modeChange) s = execModeChange s := rfl
@[simp] theorem exec_packageReset (images : List FwImage) (strap : Option Nat) (s : State) : exec (.packageReset images strap) s = execPackageReset images strap s := rfl
@[simp] theorem exec_routerGate (router : Nat) (s : State) : exec (.routerGate router) s = execRouterGate router s := rfl
@[simp] theorem exec_routerWake (router : Nat) (s : State) : exec (.routerWake router) s = execRouterWake router s := rfl
@[simp] theorem exec_routeSwap (tenant : Nat) (entry : Dword) (s : State) : exec (.routeSwap tenant entry) s = execRouteSwap tenant entry s := rfl
@[simp] theorem exec_bankFlip (tenant : Nat) (s : State) : exec (.bankFlip tenant) s = execBankFlip tenant s := rfl
@[simp] theorem exec_fabricPacket (port : Nat) (p : FabPacket) (s : State) : exec (.fabricPacket port p) s = execFabricPacket port p s := rfl
@[simp] theorem exec_flowRouteChange (tenant ddev route : Nat) (s : State) : exec (.flowRouteChange tenant ddev route) s = execFlowRouteChange tenant ddev route s := rfl
@[simp] theorem exec_flitData (link : Link) (f : Flit) (s : State) : exec (.flitData link f) s = execFlitData link f s := rfl
@[simp] theorem exec_flitIdle (link : Link) (f : Flit) (s : State) : exec (.flitIdle link f) s = execFlitIdle link f s := rfl
@[simp] theorem exec_flitMarker (link : Link) (f : Flit) (s : State) : exec (.flitMarker link f) s = execFlitMarker link f s := rfl
@[simp] theorem exec_flitAck (link : Link) (f : Flit) (s : State) : exec (.flitAck link f) s = execFlitAck link f s := rfl
@[simp] theorem exec_flitNak (link : Link) (f : Flit) (s : State) : exec (.flitNak link f) s = execFlitNak link f s := rfl
@[simp] theorem exec_keySwitch (link : Link) (s : State) : exec (.keySwitch link) s = execKeySwitch link s := rfl
@[simp] theorem exec_hostWindowAccess (session : Nat) (haddr : Dword) (write : Option (List Byte)) (len : Nat) (s : State) : exec (.hostWindowAccess session haddr write len) s = execHostWindowAccess session haddr write len s := rfl
@[simp] theorem exec_tenantset (h : CmdHdr) (tenant x0 y0 w ht displim : Nat) (debug : Bool) (owner : BitVec 384) (s : State) : exec (.tenantset h tenant x0 y0 w ht displim debug owner) s = execTenantset h tenant x0 y0 w ht displim debug owner s := rfl
@[simp] theorem exec_tenantclose (h : CmdHdr) (tenant : Nat) (s : State) : exec (.tenantclose h tenant) s = execTenantclose h tenant s := rfl
@[simp] theorem exec_submit (h : CmdHdr) (rec : BitVec 512) (job : BitVec 128) (s : State) : exec (.submit h rec job) s = execSubmit h rec job s := rfl
@[simp] theorem exec_cancelCmd (h : CmdHdr) (level id : Nat) (s : State) : exec (.cancelCmd h level id) s = execCancelCmd h level id s := rfl
@[simp] theorem exec_preemptCmd (h : CmdHdr) (gang : Nat) (s : State) : exec (.preemptCmd h gang) s = execPreemptCmd h gang s := rfl
@[simp] theorem exec_mode (h : CmdHdr) (mode : Nat) (s : State) : exec (.mode h mode) s = execMode h mode s := rfl
@[simp] theorem exec_bypass (h : CmdHdr) (len : Nat) (s : State) : exec (.bypass h len) s = execBypass h len s := rfl
@[simp] theorem exec_stage (h : CmdHdr) (img : FwImage) (s : State) : exec (.stage h img) s = execStage h img s := rfl
@[simp] theorem exec_update (h : CmdHdr) (s : State) : exec (.update h) s = execUpdate h s := rfl
@[simp] theorem exec_upstat (h : CmdHdr) (s : State) : exec (.upstat h) s = execUpstat h s := rfl
@[simp] theorem exec_attest (h : CmdHdr) (nonce : BitVec 384) (s : State) : exec (.attest h nonce) s = execAttest h nonce s := rfl
@[simp] theorem exec_sessopen (h : CmdHdr) (tenant : Nat) (qt : BitVec 776) (nt : BitVec 256) (s : State) : exec (.sessopen h tenant qt nt) s = execSessopen h tenant qt nt s := rfl
@[simp] theorem exec_sessconf (h : CmdHdr) (session : Nat) (sig : BitVec 768) (s : State) : exec (.sessconf h session sig) s = execSessconf h session sig s := rfl
@[simp] theorem exec_sessclose (h : CmdHdr) (session : Nat) (s : State) : exec (.sessclose h session) s = execSessclose h session s := rfl
@[simp] theorem exec_winopen (h : CmdHdr) (va : Dword) (len : Nat) (haddr : Dword) (procid : Nat) (s : State) : exec (.winopen h va len haddr procid) s = execWinopen h va len haddr procid s := rfl
@[simp] theorem exec_winclose (h : CmdHdr) (window : Nat) (s : State) : exec (.winclose h window) s = execWinclose h window s := rfl
@[simp] theorem exec_logread (h : CmdHdr) (s : State) : exec (.logread h) s = execLogread h s := rfl
@[simp] theorem exec_resumeCmd (h : CmdHdr) (core slot : Nat) (s : State) : exec (.resumeCmd h core slot) s = execResumeCmd h core slot s := rfl
@[simp] theorem exec_txWrite (self j : Nat) (word : Dword) (s : State) : exec (.txWrite self j word) s = execTxWrite self j word s := rfl
@[simp] theorem exec_rxRead (self im : Nat) (s : State) : exec (.rxRead self im) s = execRxRead self im s := rfl
@[simp] theorem exec_mbovfClear (self : Nat) (bits : BitVec 8) (s : State) : exec (.mbovfClear self bits) s = execMbovfClear self bits s := rfl
@[simp] theorem exec_registerWrite (self offset : Nat) (value : BusWord) (s : State) : exec (.registerWrite self offset value) s = execRegisterWrite self offset value s := rfl
@[simp] theorem exec_quiesce (s : State) : exec (.quiesce) s = execQuiesce s := rfl
@[simp] theorem exec_handed (record : Dword) (s : State) : exec (.handed record) s = execHanded record s := rfl
@[simp] theorem exec_resume (s : State) : exec (.resume) s = execResume s := rfl
@[simp] theorem exec_alive (version : Dword) (s : State) : exec (.alive version) s = execAlive version s := rfl
@[simp] theorem exec_reject (reason : Nat) (s : State) : exec (.reject reason) s = execReject reason s := rfl
@[simp] theorem exec_continueImage (s : State) : exec (.continueImage) s = execContinueImage s := rfl
@[simp] theorem exec_gatedWrite (s : State) : exec (.gatedWrite) s = execGatedWrite s := rfl
@[simp] theorem exec_watchdogExpiry (s : State) : exec (.watchdogExpiry) s = execWatchdogExpiry s := rfl
@[simp] theorem exec_microcodeBankSwitch (core : Nat) (s : State) : exec (.microcodeBankSwitch core) s = execMicrocodeBankSwitch core s := rfl
@[simp] theorem exec_microcodeSwitchBack (core : Nat) (s : State) : exec (.microcodeSwitchBack core) s = execMicrocodeSwitchBack core s := rfl
@[simp] theorem exec_uncorrectableError (pa : Nat) (s : State) : exec (.uncorrectableError pa) s = execUncorrectableError pa s := rfl
@[simp] theorem exec_xlateUnmappedProt (asid page : Nat) (s : State) : exec (.xlateUnmappedProt asid page) s = execXlateUnmappedProt asid page s := rfl
@[simp] theorem exec_keySlotLoad (link : Link) (salt : Word) (s : State) : exec (.keySlotLoad link salt) s = execKeySlotLoad link salt s := rfl
@[simp] theorem exec_imageFault (s : State) : exec (.imageFault) s = execImageFault s := rfl
@[simp] theorem exec_microcodeMulticastDone (s : State) : exec (.microcodeMulticastDone) s = execMicrocodeMulticastDone s := rfl
@[simp] theorem exec_operatorKeyWrite (digest : BitVec 384) (s : State) : exec (.operatorKeyWrite digest) s = execOperatorKeyWrite digest s := rfl
@[simp] theorem exec_unknownOpcode (h : CmdHdr) (opcode : Nat) (s : State) : exec (.unknownOpcode h opcode) s = execUnknownOpcode h opcode s := rfl

end Sys2Proof.Machine
end

