-- ==== Sys2Proof/Laws/Lanes.lean ====
section
/-! SUPPORT. Lanes of a register built lane by lane, and bits of a mask built bit by bit. -/

namespace Sys2Proof.Machine

/-- The number whose digits in base `2 ^ n` are listed, least significant first. -/
def digits (n : Nat) (l : List Nat) : Nat := l.foldr (fun x acc => x + 2 ^ n * acc) 0

theorem digits_lt (n : Nat) (l : List Nat) (h : ∀ x ∈ l, x < 2 ^ n) : digits n l < 2 ^ (n * l.length) := by
  induction l with
  | nil => simp [digits]
  | cons x l ih =>
    have hx := h x (by simp)
    have ih := ih (fun y hy => h y (by simp [hy]))
    simp only [digits, List.foldr_cons, List.length_cons] at ih ⊢
    rw [Nat.mul_succ, Nat.add_comm (n * l.length), Nat.pow_add]
    have hs : List.foldr (fun x acc => x + 2 ^ n * acc) 0 l + 1 ≤ 2 ^ (n * l.length) := ih
    calc x + 2 ^ n * List.foldr (fun x acc => x + 2 ^ n * acc) 0 l
        < 2 ^ n + 2 ^ n * List.foldr (fun x acc => x + 2 ^ n * acc) 0 l := by omega
      _ = 2 ^ n * (List.foldr (fun x acc => x + 2 ^ n * acc) 0 l + 1) := by rw [Nat.mul_add, Nat.mul_one, Nat.add_comm]
      _ ≤ 2 ^ n * 2 ^ (n * l.length) := Nat.mul_le_mul_left _ hs

theorem digits_get (n : Nat) (l : List Nat) (h : ∀ x ∈ l, x < 2 ^ n) (i : Nat) (hi : i < l.length) :
    digits n l / 2 ^ (n * i) % 2 ^ n = l[i] := by
  induction l generalizing i with
  | nil => simp at hi
  | cons x l ih =>
    have hx := h x (by simp)
    cases i with
    | zero =>
      simp only [digits, List.foldr_cons, Nat.mul_zero, Nat.pow_zero, Nat.div_one, List.getElem_cons_zero]
      rw [Nat.add_mul_mod_self_left, Nat.mod_eq_of_lt hx]
    | succ i =>
      have := ih (fun y hy => h y (by simp [hy])) i (by simpa using hi)
      simp only [digits, List.foldr_cons, List.getElem_cons_succ] at this ⊢
      rw [← this, Nat.mul_succ, Nat.add_comm (n * i) n, Nat.pow_add, ← Nat.div_div_eq_div_mul]
      have hp : 0 < 2 ^ n := Nat.two_pow_pos n
      rw [Nat.add_mul_div_left _ _ hp, Nat.div_eq_of_lt hx, Nat.zero_add]

theorem toNat_ofNat_digits {w n : Nat} {l : List Nat} (hw : w = n * l.length) (h : ∀ x ∈ l, x < 2 ^ n) :
    (BitVec.ofNat w (digits n l)).toNat = digits n l := by
  subst hw
  rw [BitVec.toNat_ofNat, Nat.mod_eq_of_lt (digits_lt n l h)]

/-- Lane i of a register built lane by lane. -/
theorem lane_buildLanes (f : Nat → Word) (i : Nat) (hi : i < 64) : lane (buildLanes f) i = f i := by
  have key : buildLanes f = BitVec.ofNat 2048 (digits 32 ((List.range 64).map (fun i => (f i).toNat))) := by
    simp only [buildLanes, vregOfLanes, digits, List.foldr_map]
  have hb : ∀ x ∈ (List.range 64).map (fun i => (f i).toNat), x < 2 ^ 32 := by
    intro x hx
    simp only [List.mem_map] at hx
    obtain ⟨j, _, rfl⟩ := hx
    exact (f j).isLt
  have hw : 2048 = 32 * ((List.range 64).map (fun i => (f i).toNat)).length := by rw [List.length_map, List.length_range]
  have hg := digits_get 32 _ hb i (by rw [List.length_map, List.length_range]; exact hi)
  apply BitVec.eq_of_toNat_eq
  rw [key]
  simp only [lane, BitVec.extractLsb'_toNat]
  rw [toNat_ofNat_digits hw hb, Nat.shiftRight_eq_div_pow, hg]
  simp only [List.getElem_map, List.getElem_range]

/-- 64-bit lane i of a register built lane by lane. -/
theorem laneD_buildLanesD (f : Nat → Dword) (i : Nat) (hi : i < 32) : laneD (buildLanesD f) i = f i := by
  have key : buildLanesD f = BitVec.ofNat 2048 (digits 64 ((List.range 32).map (fun i => (f i).toNat))) := by
    simp only [buildLanesD, vregOfLanesD, digits, List.foldr_map]
  have hb : ∀ x ∈ (List.range 32).map (fun i => (f i).toNat), x < 2 ^ 64 := by
    intro x hx
    simp only [List.mem_map] at hx
    obtain ⟨j, _, rfl⟩ := hx
    exact (f j).isLt
  have hw : 2048 = 64 * ((List.range 32).map (fun i => (f i).toNat)).length := by rw [List.length_map, List.length_range]
  have hg := digits_get 64 _ hb i (by rw [List.length_map, List.length_range]; exact hi)
  apply BitVec.eq_of_toNat_eq
  rw [key]
  simp only [laneD, BitVec.extractLsb'_toNat]
  rw [toNat_ofNat_digits hw hb, Nat.shiftRight_eq_div_pow, hg]
  simp only [List.getElem_map, List.getElem_range]

/-- Lane i of a result under a mask: new where the bit is set, else as it was. -/
theorem lane_masked (m : Dword) (old : VReg) (f : Nat → Word) (i : Nat) (hi : i < 64) :
    lane (masked m old f) i = if m.getLsbD i then f i else lane old i := lane_buildLanes _ i hi

theorem laneD_maskedD (m : Dword) (old : VReg) (f : Nat → Dword) (i : Nat) (hi : i < 32) :
    laneD (maskedD m old f) i = if m.getLsbD i then f i else laneD old i := laneD_buildLanesD _ i hi

/-- Bit i of a mask built bit by bit. -/
theorem getLsbD_buildMask (f : Nat → Bool) (i : Nat) (hi : i < 64) : (buildMask f).getLsbD i = f i := by
  have key : buildMask f = BitVec.ofNat 64 (digits 1 ((List.range 64).map (fun i => b2n (f i)))) := by
    simp only [buildMask, digits, List.foldr_map, Nat.pow_one]
  have hb : ∀ x ∈ (List.range 64).map (fun i => b2n (f i)), x < 2 ^ 1 := by
    intro x hx
    simp only [List.mem_map] at hx
    obtain ⟨j, _, rfl⟩ := hx
    unfold b2n
    split <;> decide
  have hw : 64 = 1 * ((List.range 64).map (fun i => b2n (f i))).length := by rw [List.length_map, List.length_range]
  have hg := digits_get 1 _ hb i (by rw [List.length_map, List.length_range]; exact hi)
  rw [key, BitVec.getLsbD, toNat_ofNat_digits hw hb, Nat.testBit_eq_decide_div_mod_eq]
  rw [Nat.one_mul, Nat.pow_one] at hg
  rw [hg]
  simp only [List.getElem_map, List.getElem_range, b2n]
  cases f i <;> decide

end Sys2Proof.Machine
end

