-- ==== Sys2Proof/Laws/Sparse.lean ====
section
/-! SUPPORT. Stores in canonical form: a read after a write, other keys untouched, and the form kept by every operation. -/

namespace Sys2Proof.Machine

section
variable {α : Type} [DecidableEq α] {d : α}

theorem sget_of_lt {l : List (Nat × α)} {k lo : Nat} (h : swfFrom d lo l = true) (hk : k < lo) : sget d l k = d := by
  cases l with
  | nil => rfl
  | cons p l =>
    obtain ⟨a, v⟩ := p
    simp only [swfFrom, Bool.and_eq_true, decide_eq_true_eq] at h
    have h1 : ¬ k = a := by omega
    have h2 : k < a := by omega
    simp [sget, h1, h2]

theorem sget_cons_ne {a b : Nat} {v : α} {l : List (Nat × α)} (h : b ≠ a) :
    sget d ((a, v) :: l) b = if b < a then d else sget d l b := by
  simp [sget, h]

theorem sget_scons_same {a : Nat} {x : α} {l : List (Nat × α)} (h : sget d l a = d) : sget d (scons d a x l) a = x := by
  unfold scons
  split
  · simp_all
  · simp [sget]

theorem sget_dropWhile_self (l : List (Nat × α)) (a : Nat) : sget d (l.dropWhile (fun p => decide (p.1 ≤ a))) a = d := by
  induction l with
  | nil => rfl
  | cons p l ih =>
    obtain ⟨k, v⟩ := p
    by_cases h : k ≤ a
    · simpa [List.dropWhile, h] using ih
    · have h1 : ¬ a = k := by omega
      have h2 : a < k := by omega
      simp [List.dropWhile, h, sget, h1, h2]

/-- A read after a write to the same key gives the value written. -/
@[simp] theorem sget_sset_same (l : List (Nat × α)) (a : Nat) (x : α) : sget d (sset d l a x) a = x := by
  induction l with
  | nil => exact sget_scons_same rfl
  | cons p l ih =>
    obtain ⟨k, v⟩ := p
    unfold sset
    split
    · rename_i h
      apply sget_scons_same
      have h1 : ¬ a = k := by omega
      simp [sget, h1, h]
    · split
      · exact sget_scons_same (sget_dropWhile_self l a)
      · rename_i h1 h2
        simp [sget, h1, h2, ih]

theorem sget_dropWhile_gt (l : List (Nat × α)) {a b : Nat} (h : a < b) :
    sget d (l.dropWhile (fun p => decide (p.1 ≤ a))) b = sget d l b := by
  induction l with
  | nil => rfl
  | cons p l ih =>
    obtain ⟨k, v⟩ := p
    by_cases hk : k ≤ a
    · have h1 : ¬ b = k := by omega
      have h2 : ¬ b < k := by omega
      simp [List.dropWhile, hk, ih, sget, h1, h2]
    · simp [List.dropWhile, hk]

/-- A write leaves every other key alone. -/
theorem sget_sset_other (l : List (Nat × α)) {a b : Nat} (x : α) (h : b ≠ a) : sget d (sset d l a x) b = sget d l b := by
  induction l with
  | nil =>
    unfold sset scons
    split
    · rfl
    · simp [sget, h]
  | cons p l ih =>
    obtain ⟨k, v⟩ := p
    unfold sset
    split
    · rename_i hak
      unfold scons
      split
      · rfl
      · rw [sget_cons_ne h]
        split
        · rename_i hb
          have h1 : ¬ b = k := by omega
          have h2 : b < k := by omega
          simp [sget, h1, h2]
        · rfl
    · split
      · rename_i h1 h2
        subst h2
        have hw : sget d (scons d a x (l.dropWhile (fun p => decide (p.1 ≤ a)))) b
            = if b < a then d else sget d (l.dropWhile (fun p => decide (p.1 ≤ a))) b := by
          unfold scons
          split
          · split
            · rename_i hb
              have : ∀ m : List (Nat × α), (∀ p ∈ m.head?, a < p.1) → sget d m b = d := by
                intro m hm
                cases m with
                | nil => rfl
                | cons q m =>
                  have := hm q (by simp)
                  have h3 : ¬ b = q.1 := by omega
                  have h4 : b < q.1 := by omega
                  simp [sget, h3, h4]
              apply this
              intro p hp
              have := List.head?_dropWhile_not (fun p : Nat × α => decide (p.1 ≤ a)) l
              rw [hp] at this
              simpa using this
            · rfl
          · exact sget_cons_ne h
        rw [hw, sget_cons_ne h]
        split
        · rfl
        · exact sget_dropWhile_gt l (by omega)
      · by_cases hb : b = k
        · simp [sget, hb]
        · rw [sget_cons_ne hb, sget_cons_ne hb, ih]

theorem swfFrom_mono {l : List (Nat × α)} {lo lo' : Nat} (h : swfFrom d lo l = true) (hl : lo' ≤ lo) : swfFrom d lo' l = true := by
  cases l with
  | nil => rfl
  | cons p l =>
    simp only [swfFrom, Bool.and_eq_true, decide_eq_true_eq] at h ⊢
    exact ⟨⟨by omega, h.1.2⟩, h.2⟩

theorem swfFrom_dropWhile {l : List (Nat × α)} {a lo : Nat} (h : swfFrom d lo l = true) :
    swfFrom d (a + 1) (l.dropWhile (fun p => decide (p.1 ≤ a))) = true := by
  induction l generalizing lo with
  | nil => rfl
  | cons p l ih =>
    simp only [swfFrom, Bool.and_eq_true, decide_eq_true_eq] at h
    by_cases hk : p.1 ≤ a
    · simpa [List.dropWhile, hk] using ih h.2
    · simp only [List.dropWhile, hk, decide_false, swfFrom, Bool.and_eq_true, decide_eq_true_eq]
      exact ⟨⟨by omega, h.1.2⟩, h.2⟩

theorem swfFrom_scons {l : List (Nat × α)} {a lo : Nat} {x : α} (h : swfFrom d (a + 1) l = true) (hl : lo ≤ a) :
    swfFrom d lo (scons d a x l) = true := by
  unfold scons
  split
  · exact swfFrom_mono h (by omega)
  · rename_i hx
    simp [swfFrom, hl, hx, h]

theorem swfFrom_sset {l : List (Nat × α)} {a lo : Nat} {x : α} (h : swfFrom d lo l = true) (hl : lo ≤ a) :
    swfFrom d lo (sset d l a x) = true := by
  induction l generalizing lo with
  | nil => exact swfFrom_scons (by rfl) hl
  | cons p l ih =>
    obtain ⟨k, v⟩ := p
    have h' := h
    simp only [swfFrom, Bool.and_eq_true, decide_eq_true_eq] at h'
    unfold sset
    split
    · rename_i hak
      exact swfFrom_scons (by simp [swfFrom, h'.1.2, h'.2]; omega) hl
    · split
      · exact swfFrom_scons (swfFrom_dropWhile h'.2) hl
      · simp only [swfFrom, Bool.and_eq_true, decide_eq_true_eq]
        exact ⟨h'.1, ih h'.2 (by omega)⟩

/-- A write keeps the canonical form. -/
theorem swf_sset {l : List (Nat × α)} (h : swf d l = true) (a : Nat) (x : α) : swf d (sset d l a x) = true :=
  swfFrom_sset h (Nat.zero_le a)

theorem swfFrom_filter {l : List (Nat × α)} {lo : Nat} (f : Nat × α → Bool) (h : swfFrom d lo l = true) :
    swfFrom d lo (l.filter f) = true := by
  induction l generalizing lo with
  | nil => rfl
  | cons p l ih =>
    simp only [swfFrom, Bool.and_eq_true, decide_eq_true_eq] at h
    by_cases hp : f p = true
    · simp only [List.filter_cons, hp, if_true, swfFrom, Bool.and_eq_true, decide_eq_true_eq]
      exact ⟨h.1, ih h.2⟩
    · simp only [List.filter_cons, hp]
      exact swfFrom_mono (ih h.2) (by omega)

/-- Clearing a range keeps the canonical form. -/
theorem swf_sclear {l : List (Nat × α)} (h : swf d l = true) (lo hi : Nat) : swf d (sclear l lo hi) = true :=
  swfFrom_filter _ h

/-- A cleared key reads as the default, any other as before. -/
theorem sget_sclear {l : List (Nat × α)} {lo : Nat} (h : swfFrom d lo l = true) (a b k : Nat) :
    sget d (sclear l a b) k = if a ≤ k ∧ k < b then d else sget d l k := by
  induction l generalizing lo with
  | nil => simp [sclear, sget]
  | cons p l ih =>
    obtain ⟨j, v⟩ := p
    simp only [swfFrom, Bool.and_eq_true, decide_eq_true_eq] at h
    have ih := ih h.2
    unfold sclear at ih ⊢
    by_cases hj : j < a ∨ b ≤ j
    · simp only [List.filter_cons, hj, decide_true, if_true, sget, ih]
      by_cases hk : k = j
      · subst hk
        have : ¬ (a ≤ k ∧ k < b) := by omega
        simp [this]
      · simp only [hk, if_false]
        split
        · simp
        · rfl
    · simp only [List.filter_cons, hj, decide_false, sget, Bool.false_eq_true, if_false, ih]
      by_cases hk : k = j
      · subst hk
        have : a ≤ k ∧ k < b := by omega
        simp [this]
      · simp only [hk, if_false]
        split
        · rfl
        · split
          · exact sget_of_lt h.2 (by omega)
          · rfl

/-- Appending a store whose keys all lie above keeps the canonical form. -/
theorem swfFrom_append {l m : List (Nat × α)} {lo hi : Nat} (hl : swfFrom d lo l = true) (hm : swfFrom d hi m = true)
    (h : ∀ p ∈ l, p.1 < hi) (hlo : lo ≤ hi) : swfFrom d lo (l ++ m) = true := by
  induction l generalizing lo with
  | nil => exact swfFrom_mono hm hlo
  | cons p l ih =>
    simp only [swfFrom, Bool.and_eq_true, decide_eq_true_eq] at hl
    simp only [List.cons_append, swfFrom, Bool.and_eq_true, decide_eq_true_eq]
    have := h p (by simp)
    exact ⟨hl.1, ih hl.2 (fun q hq => h q (by simp [hq])) (by omega)⟩

end

end Sys2Proof.Machine
end

