-- ==== Sys2Proof/Laws/Memory.lean ====
section
/-! SUPPORT. Memory by bytes: reads after writes, bytes outside a write untouched, and the canonical form kept. -/

namespace Sys2Proof.Machine

theorem wf_nil : Memory.wf [] = true := rfl

@[simp] theorem readByte_nil (a : Nat) : readByte [] a = unwritten := rfl

@[simp] theorem readByte_writeByte_same (m : Memory) (a : Nat) (b : Byte) : readByte (writeByte m a b) a = b :=
  sget_sset_same m a b

theorem readByte_writeByte_other (m : Memory) {a c : Nat} (b : Byte) (h : c ≠ a) : readByte (writeByte m a b) c = readByte m c :=
  sget_sset_other m b h

theorem wf_writeByte {m : Memory} (h : m.wf = true) (a : Nat) (b : Byte) : Memory.wf (writeByte m a b) = true := swf_sset h a b

/-- A byte outside the bytes written reads as before; one inside as written. -/
theorem readByte_writeBytes (bs : List Byte) (m : Memory) (a c : Nat) :
    readByte (writeBytes m a bs) c = if a ≤ c ∧ c < a + bs.length then bs.getD (c - a) unwritten else readByte m c := by
  induction bs generalizing m a with
  | nil =>
    rw [if_neg (by simp only [List.length_nil]; omega)]
    rfl
  | cons b bs ih =>
    simp only [writeBytes, ih, List.length_cons]
    by_cases h : c = a
    · subst h
      have h1 : ¬ (c + 1 ≤ c ∧ c < c + 1 + bs.length) := by omega
      simp [h1]
    · rw [readByte_writeByte_other m b h]
      by_cases h2 : a ≤ c ∧ c < a + (bs.length + 1)
      · have h3 : a + 1 ≤ c ∧ c < a + 1 + bs.length := by omega
        have h4 : c - a = (c - (a + 1)) + 1 := by omega
        rw [if_pos h3, if_pos h2, h4]
        simp
      · have h3 : ¬ (a + 1 ≤ c ∧ c < a + 1 + bs.length) := by omega
        rw [if_neg h3, if_neg h2]

theorem readByte_writeBytes_out {bs : List Byte} (m : Memory) {a c : Nat} (h : c < a ∨ a + bs.length ≤ c) :
    readByte (writeBytes m a bs) c = readByte m c := by
  rw [readByte_writeBytes, if_neg (by omega)]

theorem wf_writeBytes {m : Memory} (h : m.wf = true) (a : Nat) (bs : List Byte) : Memory.wf (writeBytes m a bs) = true := by
  induction bs generalizing m a with
  | nil => exact h
  | cons b bs ih => exact ih (wf_writeByte h a b) (a + 1)

@[simp] theorem length_leBytes (n x : Nat) : (leBytes n x).length = n := by
  induction n generalizing x with
  | zero => rfl
  | succ n ih => simp [leBytes, ih]

/-- Joining the n low bytes of a number gives it modulo 256^n. -/
theorem leNat_leBytes (n x : Nat) : leNat (leBytes n x) = x % 256 ^ n := by
  induction n generalizing x with
  | zero => simp [leBytes, leNat, Nat.mod_one]
  | succ n ih =>
    simp only [leBytes, leNat, ih, BitVec.toNat_ofNat]
    have h : (256 : Nat) ^ (n + 1) = 256 * 256 ^ n := by rw [Nat.pow_succ, Nat.mul_comm]
    rw [h, Nat.mod_mul]

theorem wf_writeLE {m : Memory} (h : m.wf = true) (a n x : Nat) : Memory.wf (writeLE m a n x) = true := wf_writeBytes h a _

theorem wf_fillBytes {m : Memory} (h : m.wf = true) (a n : Nat) (b : Byte) : Memory.wf (fillBytes m a n b) = true := by
  induction n generalizing m a with
  | zero => exact h
  | succ n ih => exact ih (wf_writeByte h a b) (a + 1)

theorem wf_sclear {m : Memory} (h : m.wf = true) (lo hi : Nat) : Memory.wf (sclear m lo hi) = true := swf_sclear h lo hi

@[simp] theorem length_readBytes (m : Memory) (a n : Nat) : (readBytes m a n).length = n := by
  induction n generalizing a with
  | zero => rfl
  | succ n ih => simp [readBytes, ih]

/-- Bytes written and read back at the same place. -/
theorem readBytes_writeBytes_same (m : Memory) (a : Nat) (bs : List Byte) : readBytes (writeBytes m a bs) a bs.length = bs := by
  have key : ∀ (n c : Nat) (w : Memory), readBytes w c n = (List.range n).map (fun i => readByte w (c + i)) := by
    intro n
    induction n with
    | zero => intro c w; rfl
    | succ n ih =>
      intro c w
      simp only [readBytes, ih, List.range_succ_eq_map, List.map_cons, List.map_map, Nat.add_zero, List.cons.injEq, true_and]
      apply List.map_congr_left
      intro i _
      simp only [Function.comp]
      congr 1
      omega
  rw [key]
  apply List.ext_getElem
  · simp
  · intro i h1 h2
    simp only [List.getElem_map, List.getElem_range, readByte_writeBytes]
    rw [if_pos (by omega)]
    have : a + i - a = i := by omega
    rw [this]
    simp [h2]

/-- A value stored and loaded at the same place, modulo its width (R1). -/
theorem readLE_writeLE (m : Memory) (a n x : Nat) : readLE (writeLE m a n x) a n = x % 256 ^ n := by
  have h := readBytes_writeBytes_same m a (leBytes n x)
  rw [length_leBytes] at h
  simp only [readLE, writeLE, h, leNat_leBytes]

end Sys2Proof.Machine
end

