-- ==== Sys2Proof/Laws/State.lean ====
section
/-! SUPPORT. One lemma per field per update of the state, of a core and of a slot: what an update leaves alone. -/

namespace Sys2Proof.Machine

/-! State.setCore -/

@[simp] theorem State_setCore_issuer (s : State) (c : Nat) (k : Core) : (s.setCore c k).issuer = s.issuer := rfl
@[simp] theorem State_setCore_net (s : State) (c : Nat) (k : Core) : (s.setCore c k).net = s.net := rfl
@[simp] theorem State_setCore_mesh (s : State) (c : Nat) (k : Core) : (s.setCore c k).mesh = s.mesh := rfl
@[simp] theorem State_setCore_mem (s : State) (c : Nat) (k : Core) : (s.setCore c k).mem = s.mem := rfl
@[simp] theorem State_setCore_hub (s : State) (c : Nat) (k : Core) : (s.setCore c k).hub = s.hub := rfl
@[simp] theorem State_setCore_fab (s : State) (c : Nat) (k : Core) : (s.setCore c k).fab = s.fab := rfl
@[simp] theorem State_setCore_fw (s : State) (c : Nat) (k : Core) : (s.setCore c k).fw = s.fw := rfl
@[simp] theorem State_setCore_agenda (s : State) (c : Nat) (k : Core) : (s.setCore c k).agenda = s.agenda := rfl
@[simp] theorem State_setCore_fresh (s : State) (c : Nat) (k : Core) : (s.setCore c k).fresh = s.fresh := rfl

/-! State.modCore -/

@[simp] theorem State_modCore_issuer (s : State) (c : Nat) (f : Core → Core) : (s.modCore c f).issuer = s.issuer := rfl
@[simp] theorem State_modCore_net (s : State) (c : Nat) (f : Core → Core) : (s.modCore c f).net = s.net := rfl
@[simp] theorem State_modCore_mesh (s : State) (c : Nat) (f : Core → Core) : (s.modCore c f).mesh = s.mesh := rfl
@[simp] theorem State_modCore_mem (s : State) (c : Nat) (f : Core → Core) : (s.modCore c f).mem = s.mem := rfl
@[simp] theorem State_modCore_hub (s : State) (c : Nat) (f : Core → Core) : (s.modCore c f).hub = s.hub := rfl
@[simp] theorem State_modCore_fab (s : State) (c : Nat) (f : Core → Core) : (s.modCore c f).fab = s.fab := rfl
@[simp] theorem State_modCore_fw (s : State) (c : Nat) (f : Core → Core) : (s.modCore c f).fw = s.fw := rfl
@[simp] theorem State_modCore_agenda (s : State) (c : Nat) (f : Core → Core) : (s.modCore c f).agenda = s.agenda := rfl
@[simp] theorem State_modCore_fresh (s : State) (c : Nat) (f : Core → Core) : (s.modCore c f).fresh = s.fresh := rfl

/-! State.modSlot -/

@[simp] theorem State_modSlot_issuer (s : State) (c : Nat) (i : Fin 5) (f : Slot → Slot) : (s.modSlot c i f).issuer = s.issuer := rfl
@[simp] theorem State_modSlot_net (s : State) (c : Nat) (i : Fin 5) (f : Slot → Slot) : (s.modSlot c i f).net = s.net := rfl
@[simp] theorem State_modSlot_mesh (s : State) (c : Nat) (i : Fin 5) (f : Slot → Slot) : (s.modSlot c i f).mesh = s.mesh := rfl
@[simp] theorem State_modSlot_mem (s : State) (c : Nat) (i : Fin 5) (f : Slot → Slot) : (s.modSlot c i f).mem = s.mem := rfl
@[simp] theorem State_modSlot_hub (s : State) (c : Nat) (i : Fin 5) (f : Slot → Slot) : (s.modSlot c i f).hub = s.hub := rfl
@[simp] theorem State_modSlot_fab (s : State) (c : Nat) (i : Fin 5) (f : Slot → Slot) : (s.modSlot c i f).fab = s.fab := rfl
@[simp] theorem State_modSlot_fw (s : State) (c : Nat) (i : Fin 5) (f : Slot → Slot) : (s.modSlot c i f).fw = s.fw := rfl
@[simp] theorem State_modSlot_agenda (s : State) (c : Nat) (i : Fin 5) (f : Slot → Slot) : (s.modSlot c i f).agenda = s.agenda := rfl
@[simp] theorem State_modSlot_fresh (s : State) (c : Nat) (i : Fin 5) (f : Slot → Slot) : (s.modSlot c i f).fresh = s.fresh := rfl

/-! State.modHere -/

@[simp] theorem State_modHere_issuer (s : State) (f : Core → Core) : (s.modHere f).issuer = s.issuer := rfl
@[simp] theorem State_modHere_net (s : State) (f : Core → Core) : (s.modHere f).net = s.net := rfl
@[simp] theorem State_modHere_mesh (s : State) (f : Core → Core) : (s.modHere f).mesh = s.mesh := rfl
@[simp] theorem State_modHere_mem (s : State) (f : Core → Core) : (s.modHere f).mem = s.mem := rfl
@[simp] theorem State_modHere_hub (s : State) (f : Core → Core) : (s.modHere f).hub = s.hub := rfl
@[simp] theorem State_modHere_fab (s : State) (f : Core → Core) : (s.modHere f).fab = s.fab := rfl
@[simp] theorem State_modHere_fw (s : State) (f : Core → Core) : (s.modHere f).fw = s.fw := rfl
@[simp] theorem State_modHere_agenda (s : State) (f : Core → Core) : (s.modHere f).agenda = s.agenda := rfl
@[simp] theorem State_modHere_fresh (s : State) (f : Core → Core) : (s.modHere f).fresh = s.fresh := rfl

/-! State.modMe -/

@[simp] theorem State_modMe_issuer (s : State) (f : Slot → Slot) : (s.modMe f).issuer = s.issuer := rfl
@[simp] theorem State_modMe_net (s : State) (f : Slot → Slot) : (s.modMe f).net = s.net := rfl
@[simp] theorem State_modMe_mesh (s : State) (f : Slot → Slot) : (s.modMe f).mesh = s.mesh := rfl
@[simp] theorem State_modMe_mem (s : State) (f : Slot → Slot) : (s.modMe f).mem = s.mem := rfl
@[simp] theorem State_modMe_hub (s : State) (f : Slot → Slot) : (s.modMe f).hub = s.hub := rfl
@[simp] theorem State_modMe_fab (s : State) (f : Slot → Slot) : (s.modMe f).fab = s.fab := rfl
@[simp] theorem State_modMe_fw (s : State) (f : Slot → Slot) : (s.modMe f).fw = s.fw := rfl
@[simp] theorem State_modMe_agenda (s : State) (f : Slot → Slot) : (s.modMe f).agenda = s.agenda := rfl
@[simp] theorem State_modMe_fresh (s : State) (f : Slot → Slot) : (s.modMe f).fresh = s.fresh := rfl

/-! State.setPc -/

@[simp] theorem State_setPc_issuer (s : State) (a : Dword) : (s.setPc a).issuer = s.issuer := rfl
@[simp] theorem State_setPc_net (s : State) (a : Dword) : (s.setPc a).net = s.net := rfl
@[simp] theorem State_setPc_mesh (s : State) (a : Dword) : (s.setPc a).mesh = s.mesh := rfl
@[simp] theorem State_setPc_mem (s : State) (a : Dword) : (s.setPc a).mem = s.mem := rfl
@[simp] theorem State_setPc_hub (s : State) (a : Dword) : (s.setPc a).hub = s.hub := rfl
@[simp] theorem State_setPc_fab (s : State) (a : Dword) : (s.setPc a).fab = s.fab := rfl
@[simp] theorem State_setPc_fw (s : State) (a : Dword) : (s.setPc a).fw = s.fw := rfl
@[simp] theorem State_setPc_agenda (s : State) (a : Dword) : (s.setPc a).agenda = s.agenda := rfl
@[simp] theorem State_setPc_fresh (s : State) (a : Dword) : (s.setPc a).fresh = s.fresh := rfl

/-! State.advance -/

@[simp] theorem State_advance_issuer (s : State) : (s.advance).issuer = s.issuer := rfl
@[simp] theorem State_advance_net (s : State) : (s.advance).net = s.net := rfl
@[simp] theorem State_advance_mesh (s : State) : (s.advance).mesh = s.mesh := rfl
@[simp] theorem State_advance_mem (s : State) : (s.advance).mem = s.mem := rfl
@[simp] theorem State_advance_hub (s : State) : (s.advance).hub = s.hub := rfl
@[simp] theorem State_advance_fab (s : State) : (s.advance).fab = s.fab := rfl
@[simp] theorem State_advance_fw (s : State) : (s.advance).fw = s.fw := rfl
@[simp] theorem State_advance_agenda (s : State) : (s.advance).agenda = s.agenda := rfl
@[simp] theorem State_advance_fresh (s : State) : (s.advance).fresh = s.fresh := rfl

/-! State.retire -/

@[simp] theorem State_retire_issuer (s : State) (d : BitVec 5) (v : Dword) : (s.retire d v).issuer = s.issuer := rfl
@[simp] theorem State_retire_net (s : State) (d : BitVec 5) (v : Dword) : (s.retire d v).net = s.net := rfl
@[simp] theorem State_retire_mesh (s : State) (d : BitVec 5) (v : Dword) : (s.retire d v).mesh = s.mesh := rfl
@[simp] theorem State_retire_mem (s : State) (d : BitVec 5) (v : Dword) : (s.retire d v).mem = s.mem := rfl
@[simp] theorem State_retire_hub (s : State) (d : BitVec 5) (v : Dword) : (s.retire d v).hub = s.hub := rfl
@[simp] theorem State_retire_fab (s : State) (d : BitVec 5) (v : Dword) : (s.retire d v).fab = s.fab := rfl
@[simp] theorem State_retire_fw (s : State) (d : BitVec 5) (v : Dword) : (s.retire d v).fw = s.fw := rfl
@[simp] theorem State_retire_agenda (s : State) (d : BitVec 5) (v : Dword) : (s.retire d v).agenda = s.agenda := rfl
@[simp] theorem State_retire_fresh (s : State) (d : BitVec 5) (v : Dword) : (s.retire d v).fresh = s.fresh := rfl

/-! State.retireV -/

@[simp] theorem State_retireV_issuer (s : State) (d : BitVec 5) (v : VReg) : (s.retireV d v).issuer = s.issuer := rfl
@[simp] theorem State_retireV_net (s : State) (d : BitVec 5) (v : VReg) : (s.retireV d v).net = s.net := rfl
@[simp] theorem State_retireV_mesh (s : State) (d : BitVec 5) (v : VReg) : (s.retireV d v).mesh = s.mesh := rfl
@[simp] theorem State_retireV_mem (s : State) (d : BitVec 5) (v : VReg) : (s.retireV d v).mem = s.mem := rfl
@[simp] theorem State_retireV_hub (s : State) (d : BitVec 5) (v : VReg) : (s.retireV d v).hub = s.hub := rfl
@[simp] theorem State_retireV_fab (s : State) (d : BitVec 5) (v : VReg) : (s.retireV d v).fab = s.fab := rfl
@[simp] theorem State_retireV_fw (s : State) (d : BitVec 5) (v : VReg) : (s.retireV d v).fw = s.fw := rfl
@[simp] theorem State_retireV_agenda (s : State) (d : BitVec 5) (v : VReg) : (s.retireV d v).agenda = s.agenda := rfl
@[simp] theorem State_retireV_fresh (s : State) (d : BitVec 5) (v : VReg) : (s.retireV d v).fresh = s.fresh := rfl

/-! State.retireM -/

@[simp] theorem State_retireM_issuer (s : State) (d : BitVec 3) (v : Dword) : (s.retireM d v).issuer = s.issuer := rfl
@[simp] theorem State_retireM_net (s : State) (d : BitVec 3) (v : Dword) : (s.retireM d v).net = s.net := rfl
@[simp] theorem State_retireM_mesh (s : State) (d : BitVec 3) (v : Dword) : (s.retireM d v).mesh = s.mesh := rfl
@[simp] theorem State_retireM_mem (s : State) (d : BitVec 3) (v : Dword) : (s.retireM d v).mem = s.mem := rfl
@[simp] theorem State_retireM_hub (s : State) (d : BitVec 3) (v : Dword) : (s.retireM d v).hub = s.hub := rfl
@[simp] theorem State_retireM_fab (s : State) (d : BitVec 3) (v : Dword) : (s.retireM d v).fab = s.fab := rfl
@[simp] theorem State_retireM_fw (s : State) (d : BitVec 3) (v : Dword) : (s.retireM d v).fw = s.fw := rfl
@[simp] theorem State_retireM_agenda (s : State) (d : BitVec 3) (v : Dword) : (s.retireM d v).agenda = s.agenda := rfl
@[simp] theorem State_retireM_fresh (s : State) (d : BitVec 3) (v : Dword) : (s.retireM d v).fresh = s.fresh := rfl

/-! State.modGang -/

@[simp] theorem State_modGang_issuer (s : State) (id : Nat) (f : Gang → Gang) : (s.modGang id f).issuer = s.issuer := rfl
@[simp] theorem State_modGang_cores (s : State) (id : Nat) (f : Gang → Gang) : (s.modGang id f).cores = s.cores := rfl
@[simp] theorem State_modGang_net (s : State) (id : Nat) (f : Gang → Gang) : (s.modGang id f).net = s.net := rfl
@[simp] theorem State_modGang_mesh (s : State) (id : Nat) (f : Gang → Gang) : (s.modGang id f).mesh = s.mesh := rfl
@[simp] theorem State_modGang_mem (s : State) (id : Nat) (f : Gang → Gang) : (s.modGang id f).mem = s.mem := rfl
@[simp] theorem State_modGang_fab (s : State) (id : Nat) (f : Gang → Gang) : (s.modGang id f).fab = s.fab := rfl
@[simp] theorem State_modGang_fw (s : State) (id : Nat) (f : Gang → Gang) : (s.modGang id f).fw = s.fw := rfl
@[simp] theorem State_modGang_agenda (s : State) (id : Nat) (f : Gang → Gang) : (s.modGang id f).agenda = s.agenda := rfl
@[simp] theorem State_modGang_fresh (s : State) (id : Nat) (f : Gang → Gang) : (s.modGang id f).fresh = s.fresh := rfl

/-! State.modTenant -/

@[simp] theorem State_modTenant_issuer (s : State) (id : Nat) (f : Tenant → Tenant) : (s.modTenant id f).issuer = s.issuer := rfl
@[simp] theorem State_modTenant_cores (s : State) (id : Nat) (f : Tenant → Tenant) : (s.modTenant id f).cores = s.cores := rfl
@[simp] theorem State_modTenant_net (s : State) (id : Nat) (f : Tenant → Tenant) : (s.modTenant id f).net = s.net := rfl
@[simp] theorem State_modTenant_mesh (s : State) (id : Nat) (f : Tenant → Tenant) : (s.modTenant id f).mesh = s.mesh := rfl
@[simp] theorem State_modTenant_mem (s : State) (id : Nat) (f : Tenant → Tenant) : (s.modTenant id f).mem = s.mem := rfl
@[simp] theorem State_modTenant_fab (s : State) (id : Nat) (f : Tenant → Tenant) : (s.modTenant id f).fab = s.fab := rfl
@[simp] theorem State_modTenant_fw (s : State) (id : Nat) (f : Tenant → Tenant) : (s.modTenant id f).fw = s.fw := rfl
@[simp] theorem State_modTenant_agenda (s : State) (id : Nat) (f : Tenant → Tenant) : (s.modTenant id f).agenda = s.agenda := rfl
@[simp] theorem State_modTenant_fresh (s : State) (id : Nat) (f : Tenant → Tenant) : (s.modTenant id f).fresh = s.fresh := rfl

/-! State.logFault -/

@[simp] theorem State_logFault_issuer (s : State) (c i n : Nat) : (s.logFault c i n).issuer = s.issuer := rfl
@[simp] theorem State_logFault_cores (s : State) (c i n : Nat) : (s.logFault c i n).cores = s.cores := rfl
@[simp] theorem State_logFault_net (s : State) (c i n : Nat) : (s.logFault c i n).net = s.net := rfl
@[simp] theorem State_logFault_mesh (s : State) (c i n : Nat) : (s.logFault c i n).mesh = s.mesh := rfl
@[simp] theorem State_logFault_mem (s : State) (c i n : Nat) : (s.logFault c i n).mem = s.mem := rfl
@[simp] theorem State_logFault_fab (s : State) (c i n : Nat) : (s.logFault c i n).fab = s.fab := rfl
@[simp] theorem State_logFault_fw (s : State) (c i n : Nat) : (s.logFault c i n).fw = s.fw := rfl
@[simp] theorem State_logFault_agenda (s : State) (c i n : Nat) : (s.logFault c i n).agenda = s.agenda := rfl
@[simp] theorem State_logFault_fresh (s : State) (c i n : Nat) : (s.logFault c i n).fresh = s.fresh := rfl

/-! State.send -/

@[simp] theorem State_send_issuer (s : State) (p : Packet) : (s.send p).issuer = s.issuer := rfl
@[simp] theorem State_send_cores (s : State) (p : Packet) : (s.send p).cores = s.cores := rfl
@[simp] theorem State_send_mesh (s : State) (p : Packet) : (s.send p).mesh = s.mesh := rfl
@[simp] theorem State_send_mem (s : State) (p : Packet) : (s.send p).mem = s.mem := rfl
@[simp] theorem State_send_hub (s : State) (p : Packet) : (s.send p).hub = s.hub := rfl
@[simp] theorem State_send_fab (s : State) (p : Packet) : (s.send p).fab = s.fab := rfl
@[simp] theorem State_send_fw (s : State) (p : Packet) : (s.send p).fw = s.fw := rfl
@[simp] theorem State_send_agenda (s : State) (p : Packet) : (s.send p).agenda = s.agenda := rfl
@[simp] theorem State_send_fresh (s : State) (p : Packet) : (s.send p).fresh = s.fresh := rfl

/-! State.draw -/

@[simp] theorem State_draw_issuer (s : State) : (s.draw).issuer = s.issuer := rfl
@[simp] theorem State_draw_cores (s : State) : (s.draw).cores = s.cores := rfl
@[simp] theorem State_draw_net (s : State) : (s.draw).net = s.net := rfl
@[simp] theorem State_draw_mesh (s : State) : (s.draw).mesh = s.mesh := rfl
@[simp] theorem State_draw_mem (s : State) : (s.draw).mem = s.mem := rfl
@[simp] theorem State_draw_hub (s : State) : (s.draw).hub = s.hub := rfl
@[simp] theorem State_draw_fab (s : State) : (s.draw).fab = s.fab := rfl
@[simp] theorem State_draw_fw (s : State) : (s.draw).fw = s.fw := rfl
@[simp] theorem State_draw_agenda (s : State) : (s.draw).agenda = s.agenda := rfl

/-! State.asIssuer -/

@[simp] theorem State_asIssuer_cores (s : State) (c : Nat) (i : Fin 5) : (s.asIssuer c i).cores = s.cores := rfl
@[simp] theorem State_asIssuer_net (s : State) (c : Nat) (i : Fin 5) : (s.asIssuer c i).net = s.net := rfl
@[simp] theorem State_asIssuer_mesh (s : State) (c : Nat) (i : Fin 5) : (s.asIssuer c i).mesh = s.mesh := rfl
@[simp] theorem State_asIssuer_mem (s : State) (c : Nat) (i : Fin 5) : (s.asIssuer c i).mem = s.mem := rfl
@[simp] theorem State_asIssuer_hub (s : State) (c : Nat) (i : Fin 5) : (s.asIssuer c i).hub = s.hub := rfl
@[simp] theorem State_asIssuer_fab (s : State) (c : Nat) (i : Fin 5) : (s.asIssuer c i).fab = s.fab := rfl
@[simp] theorem State_asIssuer_fw (s : State) (c : Nat) (i : Fin 5) : (s.asIssuer c i).fw = s.fw := rfl
@[simp] theorem State_asIssuer_agenda (s : State) (c : Nat) (i : Fin 5) : (s.asIssuer c i).agenda = s.agenda := rfl
@[simp] theorem State_asIssuer_fresh (s : State) (c : Nat) (i : Fin 5) : (s.asIssuer c i).fresh = s.fresh := rfl

/-! Core.setSlot -/

@[simp] theorem Core_setSlot_gang (k : Core) (i : Fin 5) (x : Slot) : (k.setSlot i x).gang = k.gang := rfl
@[simp] theorem Core_setSlot_cycle (k : Core) (i : Fin 5) (x : Slot) : (k.setSlot i x).cycle = k.cycle := rfl
@[simp] theorem Core_setSlot_tenant (k : Core) (i : Fin 5) (x : Slot) : (k.setSlot i x).tenant = k.tenant := rfl
@[simp] theorem Core_setSlot_asid (k : Core) (i : Fin 5) (x : Slot) : (k.setSlot i x).asid = k.asid := rfl
@[simp] theorem Core_setSlot_page (k : Core) (i : Fin 5) (x : Slot) : (k.setSlot i x).page = k.page := rfl
@[simp] theorem Core_setSlot_ls (k : Core) (i : Fin 5) (x : Slot) : (k.setSlot i x).ls = k.ls := rfl
@[simp] theorem Core_setSlot_lsHdr (k : Core) (i : Fin 5) (x : Slot) : (k.setSlot i x).lsHdr = k.lsHdr := rfl
@[simp] theorem Core_setSlot_acc (k : Core) (i : Fin 5) (x : Slot) : (k.setSlot i x).acc = k.acc := rfl
@[simp] theorem Core_setSlot_accHdr (k : Core) (i : Fin 5) (x : Slot) : (k.setSlot i x).accHdr = k.accHdr := rfl
@[simp] theorem Core_setSlot_accBase (k : Core) (i : Fin 5) (x : Slot) : (k.setSlot i x).accBase = k.accBase := rfl
@[simp] theorem Core_setSlot_ctl (k : Core) (i : Fin 5) (x : Slot) : (k.setSlot i x).ctl = k.ctl := rfl
@[simp] theorem Core_setSlot_windows (k : Core) (i : Fin 5) (x : Slot) : (k.setSlot i x).windows = k.windows := rfl
@[simp] theorem Core_setSlot_chans (k : Core) (i : Fin 5) (x : Slot) : (k.setSlot i x).chans = k.chans := rfl
@[simp] theorem Core_setSlot_pats (k : Core) (i : Fin 5) (x : Slot) : (k.setSlot i x).pats = k.pats := rfl
@[simp] theorem Core_setSlot_ptr (k : Core) (i : Fin 5) (x : Slot) : (k.setSlot i x).ptr = k.ptr := rfl
@[simp] theorem Core_setSlot_matching (k : Core) (i : Fin 5) (x : Slot) : (k.setSlot i x).matching = k.matching := rfl
@[simp] theorem Core_setSlot_lastIssue (k : Core) (i : Fin 5) (x : Slot) : (k.setSlot i x).lastIssue = k.lastIssue := rfl
@[simp] theorem Core_setSlot_dir (k : Core) (i : Fin 5) (x : Slot) : (k.setSlot i x).dir = k.dir := rfl
@[simp] theorem Core_setSlot_locks (k : Core) (i : Fin 5) (x : Slot) : (k.setSlot i x).locks = k.locks := rfl
@[simp] theorem Core_setSlot_eng (k : Core) (i : Fin 5) (x : Slot) : (k.setSlot i x).eng = k.eng := rfl
@[simp] theorem Core_setSlot_ni (k : Core) (i : Fin 5) (x : Slot) : (k.setSlot i x).ni = k.ni := rfl
@[simp] theorem Core_setSlot_held (k : Core) (i : Fin 5) (x : Slot) : (k.setSlot i x).held = k.held := rfl
@[simp] theorem Core_setSlot_leaves (k : Core) (i : Fin 5) (x : Slot) : (k.setSlot i x).leaves = k.leaves := rfl
@[simp] theorem Core_setSlot_cenMap (k : Core) (i : Fin 5) (x : Slot) : (k.setSlot i x).cenMap = k.cenMap := rfl
@[simp] theorem Core_setSlot_cens (k : Core) (i : Fin 5) (x : Slot) : (k.setSlot i x).cens = k.cens := rfl
@[simp] theorem Core_setSlot_bars (k : Core) (i : Fin 5) (x : Slot) : (k.setSlot i x).bars = k.bars := rfl
@[simp] theorem Core_setSlot_offered (k : Core) (i : Fin 5) (x : Slot) : (k.setSlot i x).offered = k.offered := rfl
@[simp] theorem Core_setSlot_offers (k : Core) (i : Fin 5) (x : Slot) : (k.setSlot i x).offers = k.offers := rfl
@[simp] theorem Core_setSlot_exited (k : Core) (i : Fin 5) (x : Slot) : (k.setSlot i x).exited = k.exited := rfl
@[simp] theorem Core_setSlot_responded (k : Core) (i : Fin 5) (x : Slot) : (k.setSlot i x).responded = k.responded := rfl
@[simp] theorem Core_setSlot_solicited (k : Core) (i : Fin 5) (x : Slot) : (k.setSlot i x).solicited = k.solicited := rfl

/-! Core.modSlot -/

@[simp] theorem Core_modSlot_gang (k : Core) (i : Fin 5) (f : Slot → Slot) : (k.modSlot i f).gang = k.gang := rfl
@[simp] theorem Core_modSlot_cycle (k : Core) (i : Fin 5) (f : Slot → Slot) : (k.modSlot i f).cycle = k.cycle := rfl
@[simp] theorem Core_modSlot_tenant (k : Core) (i : Fin 5) (f : Slot → Slot) : (k.modSlot i f).tenant = k.tenant := rfl
@[simp] theorem Core_modSlot_asid (k : Core) (i : Fin 5) (f : Slot → Slot) : (k.modSlot i f).asid = k.asid := rfl
@[simp] theorem Core_modSlot_page (k : Core) (i : Fin 5) (f : Slot → Slot) : (k.modSlot i f).page = k.page := rfl
@[simp] theorem Core_modSlot_ls (k : Core) (i : Fin 5) (f : Slot → Slot) : (k.modSlot i f).ls = k.ls := rfl
@[simp] theorem Core_modSlot_lsHdr (k : Core) (i : Fin 5) (f : Slot → Slot) : (k.modSlot i f).lsHdr = k.lsHdr := rfl
@[simp] theorem Core_modSlot_acc (k : Core) (i : Fin 5) (f : Slot → Slot) : (k.modSlot i f).acc = k.acc := rfl
@[simp] theorem Core_modSlot_accHdr (k : Core) (i : Fin 5) (f : Slot → Slot) : (k.modSlot i f).accHdr = k.accHdr := rfl
@[simp] theorem Core_modSlot_accBase (k : Core) (i : Fin 5) (f : Slot → Slot) : (k.modSlot i f).accBase = k.accBase := rfl
@[simp] theorem Core_modSlot_ctl (k : Core) (i : Fin 5) (f : Slot → Slot) : (k.modSlot i f).ctl = k.ctl := rfl
@[simp] theorem Core_modSlot_windows (k : Core) (i : Fin 5) (f : Slot → Slot) : (k.modSlot i f).windows = k.windows := rfl
@[simp] theorem Core_modSlot_chans (k : Core) (i : Fin 5) (f : Slot → Slot) : (k.modSlot i f).chans = k.chans := rfl
@[simp] theorem Core_modSlot_pats (k : Core) (i : Fin 5) (f : Slot → Slot) : (k.modSlot i f).pats = k.pats := rfl
@[simp] theorem Core_modSlot_ptr (k : Core) (i : Fin 5) (f : Slot → Slot) : (k.modSlot i f).ptr = k.ptr := rfl
@[simp] theorem Core_modSlot_matching (k : Core) (i : Fin 5) (f : Slot → Slot) : (k.modSlot i f).matching = k.matching := rfl
@[simp] theorem Core_modSlot_lastIssue (k : Core) (i : Fin 5) (f : Slot → Slot) : (k.modSlot i f).lastIssue = k.lastIssue := rfl
@[simp] theorem Core_modSlot_dir (k : Core) (i : Fin 5) (f : Slot → Slot) : (k.modSlot i f).dir = k.dir := rfl
@[simp] theorem Core_modSlot_locks (k : Core) (i : Fin 5) (f : Slot → Slot) : (k.modSlot i f).locks = k.locks := rfl
@[simp] theorem Core_modSlot_eng (k : Core) (i : Fin 5) (f : Slot → Slot) : (k.modSlot i f).eng = k.eng := rfl
@[simp] theorem Core_modSlot_ni (k : Core) (i : Fin 5) (f : Slot → Slot) : (k.modSlot i f).ni = k.ni := rfl
@[simp] theorem Core_modSlot_held (k : Core) (i : Fin 5) (f : Slot → Slot) : (k.modSlot i f).held = k.held := rfl
@[simp] theorem Core_modSlot_leaves (k : Core) (i : Fin 5) (f : Slot → Slot) : (k.modSlot i f).leaves = k.leaves := rfl
@[simp] theorem Core_modSlot_cenMap (k : Core) (i : Fin 5) (f : Slot → Slot) : (k.modSlot i f).cenMap = k.cenMap := rfl
@[simp] theorem Core_modSlot_cens (k : Core) (i : Fin 5) (f : Slot → Slot) : (k.modSlot i f).cens = k.cens := rfl
@[simp] theorem Core_modSlot_bars (k : Core) (i : Fin 5) (f : Slot → Slot) : (k.modSlot i f).bars = k.bars := rfl
@[simp] theorem Core_modSlot_offered (k : Core) (i : Fin 5) (f : Slot → Slot) : (k.modSlot i f).offered = k.offered := rfl
@[simp] theorem Core_modSlot_offers (k : Core) (i : Fin 5) (f : Slot → Slot) : (k.modSlot i f).offers = k.offers := rfl
@[simp] theorem Core_modSlot_exited (k : Core) (i : Fin 5) (f : Slot → Slot) : (k.modSlot i f).exited = k.exited := rfl
@[simp] theorem Core_modSlot_responded (k : Core) (i : Fin 5) (f : Slot → Slot) : (k.modSlot i f).responded = k.responded := rfl
@[simp] theorem Core_modSlot_solicited (k : Core) (i : Fin 5) (f : Slot → Slot) : (k.modSlot i f).solicited = k.solicited := rfl

/-! Core.modNi -/

@[simp] theorem Core_modNi_gang (k : Core) (f : Ni → Ni) : (k.modNi f).gang = k.gang := rfl
@[simp] theorem Core_modNi_cycle (k : Core) (f : Ni → Ni) : (k.modNi f).cycle = k.cycle := rfl
@[simp] theorem Core_modNi_tenant (k : Core) (f : Ni → Ni) : (k.modNi f).tenant = k.tenant := rfl
@[simp] theorem Core_modNi_asid (k : Core) (f : Ni → Ni) : (k.modNi f).asid = k.asid := rfl
@[simp] theorem Core_modNi_page (k : Core) (f : Ni → Ni) : (k.modNi f).page = k.page := rfl
@[simp] theorem Core_modNi_slots (k : Core) (f : Ni → Ni) : (k.modNi f).slots = k.slots := rfl
@[simp] theorem Core_modNi_ls (k : Core) (f : Ni → Ni) : (k.modNi f).ls = k.ls := rfl
@[simp] theorem Core_modNi_lsHdr (k : Core) (f : Ni → Ni) : (k.modNi f).lsHdr = k.lsHdr := rfl
@[simp] theorem Core_modNi_acc (k : Core) (f : Ni → Ni) : (k.modNi f).acc = k.acc := rfl
@[simp] theorem Core_modNi_accHdr (k : Core) (f : Ni → Ni) : (k.modNi f).accHdr = k.accHdr := rfl
@[simp] theorem Core_modNi_accBase (k : Core) (f : Ni → Ni) : (k.modNi f).accBase = k.accBase := rfl
@[simp] theorem Core_modNi_ctl (k : Core) (f : Ni → Ni) : (k.modNi f).ctl = k.ctl := rfl
@[simp] theorem Core_modNi_windows (k : Core) (f : Ni → Ni) : (k.modNi f).windows = k.windows := rfl
@[simp] theorem Core_modNi_chans (k : Core) (f : Ni → Ni) : (k.modNi f).chans = k.chans := rfl
@[simp] theorem Core_modNi_pats (k : Core) (f : Ni → Ni) : (k.modNi f).pats = k.pats := rfl
@[simp] theorem Core_modNi_ptr (k : Core) (f : Ni → Ni) : (k.modNi f).ptr = k.ptr := rfl
@[simp] theorem Core_modNi_matching (k : Core) (f : Ni → Ni) : (k.modNi f).matching = k.matching := rfl
@[simp] theorem Core_modNi_lastIssue (k : Core) (f : Ni → Ni) : (k.modNi f).lastIssue = k.lastIssue := rfl
@[simp] theorem Core_modNi_dir (k : Core) (f : Ni → Ni) : (k.modNi f).dir = k.dir := rfl
@[simp] theorem Core_modNi_locks (k : Core) (f : Ni → Ni) : (k.modNi f).locks = k.locks := rfl
@[simp] theorem Core_modNi_eng (k : Core) (f : Ni → Ni) : (k.modNi f).eng = k.eng := rfl
@[simp] theorem Core_modNi_held (k : Core) (f : Ni → Ni) : (k.modNi f).held = k.held := rfl
@[simp] theorem Core_modNi_leaves (k : Core) (f : Ni → Ni) : (k.modNi f).leaves = k.leaves := rfl
@[simp] theorem Core_modNi_cenMap (k : Core) (f : Ni → Ni) : (k.modNi f).cenMap = k.cenMap := rfl
@[simp] theorem Core_modNi_cens (k : Core) (f : Ni → Ni) : (k.modNi f).cens = k.cens := rfl
@[simp] theorem Core_modNi_bars (k : Core) (f : Ni → Ni) : (k.modNi f).bars = k.bars := rfl
@[simp] theorem Core_modNi_offered (k : Core) (f : Ni → Ni) : (k.modNi f).offered = k.offered := rfl
@[simp] theorem Core_modNi_offers (k : Core) (f : Ni → Ni) : (k.modNi f).offers = k.offers := rfl
@[simp] theorem Core_modNi_exited (k : Core) (f : Ni → Ni) : (k.modNi f).exited = k.exited := rfl
@[simp] theorem Core_modNi_responded (k : Core) (f : Ni → Ni) : (k.modNi f).responded = k.responded := rfl
@[simp] theorem Core_modNi_solicited (k : Core) (f : Ni → Ni) : (k.modNi f).solicited = k.solicited := rfl

/-! Core.writeLs -/

@[simp] theorem Core_writeLs_gang (k : Core) (o : Nat) (bs : List Byte) : (k.writeLs o bs).gang = k.gang := rfl
@[simp] theorem Core_writeLs_cycle (k : Core) (o : Nat) (bs : List Byte) : (k.writeLs o bs).cycle = k.cycle := rfl
@[simp] theorem Core_writeLs_tenant (k : Core) (o : Nat) (bs : List Byte) : (k.writeLs o bs).tenant = k.tenant := rfl
@[simp] theorem Core_writeLs_asid (k : Core) (o : Nat) (bs : List Byte) : (k.writeLs o bs).asid = k.asid := rfl
@[simp] theorem Core_writeLs_page (k : Core) (o : Nat) (bs : List Byte) : (k.writeLs o bs).page = k.page := rfl
@[simp] theorem Core_writeLs_slots (k : Core) (o : Nat) (bs : List Byte) : (k.writeLs o bs).slots = k.slots := rfl
@[simp] theorem Core_writeLs_lsHdr (k : Core) (o : Nat) (bs : List Byte) : (k.writeLs o bs).lsHdr = k.lsHdr := rfl
@[simp] theorem Core_writeLs_acc (k : Core) (o : Nat) (bs : List Byte) : (k.writeLs o bs).acc = k.acc := rfl
@[simp] theorem Core_writeLs_accHdr (k : Core) (o : Nat) (bs : List Byte) : (k.writeLs o bs).accHdr = k.accHdr := rfl
@[simp] theorem Core_writeLs_accBase (k : Core) (o : Nat) (bs : List Byte) : (k.writeLs o bs).accBase = k.accBase := rfl
@[simp] theorem Core_writeLs_ctl (k : Core) (o : Nat) (bs : List Byte) : (k.writeLs o bs).ctl = k.ctl := rfl
@[simp] theorem Core_writeLs_windows (k : Core) (o : Nat) (bs : List Byte) : (k.writeLs o bs).windows = k.windows := rfl
@[simp] theorem Core_writeLs_chans (k : Core) (o : Nat) (bs : List Byte) : (k.writeLs o bs).chans = k.chans := rfl
@[simp] theorem Core_writeLs_pats (k : Core) (o : Nat) (bs : List Byte) : (k.writeLs o bs).pats = k.pats := rfl
@[simp] theorem Core_writeLs_ptr (k : Core) (o : Nat) (bs : List Byte) : (k.writeLs o bs).ptr = k.ptr := rfl
@[simp] theorem Core_writeLs_matching (k : Core) (o : Nat) (bs : List Byte) : (k.writeLs o bs).matching = k.matching := rfl
@[simp] theorem Core_writeLs_lastIssue (k : Core) (o : Nat) (bs : List Byte) : (k.writeLs o bs).lastIssue = k.lastIssue := rfl
@[simp] theorem Core_writeLs_dir (k : Core) (o : Nat) (bs : List Byte) : (k.writeLs o bs).dir = k.dir := rfl
@[simp] theorem Core_writeLs_locks (k : Core) (o : Nat) (bs : List Byte) : (k.writeLs o bs).locks = k.locks := rfl
@[simp] theorem Core_writeLs_eng (k : Core) (o : Nat) (bs : List Byte) : (k.writeLs o bs).eng = k.eng := rfl
@[simp] theorem Core_writeLs_ni (k : Core) (o : Nat) (bs : List Byte) : (k.writeLs o bs).ni = k.ni := rfl
@[simp] theorem Core_writeLs_held (k : Core) (o : Nat) (bs : List Byte) : (k.writeLs o bs).held = k.held := rfl
@[simp] theorem Core_writeLs_leaves (k : Core) (o : Nat) (bs : List Byte) : (k.writeLs o bs).leaves = k.leaves := rfl
@[simp] theorem Core_writeLs_cenMap (k : Core) (o : Nat) (bs : List Byte) : (k.writeLs o bs).cenMap = k.cenMap := rfl
@[simp] theorem Core_writeLs_cens (k : Core) (o : Nat) (bs : List Byte) : (k.writeLs o bs).cens = k.cens := rfl
@[simp] theorem Core_writeLs_bars (k : Core) (o : Nat) (bs : List Byte) : (k.writeLs o bs).bars = k.bars := rfl
@[simp] theorem Core_writeLs_offered (k : Core) (o : Nat) (bs : List Byte) : (k.writeLs o bs).offered = k.offered := rfl
@[simp] theorem Core_writeLs_offers (k : Core) (o : Nat) (bs : List Byte) : (k.writeLs o bs).offers = k.offers := rfl
@[simp] theorem Core_writeLs_exited (k : Core) (o : Nat) (bs : List Byte) : (k.writeLs o bs).exited = k.exited := rfl
@[simp] theorem Core_writeLs_responded (k : Core) (o : Nat) (bs : List Byte) : (k.writeLs o bs).responded = k.responded := rfl
@[simp] theorem Core_writeLs_solicited (k : Core) (o : Nat) (bs : List Byte) : (k.writeLs o bs).solicited = k.solicited := rfl

/-! Core.setLsHdr -/

@[simp] theorem Core_setLsHdr_gang (k : Core) (o : Nat) (h : Header) : (k.setLsHdr o h).gang = k.gang := rfl
@[simp] theorem Core_setLsHdr_cycle (k : Core) (o : Nat) (h : Header) : (k.setLsHdr o h).cycle = k.cycle := rfl
@[simp] theorem Core_setLsHdr_tenant (k : Core) (o : Nat) (h : Header) : (k.setLsHdr o h).tenant = k.tenant := rfl
@[simp] theorem Core_setLsHdr_asid (k : Core) (o : Nat) (h : Header) : (k.setLsHdr o h).asid = k.asid := rfl
@[simp] theorem Core_setLsHdr_page (k : Core) (o : Nat) (h : Header) : (k.setLsHdr o h).page = k.page := rfl
@[simp] theorem Core_setLsHdr_slots (k : Core) (o : Nat) (h : Header) : (k.setLsHdr o h).slots = k.slots := rfl
@[simp] theorem Core_setLsHdr_ls (k : Core) (o : Nat) (h : Header) : (k.setLsHdr o h).ls = k.ls := rfl
@[simp] theorem Core_setLsHdr_acc (k : Core) (o : Nat) (h : Header) : (k.setLsHdr o h).acc = k.acc := rfl
@[simp] theorem Core_setLsHdr_accHdr (k : Core) (o : Nat) (h : Header) : (k.setLsHdr o h).accHdr = k.accHdr := rfl
@[simp] theorem Core_setLsHdr_accBase (k : Core) (o : Nat) (h : Header) : (k.setLsHdr o h).accBase = k.accBase := rfl
@[simp] theorem Core_setLsHdr_ctl (k : Core) (o : Nat) (h : Header) : (k.setLsHdr o h).ctl = k.ctl := rfl
@[simp] theorem Core_setLsHdr_windows (k : Core) (o : Nat) (h : Header) : (k.setLsHdr o h).windows = k.windows := rfl
@[simp] theorem Core_setLsHdr_chans (k : Core) (o : Nat) (h : Header) : (k.setLsHdr o h).chans = k.chans := rfl
@[simp] theorem Core_setLsHdr_pats (k : Core) (o : Nat) (h : Header) : (k.setLsHdr o h).pats = k.pats := rfl
@[simp] theorem Core_setLsHdr_ptr (k : Core) (o : Nat) (h : Header) : (k.setLsHdr o h).ptr = k.ptr := rfl
@[simp] theorem Core_setLsHdr_matching (k : Core) (o : Nat) (h : Header) : (k.setLsHdr o h).matching = k.matching := rfl
@[simp] theorem Core_setLsHdr_lastIssue (k : Core) (o : Nat) (h : Header) : (k.setLsHdr o h).lastIssue = k.lastIssue := rfl
@[simp] theorem Core_setLsHdr_dir (k : Core) (o : Nat) (h : Header) : (k.setLsHdr o h).dir = k.dir := rfl
@[simp] theorem Core_setLsHdr_locks (k : Core) (o : Nat) (h : Header) : (k.setLsHdr o h).locks = k.locks := rfl
@[simp] theorem Core_setLsHdr_eng (k : Core) (o : Nat) (h : Header) : (k.setLsHdr o h).eng = k.eng := rfl
@[simp] theorem Core_setLsHdr_ni (k : Core) (o : Nat) (h : Header) : (k.setLsHdr o h).ni = k.ni := rfl
@[simp] theorem Core_setLsHdr_held (k : Core) (o : Nat) (h : Header) : (k.setLsHdr o h).held = k.held := rfl
@[simp] theorem Core_setLsHdr_leaves (k : Core) (o : Nat) (h : Header) : (k.setLsHdr o h).leaves = k.leaves := rfl
@[simp] theorem Core_setLsHdr_cenMap (k : Core) (o : Nat) (h : Header) : (k.setLsHdr o h).cenMap = k.cenMap := rfl
@[simp] theorem Core_setLsHdr_cens (k : Core) (o : Nat) (h : Header) : (k.setLsHdr o h).cens = k.cens := rfl
@[simp] theorem Core_setLsHdr_bars (k : Core) (o : Nat) (h : Header) : (k.setLsHdr o h).bars = k.bars := rfl
@[simp] theorem Core_setLsHdr_offered (k : Core) (o : Nat) (h : Header) : (k.setLsHdr o h).offered = k.offered := rfl
@[simp] theorem Core_setLsHdr_offers (k : Core) (o : Nat) (h : Header) : (k.setLsHdr o h).offers = k.offers := rfl
@[simp] theorem Core_setLsHdr_exited (k : Core) (o : Nat) (h : Header) : (k.setLsHdr o h).exited = k.exited := rfl
@[simp] theorem Core_setLsHdr_responded (k : Core) (o : Nat) (h : Header) : (k.setLsHdr o h).responded = k.responded := rfl
@[simp] theorem Core_setLsHdr_solicited (k : Core) (o : Nat) (h : Header) : (k.setLsHdr o h).solicited = k.solicited := rfl

/-! Core.setChan -/

@[simp] theorem Core_setChan_gang (k : Core) (n : Nat) (x : Channel) : (k.setChan n x).gang = k.gang := rfl
@[simp] theorem Core_setChan_cycle (k : Core) (n : Nat) (x : Channel) : (k.setChan n x).cycle = k.cycle := rfl
@[simp] theorem Core_setChan_tenant (k : Core) (n : Nat) (x : Channel) : (k.setChan n x).tenant = k.tenant := rfl
@[simp] theorem Core_setChan_asid (k : Core) (n : Nat) (x : Channel) : (k.setChan n x).asid = k.asid := rfl
@[simp] theorem Core_setChan_page (k : Core) (n : Nat) (x : Channel) : (k.setChan n x).page = k.page := rfl
@[simp] theorem Core_setChan_slots (k : Core) (n : Nat) (x : Channel) : (k.setChan n x).slots = k.slots := rfl
@[simp] theorem Core_setChan_ls (k : Core) (n : Nat) (x : Channel) : (k.setChan n x).ls = k.ls := rfl
@[simp] theorem Core_setChan_lsHdr (k : Core) (n : Nat) (x : Channel) : (k.setChan n x).lsHdr = k.lsHdr := rfl
@[simp] theorem Core_setChan_acc (k : Core) (n : Nat) (x : Channel) : (k.setChan n x).acc = k.acc := rfl
@[simp] theorem Core_setChan_accHdr (k : Core) (n : Nat) (x : Channel) : (k.setChan n x).accHdr = k.accHdr := rfl
@[simp] theorem Core_setChan_accBase (k : Core) (n : Nat) (x : Channel) : (k.setChan n x).accBase = k.accBase := rfl
@[simp] theorem Core_setChan_ctl (k : Core) (n : Nat) (x : Channel) : (k.setChan n x).ctl = k.ctl := rfl
@[simp] theorem Core_setChan_windows (k : Core) (n : Nat) (x : Channel) : (k.setChan n x).windows = k.windows := rfl
@[simp] theorem Core_setChan_pats (k : Core) (n : Nat) (x : Channel) : (k.setChan n x).pats = k.pats := rfl
@[simp] theorem Core_setChan_ptr (k : Core) (n : Nat) (x : Channel) : (k.setChan n x).ptr = k.ptr := rfl
@[simp] theorem Core_setChan_matching (k : Core) (n : Nat) (x : Channel) : (k.setChan n x).matching = k.matching := rfl
@[simp] theorem Core_setChan_lastIssue (k : Core) (n : Nat) (x : Channel) : (k.setChan n x).lastIssue = k.lastIssue := rfl
@[simp] theorem Core_setChan_dir (k : Core) (n : Nat) (x : Channel) : (k.setChan n x).dir = k.dir := rfl
@[simp] theorem Core_setChan_locks (k : Core) (n : Nat) (x : Channel) : (k.setChan n x).locks = k.locks := rfl
@[simp] theorem Core_setChan_eng (k : Core) (n : Nat) (x : Channel) : (k.setChan n x).eng = k.eng := rfl
@[simp] theorem Core_setChan_ni (k : Core) (n : Nat) (x : Channel) : (k.setChan n x).ni = k.ni := rfl
@[simp] theorem Core_setChan_held (k : Core) (n : Nat) (x : Channel) : (k.setChan n x).held = k.held := rfl
@[simp] theorem Core_setChan_leaves (k : Core) (n : Nat) (x : Channel) : (k.setChan n x).leaves = k.leaves := rfl
@[simp] theorem Core_setChan_cenMap (k : Core) (n : Nat) (x : Channel) : (k.setChan n x).cenMap = k.cenMap := rfl
@[simp] theorem Core_setChan_cens (k : Core) (n : Nat) (x : Channel) : (k.setChan n x).cens = k.cens := rfl
@[simp] theorem Core_setChan_bars (k : Core) (n : Nat) (x : Channel) : (k.setChan n x).bars = k.bars := rfl
@[simp] theorem Core_setChan_offered (k : Core) (n : Nat) (x : Channel) : (k.setChan n x).offered = k.offered := rfl
@[simp] theorem Core_setChan_offers (k : Core) (n : Nat) (x : Channel) : (k.setChan n x).offers = k.offers := rfl
@[simp] theorem Core_setChan_exited (k : Core) (n : Nat) (x : Channel) : (k.setChan n x).exited = k.exited := rfl
@[simp] theorem Core_setChan_responded (k : Core) (n : Nat) (x : Channel) : (k.setChan n x).responded = k.responded := rfl
@[simp] theorem Core_setChan_solicited (k : Core) (n : Nat) (x : Channel) : (k.setChan n x).solicited = k.solicited := rfl

/-! Core.setPat -/

@[simp] theorem Core_setPat_gang (k : Core) (n : Nat) (p : BitVec 256) : (k.setPat n p).gang = k.gang := rfl
@[simp] theorem Core_setPat_cycle (k : Core) (n : Nat) (p : BitVec 256) : (k.setPat n p).cycle = k.cycle := rfl
@[simp] theorem Core_setPat_tenant (k : Core) (n : Nat) (p : BitVec 256) : (k.setPat n p).tenant = k.tenant := rfl
@[simp] theorem Core_setPat_asid (k : Core) (n : Nat) (p : BitVec 256) : (k.setPat n p).asid = k.asid := rfl
@[simp] theorem Core_setPat_page (k : Core) (n : Nat) (p : BitVec 256) : (k.setPat n p).page = k.page := rfl
@[simp] theorem Core_setPat_slots (k : Core) (n : Nat) (p : BitVec 256) : (k.setPat n p).slots = k.slots := rfl
@[simp] theorem Core_setPat_ls (k : Core) (n : Nat) (p : BitVec 256) : (k.setPat n p).ls = k.ls := rfl
@[simp] theorem Core_setPat_lsHdr (k : Core) (n : Nat) (p : BitVec 256) : (k.setPat n p).lsHdr = k.lsHdr := rfl
@[simp] theorem Core_setPat_acc (k : Core) (n : Nat) (p : BitVec 256) : (k.setPat n p).acc = k.acc := rfl
@[simp] theorem Core_setPat_accHdr (k : Core) (n : Nat) (p : BitVec 256) : (k.setPat n p).accHdr = k.accHdr := rfl
@[simp] theorem Core_setPat_accBase (k : Core) (n : Nat) (p : BitVec 256) : (k.setPat n p).accBase = k.accBase := rfl
@[simp] theorem Core_setPat_ctl (k : Core) (n : Nat) (p : BitVec 256) : (k.setPat n p).ctl = k.ctl := rfl
@[simp] theorem Core_setPat_windows (k : Core) (n : Nat) (p : BitVec 256) : (k.setPat n p).windows = k.windows := rfl
@[simp] theorem Core_setPat_chans (k : Core) (n : Nat) (p : BitVec 256) : (k.setPat n p).chans = k.chans := rfl
@[simp] theorem Core_setPat_ptr (k : Core) (n : Nat) (p : BitVec 256) : (k.setPat n p).ptr = k.ptr := rfl
@[simp] theorem Core_setPat_matching (k : Core) (n : Nat) (p : BitVec 256) : (k.setPat n p).matching = k.matching := rfl
@[simp] theorem Core_setPat_lastIssue (k : Core) (n : Nat) (p : BitVec 256) : (k.setPat n p).lastIssue = k.lastIssue := rfl
@[simp] theorem Core_setPat_dir (k : Core) (n : Nat) (p : BitVec 256) : (k.setPat n p).dir = k.dir := rfl
@[simp] theorem Core_setPat_locks (k : Core) (n : Nat) (p : BitVec 256) : (k.setPat n p).locks = k.locks := rfl
@[simp] theorem Core_setPat_eng (k : Core) (n : Nat) (p : BitVec 256) : (k.setPat n p).eng = k.eng := rfl
@[simp] theorem Core_setPat_ni (k : Core) (n : Nat) (p : BitVec 256) : (k.setPat n p).ni = k.ni := rfl
@[simp] theorem Core_setPat_held (k : Core) (n : Nat) (p : BitVec 256) : (k.setPat n p).held = k.held := rfl
@[simp] theorem Core_setPat_leaves (k : Core) (n : Nat) (p : BitVec 256) : (k.setPat n p).leaves = k.leaves := rfl
@[simp] theorem Core_setPat_cenMap (k : Core) (n : Nat) (p : BitVec 256) : (k.setPat n p).cenMap = k.cenMap := rfl
@[simp] theorem Core_setPat_cens (k : Core) (n : Nat) (p : BitVec 256) : (k.setPat n p).cens = k.cens := rfl
@[simp] theorem Core_setPat_bars (k : Core) (n : Nat) (p : BitVec 256) : (k.setPat n p).bars = k.bars := rfl
@[simp] theorem Core_setPat_offered (k : Core) (n : Nat) (p : BitVec 256) : (k.setPat n p).offered = k.offered := rfl
@[simp] theorem Core_setPat_offers (k : Core) (n : Nat) (p : BitVec 256) : (k.setPat n p).offers = k.offers := rfl
@[simp] theorem Core_setPat_exited (k : Core) (n : Nat) (p : BitVec 256) : (k.setPat n p).exited = k.exited := rfl
@[simp] theorem Core_setPat_responded (k : Core) (n : Nat) (p : BitVec 256) : (k.setPat n p).responded = k.responded := rfl
@[simp] theorem Core_setPat_solicited (k : Core) (n : Nat) (p : BitVec 256) : (k.setPat n p).solicited = k.solicited := rfl

/-! Core.setEntry -/

@[simp] theorem Core_setEntry_gang (k : Core) (n : Nat) (x : Entry) : (k.setEntry n x).gang = k.gang := rfl
@[simp] theorem Core_setEntry_cycle (k : Core) (n : Nat) (x : Entry) : (k.setEntry n x).cycle = k.cycle := rfl
@[simp] theorem Core_setEntry_tenant (k : Core) (n : Nat) (x : Entry) : (k.setEntry n x).tenant = k.tenant := rfl
@[simp] theorem Core_setEntry_asid (k : Core) (n : Nat) (x : Entry) : (k.setEntry n x).asid = k.asid := rfl
@[simp] theorem Core_setEntry_page (k : Core) (n : Nat) (x : Entry) : (k.setEntry n x).page = k.page := rfl
@[simp] theorem Core_setEntry_slots (k : Core) (n : Nat) (x : Entry) : (k.setEntry n x).slots = k.slots := rfl
@[simp] theorem Core_setEntry_ls (k : Core) (n : Nat) (x : Entry) : (k.setEntry n x).ls = k.ls := rfl
@[simp] theorem Core_setEntry_lsHdr (k : Core) (n : Nat) (x : Entry) : (k.setEntry n x).lsHdr = k.lsHdr := rfl
@[simp] theorem Core_setEntry_acc (k : Core) (n : Nat) (x : Entry) : (k.setEntry n x).acc = k.acc := rfl
@[simp] theorem Core_setEntry_accHdr (k : Core) (n : Nat) (x : Entry) : (k.setEntry n x).accHdr = k.accHdr := rfl
@[simp] theorem Core_setEntry_accBase (k : Core) (n : Nat) (x : Entry) : (k.setEntry n x).accBase = k.accBase := rfl
@[simp] theorem Core_setEntry_ctl (k : Core) (n : Nat) (x : Entry) : (k.setEntry n x).ctl = k.ctl := rfl
@[simp] theorem Core_setEntry_windows (k : Core) (n : Nat) (x : Entry) : (k.setEntry n x).windows = k.windows := rfl
@[simp] theorem Core_setEntry_chans (k : Core) (n : Nat) (x : Entry) : (k.setEntry n x).chans = k.chans := rfl
@[simp] theorem Core_setEntry_pats (k : Core) (n : Nat) (x : Entry) : (k.setEntry n x).pats = k.pats := rfl
@[simp] theorem Core_setEntry_ptr (k : Core) (n : Nat) (x : Entry) : (k.setEntry n x).ptr = k.ptr := rfl
@[simp] theorem Core_setEntry_matching (k : Core) (n : Nat) (x : Entry) : (k.setEntry n x).matching = k.matching := rfl
@[simp] theorem Core_setEntry_lastIssue (k : Core) (n : Nat) (x : Entry) : (k.setEntry n x).lastIssue = k.lastIssue := rfl
@[simp] theorem Core_setEntry_locks (k : Core) (n : Nat) (x : Entry) : (k.setEntry n x).locks = k.locks := rfl
@[simp] theorem Core_setEntry_eng (k : Core) (n : Nat) (x : Entry) : (k.setEntry n x).eng = k.eng := rfl
@[simp] theorem Core_setEntry_ni (k : Core) (n : Nat) (x : Entry) : (k.setEntry n x).ni = k.ni := rfl
@[simp] theorem Core_setEntry_held (k : Core) (n : Nat) (x : Entry) : (k.setEntry n x).held = k.held := rfl
@[simp] theorem Core_setEntry_leaves (k : Core) (n : Nat) (x : Entry) : (k.setEntry n x).leaves = k.leaves := rfl
@[simp] theorem Core_setEntry_cenMap (k : Core) (n : Nat) (x : Entry) : (k.setEntry n x).cenMap = k.cenMap := rfl
@[simp] theorem Core_setEntry_cens (k : Core) (n : Nat) (x : Entry) : (k.setEntry n x).cens = k.cens := rfl
@[simp] theorem Core_setEntry_bars (k : Core) (n : Nat) (x : Entry) : (k.setEntry n x).bars = k.bars := rfl
@[simp] theorem Core_setEntry_offered (k : Core) (n : Nat) (x : Entry) : (k.setEntry n x).offered = k.offered := rfl
@[simp] theorem Core_setEntry_offers (k : Core) (n : Nat) (x : Entry) : (k.setEntry n x).offers = k.offers := rfl
@[simp] theorem Core_setEntry_exited (k : Core) (n : Nat) (x : Entry) : (k.setEntry n x).exited = k.exited := rfl
@[simp] theorem Core_setEntry_responded (k : Core) (n : Nat) (x : Entry) : (k.setEntry n x).responded = k.responded := rfl
@[simp] theorem Core_setEntry_solicited (k : Core) (n : Nat) (x : Entry) : (k.setEntry n x).solicited = k.solicited := rfl

/-! Core.setLeaf -/

@[simp] theorem Core_setLeaf_gang (k : Core) (n : Nat) (x : Leaf) : (k.setLeaf n x).gang = k.gang := rfl
@[simp] theorem Core_setLeaf_cycle (k : Core) (n : Nat) (x : Leaf) : (k.setLeaf n x).cycle = k.cycle := rfl
@[simp] theorem Core_setLeaf_tenant (k : Core) (n : Nat) (x : Leaf) : (k.setLeaf n x).tenant = k.tenant := rfl
@[simp] theorem Core_setLeaf_asid (k : Core) (n : Nat) (x : Leaf) : (k.setLeaf n x).asid = k.asid := rfl
@[simp] theorem Core_setLeaf_page (k : Core) (n : Nat) (x : Leaf) : (k.setLeaf n x).page = k.page := rfl
@[simp] theorem Core_setLeaf_slots (k : Core) (n : Nat) (x : Leaf) : (k.setLeaf n x).slots = k.slots := rfl
@[simp] theorem Core_setLeaf_ls (k : Core) (n : Nat) (x : Leaf) : (k.setLeaf n x).ls = k.ls := rfl
@[simp] theorem Core_setLeaf_lsHdr (k : Core) (n : Nat) (x : Leaf) : (k.setLeaf n x).lsHdr = k.lsHdr := rfl
@[simp] theorem Core_setLeaf_acc (k : Core) (n : Nat) (x : Leaf) : (k.setLeaf n x).acc = k.acc := rfl
@[simp] theorem Core_setLeaf_accHdr (k : Core) (n : Nat) (x : Leaf) : (k.setLeaf n x).accHdr = k.accHdr := rfl
@[simp] theorem Core_setLeaf_accBase (k : Core) (n : Nat) (x : Leaf) : (k.setLeaf n x).accBase = k.accBase := rfl
@[simp] theorem Core_setLeaf_ctl (k : Core) (n : Nat) (x : Leaf) : (k.setLeaf n x).ctl = k.ctl := rfl
@[simp] theorem Core_setLeaf_windows (k : Core) (n : Nat) (x : Leaf) : (k.setLeaf n x).windows = k.windows := rfl
@[simp] theorem Core_setLeaf_chans (k : Core) (n : Nat) (x : Leaf) : (k.setLeaf n x).chans = k.chans := rfl
@[simp] theorem Core_setLeaf_pats (k : Core) (n : Nat) (x : Leaf) : (k.setLeaf n x).pats = k.pats := rfl
@[simp] theorem Core_setLeaf_ptr (k : Core) (n : Nat) (x : Leaf) : (k.setLeaf n x).ptr = k.ptr := rfl
@[simp] theorem Core_setLeaf_matching (k : Core) (n : Nat) (x : Leaf) : (k.setLeaf n x).matching = k.matching := rfl
@[simp] theorem Core_setLeaf_lastIssue (k : Core) (n : Nat) (x : Leaf) : (k.setLeaf n x).lastIssue = k.lastIssue := rfl
@[simp] theorem Core_setLeaf_dir (k : Core) (n : Nat) (x : Leaf) : (k.setLeaf n x).dir = k.dir := rfl
@[simp] theorem Core_setLeaf_locks (k : Core) (n : Nat) (x : Leaf) : (k.setLeaf n x).locks = k.locks := rfl
@[simp] theorem Core_setLeaf_eng (k : Core) (n : Nat) (x : Leaf) : (k.setLeaf n x).eng = k.eng := rfl
@[simp] theorem Core_setLeaf_ni (k : Core) (n : Nat) (x : Leaf) : (k.setLeaf n x).ni = k.ni := rfl
@[simp] theorem Core_setLeaf_held (k : Core) (n : Nat) (x : Leaf) : (k.setLeaf n x).held = k.held := rfl
@[simp] theorem Core_setLeaf_cenMap (k : Core) (n : Nat) (x : Leaf) : (k.setLeaf n x).cenMap = k.cenMap := rfl
@[simp] theorem Core_setLeaf_cens (k : Core) (n : Nat) (x : Leaf) : (k.setLeaf n x).cens = k.cens := rfl
@[simp] theorem Core_setLeaf_bars (k : Core) (n : Nat) (x : Leaf) : (k.setLeaf n x).bars = k.bars := rfl
@[simp] theorem Core_setLeaf_offered (k : Core) (n : Nat) (x : Leaf) : (k.setLeaf n x).offered = k.offered := rfl
@[simp] theorem Core_setLeaf_offers (k : Core) (n : Nat) (x : Leaf) : (k.setLeaf n x).offers = k.offers := rfl
@[simp] theorem Core_setLeaf_exited (k : Core) (n : Nat) (x : Leaf) : (k.setLeaf n x).exited = k.exited := rfl
@[simp] theorem Core_setLeaf_responded (k : Core) (n : Nat) (x : Leaf) : (k.setLeaf n x).responded = k.responded := rfl
@[simp] theorem Core_setLeaf_solicited (k : Core) (n : Nat) (x : Leaf) : (k.setLeaf n x).solicited = k.solicited := rfl

/-! Core.setCen -/

@[simp] theorem Core_setCen_gang (k : Core) (n : Nat) (x : CenSlot) : (k.setCen n x).gang = k.gang := rfl
@[simp] theorem Core_setCen_cycle (k : Core) (n : Nat) (x : CenSlot) : (k.setCen n x).cycle = k.cycle := rfl
@[simp] theorem Core_setCen_tenant (k : Core) (n : Nat) (x : CenSlot) : (k.setCen n x).tenant = k.tenant := rfl
@[simp] theorem Core_setCen_asid (k : Core) (n : Nat) (x : CenSlot) : (k.setCen n x).asid = k.asid := rfl
@[simp] theorem Core_setCen_page (k : Core) (n : Nat) (x : CenSlot) : (k.setCen n x).page = k.page := rfl
@[simp] theorem Core_setCen_slots (k : Core) (n : Nat) (x : CenSlot) : (k.setCen n x).slots = k.slots := rfl
@[simp] theorem Core_setCen_ls (k : Core) (n : Nat) (x : CenSlot) : (k.setCen n x).ls = k.ls := rfl
@[simp] theorem Core_setCen_lsHdr (k : Core) (n : Nat) (x : CenSlot) : (k.setCen n x).lsHdr = k.lsHdr := rfl
@[simp] theorem Core_setCen_acc (k : Core) (n : Nat) (x : CenSlot) : (k.setCen n x).acc = k.acc := rfl
@[simp] theorem Core_setCen_accHdr (k : Core) (n : Nat) (x : CenSlot) : (k.setCen n x).accHdr = k.accHdr := rfl
@[simp] theorem Core_setCen_accBase (k : Core) (n : Nat) (x : CenSlot) : (k.setCen n x).accBase = k.accBase := rfl
@[simp] theorem Core_setCen_ctl (k : Core) (n : Nat) (x : CenSlot) : (k.setCen n x).ctl = k.ctl := rfl
@[simp] theorem Core_setCen_windows (k : Core) (n : Nat) (x : CenSlot) : (k.setCen n x).windows = k.windows := rfl
@[simp] theorem Core_setCen_chans (k : Core) (n : Nat) (x : CenSlot) : (k.setCen n x).chans = k.chans := rfl
@[simp] theorem Core_setCen_pats (k : Core) (n : Nat) (x : CenSlot) : (k.setCen n x).pats = k.pats := rfl
@[simp] theorem Core_setCen_ptr (k : Core) (n : Nat) (x : CenSlot) : (k.setCen n x).ptr = k.ptr := rfl
@[simp] theorem Core_setCen_matching (k : Core) (n : Nat) (x : CenSlot) : (k.setCen n x).matching = k.matching := rfl
@[simp] theorem Core_setCen_lastIssue (k : Core) (n : Nat) (x : CenSlot) : (k.setCen n x).lastIssue = k.lastIssue := rfl
@[simp] theorem Core_setCen_dir (k : Core) (n : Nat) (x : CenSlot) : (k.setCen n x).dir = k.dir := rfl
@[simp] theorem Core_setCen_locks (k : Core) (n : Nat) (x : CenSlot) : (k.setCen n x).locks = k.locks := rfl
@[simp] theorem Core_setCen_eng (k : Core) (n : Nat) (x : CenSlot) : (k.setCen n x).eng = k.eng := rfl
@[simp] theorem Core_setCen_ni (k : Core) (n : Nat) (x : CenSlot) : (k.setCen n x).ni = k.ni := rfl
@[simp] theorem Core_setCen_held (k : Core) (n : Nat) (x : CenSlot) : (k.setCen n x).held = k.held := rfl
@[simp] theorem Core_setCen_leaves (k : Core) (n : Nat) (x : CenSlot) : (k.setCen n x).leaves = k.leaves := rfl
@[simp] theorem Core_setCen_cenMap (k : Core) (n : Nat) (x : CenSlot) : (k.setCen n x).cenMap = k.cenMap := rfl
@[simp] theorem Core_setCen_bars (k : Core) (n : Nat) (x : CenSlot) : (k.setCen n x).bars = k.bars := rfl
@[simp] theorem Core_setCen_offered (k : Core) (n : Nat) (x : CenSlot) : (k.setCen n x).offered = k.offered := rfl
@[simp] theorem Core_setCen_offers (k : Core) (n : Nat) (x : CenSlot) : (k.setCen n x).offers = k.offers := rfl
@[simp] theorem Core_setCen_exited (k : Core) (n : Nat) (x : CenSlot) : (k.setCen n x).exited = k.exited := rfl
@[simp] theorem Core_setCen_responded (k : Core) (n : Nat) (x : CenSlot) : (k.setCen n x).responded = k.responded := rfl
@[simp] theorem Core_setCen_solicited (k : Core) (n : Nat) (x : CenSlot) : (k.setCen n x).solicited = k.solicited := rfl

/-! Core.setBar -/

@[simp] theorem Core_setBar_gang (k : Core) (n : Nat) (x : Bar) : (k.setBar n x).gang = k.gang := rfl
@[simp] theorem Core_setBar_cycle (k : Core) (n : Nat) (x : Bar) : (k.setBar n x).cycle = k.cycle := rfl
@[simp] theorem Core_setBar_tenant (k : Core) (n : Nat) (x : Bar) : (k.setBar n x).tenant = k.tenant := rfl
@[simp] theorem Core_setBar_asid (k : Core) (n : Nat) (x : Bar) : (k.setBar n x).asid = k.asid := rfl
@[simp] theorem Core_setBar_page (k : Core) (n : Nat) (x : Bar) : (k.setBar n x).page = k.page := rfl
@[simp] theorem Core_setBar_slots (k : Core) (n : Nat) (x : Bar) : (k.setBar n x).slots = k.slots := rfl
@[simp] theorem Core_setBar_ls (k : Core) (n : Nat) (x : Bar) : (k.setBar n x).ls = k.ls := rfl
@[simp] theorem Core_setBar_lsHdr (k : Core) (n : Nat) (x : Bar) : (k.setBar n x).lsHdr = k.lsHdr := rfl
@[simp] theorem Core_setBar_acc (k : Core) (n : Nat) (x : Bar) : (k.setBar n x).acc = k.acc := rfl
@[simp] theorem Core_setBar_accHdr (k : Core) (n : Nat) (x : Bar) : (k.setBar n x).accHdr = k.accHdr := rfl
@[simp] theorem Core_setBar_accBase (k : Core) (n : Nat) (x : Bar) : (k.setBar n x).accBase = k.accBase := rfl
@[simp] theorem Core_setBar_ctl (k : Core) (n : Nat) (x : Bar) : (k.setBar n x).ctl = k.ctl := rfl
@[simp] theorem Core_setBar_windows (k : Core) (n : Nat) (x : Bar) : (k.setBar n x).windows = k.windows := rfl
@[simp] theorem Core_setBar_chans (k : Core) (n : Nat) (x : Bar) : (k.setBar n x).chans = k.chans := rfl
@[simp] theorem Core_setBar_pats (k : Core) (n : Nat) (x : Bar) : (k.setBar n x).pats = k.pats := rfl
@[simp] theorem Core_setBar_ptr (k : Core) (n : Nat) (x : Bar) : (k.setBar n x).ptr = k.ptr := rfl
@[simp] theorem Core_setBar_matching (k : Core) (n : Nat) (x : Bar) : (k.setBar n x).matching = k.matching := rfl
@[simp] theorem Core_setBar_lastIssue (k : Core) (n : Nat) (x : Bar) : (k.setBar n x).lastIssue = k.lastIssue := rfl
@[simp] theorem Core_setBar_dir (k : Core) (n : Nat) (x : Bar) : (k.setBar n x).dir = k.dir := rfl
@[simp] theorem Core_setBar_locks (k : Core) (n : Nat) (x : Bar) : (k.setBar n x).locks = k.locks := rfl
@[simp] theorem Core_setBar_eng (k : Core) (n : Nat) (x : Bar) : (k.setBar n x).eng = k.eng := rfl
@[simp] theorem Core_setBar_ni (k : Core) (n : Nat) (x : Bar) : (k.setBar n x).ni = k.ni := rfl
@[simp] theorem Core_setBar_held (k : Core) (n : Nat) (x : Bar) : (k.setBar n x).held = k.held := rfl
@[simp] theorem Core_setBar_leaves (k : Core) (n : Nat) (x : Bar) : (k.setBar n x).leaves = k.leaves := rfl
@[simp] theorem Core_setBar_cenMap (k : Core) (n : Nat) (x : Bar) : (k.setBar n x).cenMap = k.cenMap := rfl
@[simp] theorem Core_setBar_cens (k : Core) (n : Nat) (x : Bar) : (k.setBar n x).cens = k.cens := rfl
@[simp] theorem Core_setBar_offered (k : Core) (n : Nat) (x : Bar) : (k.setBar n x).offered = k.offered := rfl
@[simp] theorem Core_setBar_offers (k : Core) (n : Nat) (x : Bar) : (k.setBar n x).offers = k.offers := rfl
@[simp] theorem Core_setBar_exited (k : Core) (n : Nat) (x : Bar) : (k.setBar n x).exited = k.exited := rfl
@[simp] theorem Core_setBar_responded (k : Core) (n : Nat) (x : Bar) : (k.setBar n x).responded = k.responded := rfl
@[simp] theorem Core_setBar_solicited (k : Core) (n : Nat) (x : Bar) : (k.setBar n x).solicited = k.solicited := rfl

/-! Slot.setReg -/

@[simp] theorem Slot_setReg_state (x : Slot) (r : BitVec 5) (v : Dword) : (x.setReg r v).state = x.state := by unfold Slot.setReg; split <;> rfl
@[simp] theorem Slot_setReg_pc (x : Slot) (r : BitVec 5) (v : Dword) : (x.setReg r v).pc = x.pc := by unfold Slot.setReg; split <;> rfl
@[simp] theorem Slot_setReg_v (x : Slot) (r : BitVec 5) (v : Dword) : (x.setReg r v).v = x.v := by unfold Slot.setReg; split <;> rfl
@[simp] theorem Slot_setReg_m (x : Slot) (r : BitVec 5) (v : Dword) : (x.setReg r v).m = x.m := by unfold Slot.setReg; split <;> rfl
@[simp] theorem Slot_setReg_st (x : Slot) (r : BitVec 5) (v : Dword) : (x.setReg r v).st = x.st := by unfold Slot.setReg; split <;> rfl
@[simp] theorem Slot_setReg_prio (x : Slot) (r : BitVec 5) (v : Dword) : (x.setReg r v).prio = x.prio := by unfold Slot.setReg; split <;> rfl
@[simp] theorem Slot_setReg_intrap (x : Slot) (r : BitVec 5) (v : Dword) : (x.setReg r v).intrap = x.intrap := by unfold Slot.setReg; split <;> rfl
@[simp] theorem Slot_setReg_cause (x : Slot) (r : BitVec 5) (v : Dword) : (x.setReg r v).cause = x.cause := by unfold Slot.setReg; split <;> rfl
@[simp] theorem Slot_setReg_epc (x : Slot) (r : BitVec 5) (v : Dword) : (x.setReg r v).epc = x.epc := by unfold Slot.setReg; split <;> rfl
@[simp] theorem Slot_setReg_tval (x : Slot) (r : BitVec 5) (v : Dword) : (x.setReg r v).tval = x.tval := by unfold Slot.setReg; split <;> rfl
@[simp] theorem Slot_setReg_cdc (x : Slot) (r : BitVec 5) (v : Dword) : (x.setReg r v).cdc = x.cdc := by unfold Slot.setReg; split <;> rfl
@[simp] theorem Slot_setReg_rmode (x : Slot) (r : BitVec 5) (v : Dword) : (x.setReg r v).rmode = x.rmode := by unfold Slot.setReg; split <;> rfl
@[simp] theorem Slot_setReg_pendTraps (x : Slot) (r : BitVec 5) (v : Dword) : (x.setReg r v).pendTraps = x.pendTraps := by unfold Slot.setReg; split <;> rfl
@[simp] theorem Slot_setReg_aggf (x : Slot) (r : BitVec 5) (v : Dword) : (x.setReg r v).aggf = x.aggf := by unfold Slot.setReg; split <;> rfl
@[simp] theorem Slot_setReg_act (x : Slot) (r : BitVec 5) (v : Dword) : (x.setReg r v).act = x.act := by unfold Slot.setReg; split <;> rfl
@[simp] theorem Slot_setReg_lanes (x : Slot) (r : BitVec 5) (v : Dword) : (x.setReg r v).lanes = x.lanes := by unfold Slot.setReg; split <;> rfl
@[simp] theorem Slot_setReg_fetched (x : Slot) (r : BitVec 5) (v : Dword) : (x.setReg r v).fetched = x.fetched := by unfold Slot.setReg; split <;> rfl
@[simp] theorem Slot_setReg_acquire (x : Slot) (r : BitVec 5) (v : Dword) : (x.setReg r v).acquire = x.acquire := by unfold Slot.setReg; split <;> rfl
@[simp] theorem Slot_setReg_fencing (x : Slot) (r : BitVec 5) (v : Dword) : (x.setReg r v).fencing = x.fencing := by unfold Slot.setReg; split <;> rfl
@[simp] theorem Slot_setReg_cancelled (x : Slot) (r : BitVec 5) (v : Dword) : (x.setReg r v).cancelled = x.cancelled := by unfold Slot.setReg; split <;> rfl

/-! Slot.setVreg -/

@[simp] theorem Slot_setVreg_state (x : Slot) (r : BitVec 5) (v : VReg) : (x.setVreg r v).state = x.state := rfl
@[simp] theorem Slot_setVreg_pc (x : Slot) (r : BitVec 5) (v : VReg) : (x.setVreg r v).pc = x.pc := rfl
@[simp] theorem Slot_setVreg_g (x : Slot) (r : BitVec 5) (v : VReg) : (x.setVreg r v).g = x.g := rfl
@[simp] theorem Slot_setVreg_m (x : Slot) (r : BitVec 5) (v : VReg) : (x.setVreg r v).m = x.m := rfl
@[simp] theorem Slot_setVreg_st (x : Slot) (r : BitVec 5) (v : VReg) : (x.setVreg r v).st = x.st := rfl
@[simp] theorem Slot_setVreg_prio (x : Slot) (r : BitVec 5) (v : VReg) : (x.setVreg r v).prio = x.prio := rfl
@[simp] theorem Slot_setVreg_intrap (x : Slot) (r : BitVec 5) (v : VReg) : (x.setVreg r v).intrap = x.intrap := rfl
@[simp] theorem Slot_setVreg_cause (x : Slot) (r : BitVec 5) (v : VReg) : (x.setVreg r v).cause = x.cause := rfl
@[simp] theorem Slot_setVreg_epc (x : Slot) (r : BitVec 5) (v : VReg) : (x.setVreg r v).epc = x.epc := rfl
@[simp] theorem Slot_setVreg_tval (x : Slot) (r : BitVec 5) (v : VReg) : (x.setVreg r v).tval = x.tval := rfl
@[simp] theorem Slot_setVreg_cdc (x : Slot) (r : BitVec 5) (v : VReg) : (x.setVreg r v).cdc = x.cdc := rfl
@[simp] theorem Slot_setVreg_rmode (x : Slot) (r : BitVec 5) (v : VReg) : (x.setVreg r v).rmode = x.rmode := rfl
@[simp] theorem Slot_setVreg_pendTraps (x : Slot) (r : BitVec 5) (v : VReg) : (x.setVreg r v).pendTraps = x.pendTraps := rfl
@[simp] theorem Slot_setVreg_aggf (x : Slot) (r : BitVec 5) (v : VReg) : (x.setVreg r v).aggf = x.aggf := rfl
@[simp] theorem Slot_setVreg_act (x : Slot) (r : BitVec 5) (v : VReg) : (x.setVreg r v).act = x.act := rfl
@[simp] theorem Slot_setVreg_lanes (x : Slot) (r : BitVec 5) (v : VReg) : (x.setVreg r v).lanes = x.lanes := rfl
@[simp] theorem Slot_setVreg_fetched (x : Slot) (r : BitVec 5) (v : VReg) : (x.setVreg r v).fetched = x.fetched := rfl
@[simp] theorem Slot_setVreg_acquire (x : Slot) (r : BitVec 5) (v : VReg) : (x.setVreg r v).acquire = x.acquire := rfl
@[simp] theorem Slot_setVreg_fencing (x : Slot) (r : BitVec 5) (v : VReg) : (x.setVreg r v).fencing = x.fencing := rfl
@[simp] theorem Slot_setVreg_cancelled (x : Slot) (r : BitVec 5) (v : VReg) : (x.setVreg r v).cancelled = x.cancelled := rfl

/-! Slot.setMask -/

@[simp] theorem Slot_setMask_state (x : Slot) (r : BitVec 3) (v : Dword) : (x.setMask r v).state = x.state := by unfold Slot.setMask; split <;> rfl
@[simp] theorem Slot_setMask_pc (x : Slot) (r : BitVec 3) (v : Dword) : (x.setMask r v).pc = x.pc := by unfold Slot.setMask; split <;> rfl
@[simp] theorem Slot_setMask_g (x : Slot) (r : BitVec 3) (v : Dword) : (x.setMask r v).g = x.g := by unfold Slot.setMask; split <;> rfl
@[simp] theorem Slot_setMask_v (x : Slot) (r : BitVec 3) (v : Dword) : (x.setMask r v).v = x.v := by unfold Slot.setMask; split <;> rfl
@[simp] theorem Slot_setMask_st (x : Slot) (r : BitVec 3) (v : Dword) : (x.setMask r v).st = x.st := by unfold Slot.setMask; split <;> rfl
@[simp] theorem Slot_setMask_prio (x : Slot) (r : BitVec 3) (v : Dword) : (x.setMask r v).prio = x.prio := by unfold Slot.setMask; split <;> rfl
@[simp] theorem Slot_setMask_intrap (x : Slot) (r : BitVec 3) (v : Dword) : (x.setMask r v).intrap = x.intrap := by unfold Slot.setMask; split <;> rfl
@[simp] theorem Slot_setMask_cause (x : Slot) (r : BitVec 3) (v : Dword) : (x.setMask r v).cause = x.cause := by unfold Slot.setMask; split <;> rfl
@[simp] theorem Slot_setMask_epc (x : Slot) (r : BitVec 3) (v : Dword) : (x.setMask r v).epc = x.epc := by unfold Slot.setMask; split <;> rfl
@[simp] theorem Slot_setMask_tval (x : Slot) (r : BitVec 3) (v : Dword) : (x.setMask r v).tval = x.tval := by unfold Slot.setMask; split <;> rfl
@[simp] theorem Slot_setMask_cdc (x : Slot) (r : BitVec 3) (v : Dword) : (x.setMask r v).cdc = x.cdc := by unfold Slot.setMask; split <;> rfl
@[simp] theorem Slot_setMask_rmode (x : Slot) (r : BitVec 3) (v : Dword) : (x.setMask r v).rmode = x.rmode := by unfold Slot.setMask; split <;> rfl
@[simp] theorem Slot_setMask_pendTraps (x : Slot) (r : BitVec 3) (v : Dword) : (x.setMask r v).pendTraps = x.pendTraps := by unfold Slot.setMask; split <;> rfl
@[simp] theorem Slot_setMask_aggf (x : Slot) (r : BitVec 3) (v : Dword) : (x.setMask r v).aggf = x.aggf := by unfold Slot.setMask; split <;> rfl
@[simp] theorem Slot_setMask_act (x : Slot) (r : BitVec 3) (v : Dword) : (x.setMask r v).act = x.act := by unfold Slot.setMask; split <;> rfl
@[simp] theorem Slot_setMask_lanes (x : Slot) (r : BitVec 3) (v : Dword) : (x.setMask r v).lanes = x.lanes := by unfold Slot.setMask; split <;> rfl
@[simp] theorem Slot_setMask_fetched (x : Slot) (r : BitVec 3) (v : Dword) : (x.setMask r v).fetched = x.fetched := by unfold Slot.setMask; split <;> rfl
@[simp] theorem Slot_setMask_acquire (x : Slot) (r : BitVec 3) (v : Dword) : (x.setMask r v).acquire = x.acquire := by unfold Slot.setMask; split <;> rfl
@[simp] theorem Slot_setMask_fencing (x : Slot) (r : BitVec 3) (v : Dword) : (x.setMask r v).fencing = x.fencing := by unfold Slot.setMask; split <;> rfl
@[simp] theorem Slot_setMask_cancelled (x : Slot) (r : BitVec 3) (v : Dword) : (x.setMask r v).cancelled = x.cancelled := by unfold Slot.setMask; split <;> rfl

end Sys2Proof.Machine
end

