-- ==== Sys2Proof/Laws/Ops.lean ====
section
/-! SUPPORT. What the named operations over cores, slots and registers do, said once: reads after writes, other cores and slots
untouched, issuing, retiring, trapping and returning. -/

namespace Sys2Proof.Machine

/-! Cores -/

@[simp] theorem core_setCore_same (s : State) (c : Nat) (k : Core) : (s.setCore c k).core c = k := sget_sset_same s.cores c k

theorem core_setCore_other (s : State) {c b : Nat} (k : Core) (h : b ≠ c) : (s.setCore c k).core b = s.core b :=
  sget_sset_other s.cores k h

@[simp] theorem core_modCore_same (s : State) (c : Nat) (f : Core → Core) : (s.modCore c f).core c = f (s.core c) :=
  core_setCore_same s c _

theorem core_modCore_other (s : State) {c b : Nat} (f : Core → Core) (h : b ≠ c) : (s.modCore c f).core b = s.core b :=
  core_setCore_other s _ h

@[simp] theorem here_modHere (s : State) (f : Core → Core) : (s.modHere f).here = f s.here := core_modCore_same s s.issuer.1 f

/-! Slots -/

@[simp] theorem slot_setSlot_same (k : Core) (i : Fin 5) (x : Slot) : (k.setSlot i x).slot i = x := by
  simp [Core.setSlot, Core.slot]

theorem slot_setSlot_other (k : Core) {i j : Fin 5} (x : Slot) (h : j ≠ i) : (k.setSlot i x).slot j = k.slot j := by
  have h' : i.val ≠ j.val := fun e => h (Fin.ext e.symm)
  simp [Core.setSlot, Core.slot, Vector.getElem_set_ne, h']

@[simp] theorem slot_modSlot_same (k : Core) (i : Fin 5) (f : Slot → Slot) : (k.modSlot i f).slot i = f (k.slot i) :=
  slot_setSlot_same k i _

theorem slot_modSlot_other (k : Core) {i j : Fin 5} (f : Slot → Slot) (h : j ≠ i) : (k.modSlot i f).slot j = k.slot j :=
  slot_setSlot_other k _ h

@[simp] theorem here_modMe (s : State) (f : Slot → Slot) : (s.modMe f).here = s.here.modSlot s.issuer.2 f := here_modHere s _

@[simp] theorem me_modMe (s : State) (f : Slot → Slot) : (s.modMe f).me = f s.me := by
  show (s.modMe f).here.slot s.issuer.2 = f s.me
  rw [here_modMe, slot_modSlot_same]
  rfl

/-- Only the issuing slot of the issuing core is altered. -/
theorem core_modMe_other (s : State) (f : Slot → Slot) {c : Nat} (h : c ≠ s.issuer.1) : (s.modMe f).core c = s.core c :=
  core_modCore_other s _ h

/-! Registers -/

@[simp] theorem reg_zero (x : Slot) : x.reg 0 = 0 := rfl

@[simp] theorem mask_zero (x : Slot) : x.mask 0 = BitVec.allOnes 64 := rfl

/-- g0 stays zero; any other register takes the value written. -/
theorem reg_setReg (x : Slot) (d r : BitVec 5) (v : Dword) : (x.setReg d v).reg r = if r = d ∧ d ≠ 0 then v else x.reg r := by
  by_cases hd : d = 0
  · subst hd
    have h1 : ¬ (r = 0 ∧ (0 : BitVec 5) ≠ 0) := fun e => e.2 rfl
    rw [if_neg h1]
    rfl
  · have hs : x.setReg d v = { x with g := x.g.set (regNo d) v } := if_neg hd
    rw [hs]
    unfold Slot.reg
    by_cases hr : r = d
    · subst hr
      rw [if_neg hd, if_pos ⟨rfl, hd⟩]
      exact Vector.getElem_set_self (regNo r).isLt
    · have h1 : ¬ (r = d ∧ d ≠ 0) := fun e => hr e.1
      rw [if_neg h1]
      have : (regNo d).val ≠ (regNo r).val := fun e => hr (BitVec.eq_of_toNat_eq e.symm)
      have h2 : (x.g.set (regNo d) v)[regNo r] = x.g[regNo r] := Vector.getElem_set_ne (regNo d).isLt (regNo r).isLt this
      rw [← h2]

theorem vreg_setVreg (x : Slot) (d r : BitVec 5) (v : VReg) : (x.setVreg d v).vreg r = if r = d then v else x.vreg r := by
  unfold Slot.setVreg Slot.vreg
  by_cases hr : r = d
  · subst hr
    rw [if_pos rfl]
    exact Vector.getElem_set_self (regNo r).isLt
  · rw [if_neg hr]
    exact Vector.getElem_set_ne (regNo d).isLt (regNo r).isLt (fun e => hr (BitVec.eq_of_toNat_eq e.symm))

theorem mask_setMask (x : Slot) (d r : BitVec 3) (v : Dword) : (x.setMask d v).mask r = if r = d ∧ d ≠ 0 then v else x.mask r := by
  by_cases hd : d = 0
  · subst hd
    have h1 : ¬ (r = 0 ∧ (0 : BitVec 3) ≠ 0) := fun e => e.2 rfl
    rw [if_neg h1]
    rfl
  · have hs : x.setMask d v = { x with m := x.m.set (maskNo d) v } := if_neg hd
    rw [hs]
    unfold Slot.mask
    by_cases hr : r = d
    · subst hr
      rw [if_neg hd, if_pos ⟨rfl, hd⟩]
      exact Vector.getElem_set_self (maskNo r).isLt
    · have h1 : ¬ (r = d ∧ d ≠ 0) := fun e => hr e.1
      rw [if_neg h1]
      have : (maskNo d).val ≠ (maskNo r).val := fun e => hr (BitVec.eq_of_toNat_eq e.symm)
      have h2 : (x.m.set (maskNo d) v)[maskNo r] = x.m[maskNo r] := Vector.getElem_set_ne (maskNo d).isLt (maskNo r).isLt this
      rw [← h2]

@[simp] theorem reg_setVreg (x : Slot) (d r : BitVec 5) (v : VReg) : (x.setVreg d v).reg r = x.reg r := rfl
@[simp] theorem mask_setVreg (x : Slot) (d : BitVec 5) (r : BitVec 3) (v : VReg) : (x.setVreg d v).mask r = x.mask r := rfl
@[simp] theorem vreg_setReg (x : Slot) (d r : BitVec 5) (v : Dword) : (x.setReg d v).vreg r = x.vreg r := by
  simp [Slot.vreg]
@[simp] theorem mask_setReg (x : Slot) (d : BitVec 5) (r : BitVec 3) (v : Dword) : (x.setReg d v).mask r = x.mask r := by
  simp [Slot.mask]
@[simp] theorem reg_setMask (x : Slot) (d : BitVec 3) (r : BitVec 5) (v : Dword) : (x.setMask d v).reg r = x.reg r := by
  simp [Slot.reg]
@[simp] theorem vreg_setMask (x : Slot) (d : BitVec 3) (r : BitVec 5) (v : Dword) : (x.setMask d v).vreg r = x.vreg r := by
  simp [Slot.vreg]

/-! Issue and retire -/

/-- An instruction that waits for nothing takes its effect. -/
theorem issue_ready {i : Instr} {s : State} (f : State → State) (h : waitsAt i s = false) : issue i s f = .next (f s) := by
  simp [issue, h]

/-- An instruction that waits changes nothing. -/
theorem issue_waits {i : Instr} {s : State} (f : State → State) (h : waitsAt i s = true) : issue i s f = .next s := by
  simp [issue, h]

@[simp] theorem me_retire (s : State) (d : BitVec 5) (v : Dword) : (s.retire d v).me = { s.me.setReg d v with pc := s.me.pc + 4 } :=
  me_modMe s _

@[simp] theorem me_retireV (s : State) (d : BitVec 5) (v : VReg) : (s.retireV d v).me = { s.me.setVreg d v with pc := s.me.pc + 4 } :=
  me_modMe s _

@[simp] theorem me_retireM (s : State) (d : BitVec 3) (v : Dword) : (s.retireM d v).me = { s.me.setMask d v with pc := s.me.pc + 4 } :=
  me_modMe s _

@[simp] theorem me_advance (s : State) : s.advance.me = { s.me with pc := s.me.pc + 4 } := me_modMe s _

@[simp] theorem here_advance (s : State) : s.advance.here = s.here.modSlot s.issuer.2 (fun x => { x with pc := s.me.pc + 4 }) :=
  here_modMe s _

/-! Traps -/

/-- A trap that is taken saves the pc and goes to the vector; one that cannot be faults the gang. -/
theorem takeUserTrap_taken {s : State} {c : Nat} {i : Fin 5} (cause : Nat) (tval epc : Dword)
    (h1 : (s.core c).trapEntry ≠ 0) (h2 : ((s.core c).slot i).intrap = false) (h3 : i ≠ 4) :
    takeUserTrap s c i cause tval epc = (s.logFault c i.val cause).modSlot c i (fun x =>
      { x with cause := BitVec.ofNat 8 cause, tval := tval, epc := epc, intrap := true, pc := (s.core c).trapEntry, fencing := false }) := by
  unfold takeUserTrap enterTrap
  refine if_neg ?_
  rintro (h | h | h)
  · exact h1 h
  · exact absurd (h2.symm.trans h) Bool.false_ne_true
  · exact h3 h

theorem takeUserTrap_fatal {s : State} {c : Nat} {i : Fin 5} (cause : Nat) (tval epc : Dword)
    (h : (s.core c).trapEntry = 0 ∨ ((s.core c).slot i).intrap = true ∨ i = 4) :
    takeUserTrap s c i cause tval epc = gangFault s c i cause epc tval := by
  unfold takeUserTrap enterTrap
  exact if_pos h

/-! Canonical stores -/

/-- Writing a core keeps the cores in canonical form. -/
theorem swf_setCore {s : State} (h : swf Core.reset s.cores = true) (c : Nat) (k : Core) : swf Core.reset (s.setCore c k).cores = true :=
  swf_sset h c k

theorem wf_writeLs {k : Core} (h : k.ls.wf = true) (o : Nat) (bs : List Byte) : (k.writeLs o bs).ls.wf = true := wf_writeBytes h o bs

theorem reset_memory : State.reset.mem.bytes.wf = true := rfl

end Sys2Proof.Machine
end

