-- ==== Sys2Proof/Laws/PerInstr.lean ====
section
/-! SUPPORT. The family "Encoding": for each instruction, decode of encode is the identity (R26 to R33); for a step that no word
encodes there is nothing to say. -/

namespace Sys2Proof.Laws

/-- What is said of an instruction: a word that encodes it, where it is well formed, decodes to it. -/
def Encoding.Statement (i : Instr) : Prop := ∀ w, i.wellFormed = true → encode i = some w → decodeWord w = .ok i

/-- A field inside the low part of an appended word. -/
theorem field_low {v n : Nat} (x : BitVec v) (y : BitVec n) (lo len : Nat) (h : lo + len ≤ n) :
    (x ++ y).extractLsb' lo len = y.extractLsb' lo len := BitVec.extractLsb'_append_eq_of_add_le h

/-- A field inside the high part. -/
theorem field_high {v n : Nat} (x : BitVec v) (y : BitVec n) (lo len : Nat) (h : n ≤ lo) :
    (x ++ y).extractLsb' lo len = x.extractLsb' (lo - n) len := BitVec.extractLsb'_append_eq_of_le h

theorem and_ones {n : Nat} {x m : BitVec n} (h : m = BitVec.allOnes n) : x &&& m = x := by
  rw [h, BitVec.and_allOnes]

/-- Masking an appended word masks its parts. -/
theorem mask_append {v n : Nat} {x m r : BitVec v} {y k q : BitVec n} (h1 : x &&& m = r) (h2 : y &&& k = q) : (x ++ y) &&& (m ++ k) = r ++ q := by
  rw [BitVec.and_append, h1, h2]

/-- A word whose fixed bits are right is accepted. -/
theorem fixed {w mask pattern : BitVec 32} {i : Instr} (h : w &&& mask = pattern) : fixedBits w mask pattern i = .ok i := if_pos h

/-! Majors -/

theorem major_decodeAlu {w : BitVec 32} (h : w.extractLsb' 26 6 = 0x1#6) : decodeWord w = decodeAlu w := by
  unfold decodeWord; rw [h]; rfl

theorem major_decodeMulDiv {w : BitVec 32} (h : w.extractLsb' 26 6 = 0x2#6) : decodeWord w = decodeMulDiv w := by
  unfold decodeWord; rw [h]; rfl

theorem major_decodeShi {w : BitVec 32} (h : w.extractLsb' 26 6 = 0x9#6) : decodeWord w = decodeShi w := by
  unfold decodeWord; rw [h]; rfl

theorem major_decodeAtom {w : BitVec 32} (h : w.extractLsb' 26 6 = 0x23#6) : decodeWord w = decodeAtom w := by
  unfold decodeWord; rw [h]; rfl

theorem major_decodeHdr {w : BitVec 32} (h : w.extractLsb' 26 6 = 0x24#6) : decodeWord w = decodeHdr w := by
  unfold decodeWord; rw [h]; rfl

theorem major_decodeVarith {w : BitVec 32} (h : w.extractLsb' 26 6 = 0x28#6) : decodeWord w = decodeVarith w := by
  unfold decodeWord; rw [h]; rfl

theorem major_decodeVcmp {w : BitVec 32} (h : w.extractLsb' 26 6 = 0x29#6) : decodeWord w = decodeVcmp w := by
  unfold decodeWord; rw [h]; rfl

theorem major_decodeVmemx {w : BitVec 32} (h : w.extractLsb' 26 6 = 0x2C#6) : decodeWord w = decodeVmemx w := by
  unfold decodeWord; rw [h]; rfl

theorem major_decodeVconv {w : BitVec 32} (h : w.extractLsb' 26 6 = 0x2D#6) : decodeWord w = decodeVconv w := by
  unfold decodeWord; rw [h]; rfl

theorem major_decodeMsg {w : BitVec 32} (h : w.extractLsb' 26 6 = 0x30#6) : decodeWord w = decodeMsg w := by
  unfold decodeWord; rw [h]; rfl

theorem major_decodePat {w : BitVec 32} (h : w.extractLsb' 26 6 = 0x31#6) : decodeWord w = decodePat w := by
  unfold decodeWord; rw [h]; rfl

theorem major_decodeFab {w : BitVec 32} (h : w.extractLsb' 26 6 = 0x32#6) : decodeWord w = decodeFab w := by
  unfold decodeWord; rw [h]; rfl

theorem major_decodeEng {w : BitVec 32} (h : w.extractLsb' 26 6 = 0x33#6) : decodeWord w = decodeEng w := by
  unfold decodeWord; rw [h]; rfl

theorem major_decodeCen {w : BitVec 32} (h : w.extractLsb' 26 6 = 0x34#6) : decodeWord w = decodeCen w := by
  unfold decodeWord; rw [h]; rfl

theorem major_decodeBar {w : BitVec 32} (h : w.extractLsb' 26 6 = 0x35#6) : decodeWord w = decodeBar w := by
  unfold decodeWord; rw [h]; rfl

theorem major_decodeSys {w : BitVec 32} (h : w.extractLsb' 26 6 = 0x38#6) : decodeWord w = decodeSys w := by
  unfold decodeWord; rw [h]; rfl

/-! Word shapes: the fields of a word put together from its parts, and its fixed bits -/

theorem word0 (x0 : BitVec 6) (x1 : BitVec 5) (x2 : BitVec 5) (x3 : BitVec 5) (x4 : BitVec 11) :
    (x0 ++ x1 ++ x2 ++ x3 ++ x4 : BitVec 32).extractLsb' 26 6 = x0
    ∧ (x0 ++ x1 ++ x2 ++ x3 ++ x4 : BitVec 32).extractLsb' 0 11 = x4
    ∧ (x0 ++ x1 ++ x2 ++ x3 ++ x4 : BitVec 32).extractLsb' 21 5 = x1
    ∧ (x0 ++ x1 ++ x2 ++ x3 ++ x4 : BitVec 32).extractLsb' 16 5 = x2
    ∧ (x0 ++ x1 ++ x2 ++ x3 ++ x4 : BitVec 32).extractLsb' 11 5 = x3
    ∧ (x0 ++ x1 ++ x2 ++ x3 ++ x4 : BitVec 32) &&& 0xFC0007FF#32 = x0 ++ 0#5 ++ 0#5 ++ 0#5 ++ x4 := by
  refine ⟨(((((field_high _ _ 26 6 (by decide)).trans (field_high _ _ 15 6 (by decide))).trans (field_high _ _ 10 6 (by decide))).trans (field_high _ _ 5 6 (by decide))).trans BitVec.extractLsb'_eq_self), ((field_low _ _ 0 11 (by decide)).trans BitVec.extractLsb'_eq_self), (((((field_high _ _ 21 5 (by decide)).trans (field_high _ _ 10 5 (by decide))).trans (field_high _ _ 5 5 (by decide))).trans (field_low _ _ 0 5 (by decide))).trans BitVec.extractLsb'_eq_self), ((((field_high _ _ 16 5 (by decide)).trans (field_high _ _ 5 5 (by decide))).trans (field_low _ _ 0 5 (by decide))).trans BitVec.extractLsb'_eq_self), (((field_high _ _ 11 5 (by decide)).trans (field_low _ _ 0 5 (by decide))).trans BitVec.extractLsb'_eq_self), ?_⟩
  have h : (0xFC0007FF#32 : BitVec 32) = (0x3F#6 ++ 0x0#5 ++ 0x0#5 ++ 0x0#5 ++ 0x7FF#11 : BitVec 32) := by decide
  rw [h]
  exact mask_append (mask_append (mask_append (mask_append (and_ones (by decide)) BitVec.and_zero) BitVec.and_zero) BitVec.and_zero) (and_ones (by decide))

theorem word1 (x0 : BitVec 6) (x1 : BitVec 5) (x2 : BitVec 5) (x3 : BitVec 16) :
    (x0 ++ x1 ++ x2 ++ x3 : BitVec 32).extractLsb' 26 6 = x0
    ∧ (x0 ++ x1 ++ x2 ++ x3 : BitVec 32).extractLsb' 0 11 = x3.extractLsb' 0 11
    ∧ (x0 ++ x1 ++ x2 ++ x3 : BitVec 32).extractLsb' 21 5 = x1
    ∧ (x0 ++ x1 ++ x2 ++ x3 : BitVec 32).extractLsb' 16 5 = x2
    ∧ (x0 ++ x1 ++ x2 ++ x3 : BitVec 32) &&& 0xFC00FFFF#32 = x0 ++ 0#5 ++ 0#5 ++ x3 := by
  refine ⟨((((field_high _ _ 26 6 (by decide)).trans (field_high _ _ 10 6 (by decide))).trans (field_high _ _ 5 6 (by decide))).trans BitVec.extractLsb'_eq_self), (field_low _ _ 0 11 (by decide)), ((((field_high _ _ 21 5 (by decide)).trans (field_high _ _ 5 5 (by decide))).trans (field_low _ _ 0 5 (by decide))).trans BitVec.extractLsb'_eq_self), (((field_high _ _ 16 5 (by decide)).trans (field_low _ _ 0 5 (by decide))).trans BitVec.extractLsb'_eq_self), ?_⟩
  have h : (0xFC00FFFF#32 : BitVec 32) = (0x3F#6 ++ 0x0#5 ++ 0x0#5 ++ 0xFFFF#16 : BitVec 32) := by decide
  rw [h]
  exact mask_append (mask_append (mask_append (and_ones (by decide)) BitVec.and_zero) BitVec.and_zero) (and_ones (by decide))

theorem word2 (x0 : BitVec 6) (x1 : BitVec 5) (x2 : BitVec 5) (x3 : BitVec 16) :
    (x0 ++ x1 ++ x2 ++ x3 : BitVec 32).extractLsb' 26 6 = x0
    ∧ (x0 ++ x1 ++ x2 ++ x3 : BitVec 32).extractLsb' 21 5 = x1
    ∧ (x0 ++ x1 ++ x2 ++ x3 : BitVec 32).extractLsb' 16 5 = x2
    ∧ (x0 ++ x1 ++ x2 ++ x3 : BitVec 32).extractLsb' 0 16 = x3
    ∧ (x0 ++ x1 ++ x2 ++ x3 : BitVec 32) &&& 0xFC000000#32 = x0 ++ 0#5 ++ 0#5 ++ 0#16 := by
  refine ⟨((((field_high _ _ 26 6 (by decide)).trans (field_high _ _ 10 6 (by decide))).trans (field_high _ _ 5 6 (by decide))).trans BitVec.extractLsb'_eq_self), ((((field_high _ _ 21 5 (by decide)).trans (field_high _ _ 5 5 (by decide))).trans (field_low _ _ 0 5 (by decide))).trans BitVec.extractLsb'_eq_self), (((field_high _ _ 16 5 (by decide)).trans (field_low _ _ 0 5 (by decide))).trans BitVec.extractLsb'_eq_self), ((field_low _ _ 0 16 (by decide)).trans BitVec.extractLsb'_eq_self), ?_⟩
  have h : (0xFC000000#32 : BitVec 32) = (0x3F#6 ++ 0x0#5 ++ 0x0#5 ++ 0x0#16 : BitVec 32) := by decide
  rw [h]
  exact mask_append (mask_append (mask_append (and_ones (by decide)) BitVec.and_zero) BitVec.and_zero) BitVec.and_zero

theorem word3 (x0 : BitVec 6) (x1 : BitVec 5) (x2 : BitVec 5) (x3 : BitVec 10) (x4 : BitVec 6) :
    (x0 ++ x1 ++ x2 ++ x3 ++ x4 : BitVec 32).extractLsb' 26 6 = x0
    ∧ (x0 ++ x1 ++ x2 ++ x3 ++ x4 : BitVec 32).extractLsb' 14 2 = x3.extractLsb' 8 2
    ∧ (x0 ++ x1 ++ x2 ++ x3 ++ x4 : BitVec 32).extractLsb' 21 5 = x1
    ∧ (x0 ++ x1 ++ x2 ++ x3 ++ x4 : BitVec 32).extractLsb' 16 5 = x2
    ∧ (x0 ++ x1 ++ x2 ++ x3 ++ x4 : BitVec 32).extractLsb' 0 6 = x4
    ∧ (x0 ++ x1 ++ x2 ++ x3 ++ x4 : BitVec 32) &&& 0xFC00FFC0#32 = x0 ++ 0#5 ++ 0#5 ++ x3 ++ 0#6 := by
  refine ⟨(((((field_high _ _ 26 6 (by decide)).trans (field_high _ _ 20 6 (by decide))).trans (field_high _ _ 10 6 (by decide))).trans (field_high _ _ 5 6 (by decide))).trans BitVec.extractLsb'_eq_self), ((field_high _ _ 14 2 (by decide)).trans (field_low _ _ 8 2 (by decide))), (((((field_high _ _ 21 5 (by decide)).trans (field_high _ _ 15 5 (by decide))).trans (field_high _ _ 5 5 (by decide))).trans (field_low _ _ 0 5 (by decide))).trans BitVec.extractLsb'_eq_self), ((((field_high _ _ 16 5 (by decide)).trans (field_high _ _ 10 5 (by decide))).trans (field_low _ _ 0 5 (by decide))).trans BitVec.extractLsb'_eq_self), ((field_low _ _ 0 6 (by decide)).trans BitVec.extractLsb'_eq_self), ?_⟩
  have h : (0xFC00FFC0#32 : BitVec 32) = (0x3F#6 ++ 0x0#5 ++ 0x0#5 ++ 0x3FF#10 ++ 0x0#6 : BitVec 32) := by decide
  rw [h]
  exact mask_append (mask_append (mask_append (mask_append (and_ones (by decide)) BitVec.and_zero) BitVec.and_zero) (and_ones (by decide))) BitVec.and_zero

theorem word4 (x0 : BitVec 6) (x1 : BitVec 5) (x2 : BitVec 21) :
    (x0 ++ x1 ++ x2 : BitVec 32).extractLsb' 26 6 = x0
    ∧ (x0 ++ x1 ++ x2 : BitVec 32).extractLsb' 21 5 = x1
    ∧ (x0 ++ x1 ++ x2 : BitVec 32).extractLsb' 0 21 = x2
    ∧ (x0 ++ x1 ++ x2 : BitVec 32) &&& 0xFC000000#32 = x0 ++ 0#5 ++ 0#21 := by
  refine ⟨(((field_high _ _ 26 6 (by decide)).trans (field_high _ _ 5 6 (by decide))).trans BitVec.extractLsb'_eq_self), (((field_high _ _ 21 5 (by decide)).trans (field_low _ _ 0 5 (by decide))).trans BitVec.extractLsb'_eq_self), ((field_low _ _ 0 21 (by decide)).trans BitVec.extractLsb'_eq_self), ?_⟩
  have h : (0xFC000000#32 : BitVec 32) = (0x3F#6 ++ 0x0#5 ++ 0x0#21 : BitVec 32) := by decide
  rw [h]
  exact mask_append (mask_append (and_ones (by decide)) BitVec.and_zero) BitVec.and_zero

theorem word5 (x0 : BitVec 6) (x1 : BitVec 5) (x2 : BitVec 5) (x3 : BitVec 5) (x4 : BitVec 1) (x5 : BitVec 10) :
    (x0 ++ x1 ++ x2 ++ x3 ++ x4 ++ x5 : BitVec 32).extractLsb' 26 6 = x0
    ∧ (x0 ++ x1 ++ x2 ++ x3 ++ x4 ++ x5 : BitVec 32).extractLsb' 0 10 = x5
    ∧ (x0 ++ x1 ++ x2 ++ x3 ++ x4 ++ x5 : BitVec 32).extractLsb' 21 5 = x1
    ∧ (x0 ++ x1 ++ x2 ++ x3 ++ x4 ++ x5 : BitVec 32).extractLsb' 16 5 = x2
    ∧ (x0 ++ x1 ++ x2 ++ x3 ++ x4 ++ x5 : BitVec 32).extractLsb' 11 5 = x3
    ∧ (x0 ++ x1 ++ x2 ++ x3 ++ x4 ++ x5 : BitVec 32).extractLsb' 10 1 = x4
    ∧ (x0 ++ x1 ++ x2 ++ x3 ++ x4 ++ x5 : BitVec 32) &&& 0xFC0003FF#32 = x0 ++ 0#5 ++ 0#5 ++ 0#5 ++ 0#1 ++ x5 := by
  refine ⟨((((((field_high _ _ 26 6 (by decide)).trans (field_high _ _ 16 6 (by decide))).trans (field_high _ _ 15 6 (by decide))).trans (field_high _ _ 10 6 (by decide))).trans (field_high _ _ 5 6 (by decide))).trans BitVec.extractLsb'_eq_self), ((field_low _ _ 0 10 (by decide)).trans BitVec.extractLsb'_eq_self), ((((((field_high _ _ 21 5 (by decide)).trans (field_high _ _ 11 5 (by decide))).trans (field_high _ _ 10 5 (by decide))).trans (field_high _ _ 5 5 (by decide))).trans (field_low _ _ 0 5 (by decide))).trans BitVec.extractLsb'_eq_self), (((((field_high _ _ 16 5 (by decide)).trans (field_high _ _ 6 5 (by decide))).trans (field_high _ _ 5 5 (by decide))).trans (field_low _ _ 0 5 (by decide))).trans BitVec.extractLsb'_eq_self), ((((field_high _ _ 11 5 (by decide)).trans (field_high _ _ 1 5 (by decide))).trans (field_low _ _ 0 5 (by decide))).trans BitVec.extractLsb'_eq_self), (((field_high _ _ 10 1 (by decide)).trans (field_low _ _ 0 1 (by decide))).trans BitVec.extractLsb'_eq_self), ?_⟩
  have h : (0xFC0003FF#32 : BitVec 32) = (0x3F#6 ++ 0x0#5 ++ 0x0#5 ++ 0x0#5 ++ 0x0#1 ++ 0x3FF#10 : BitVec 32) := by decide
  rw [h]
  exact mask_append (mask_append (mask_append (mask_append (mask_append (and_ones (by decide)) BitVec.and_zero) BitVec.and_zero) BitVec.and_zero) BitVec.and_zero) (and_ones (by decide))

theorem word6 (x0 : BitVec 11) (x1 : BitVec 5) (x2 : BitVec 5) (x3 : BitVec 1) (x4 : BitVec 10) :
    (x0 ++ x1 ++ x2 ++ x3 ++ x4 : BitVec 32).extractLsb' 26 6 = x0.extractLsb' 5 6
    ∧ (x0 ++ x1 ++ x2 ++ x3 ++ x4 : BitVec 32).extractLsb' 0 10 = x4
    ∧ (x0 ++ x1 ++ x2 ++ x3 ++ x4 : BitVec 32).extractLsb' 16 5 = x1
    ∧ (x0 ++ x1 ++ x2 ++ x3 ++ x4 : BitVec 32).extractLsb' 11 5 = x2
    ∧ (x0 ++ x1 ++ x2 ++ x3 ++ x4 : BitVec 32).extractLsb' 10 1 = x3
    ∧ (x0 ++ x1 ++ x2 ++ x3 ++ x4 : BitVec 32) &&& 0xFFE003FF#32 = x0 ++ 0#5 ++ 0#5 ++ 0#1 ++ x4 := by
  refine ⟨((((field_high _ _ 26 6 (by decide)).trans (field_high _ _ 16 6 (by decide))).trans (field_high _ _ 15 6 (by decide))).trans (field_high _ _ 10 6 (by decide))), ((field_low _ _ 0 10 (by decide)).trans BitVec.extractLsb'_eq_self), (((((field_high _ _ 16 5 (by decide)).trans (field_high _ _ 6 5 (by decide))).trans (field_high _ _ 5 5 (by decide))).trans (field_low _ _ 0 5 (by decide))).trans BitVec.extractLsb'_eq_self), ((((field_high _ _ 11 5 (by decide)).trans (field_high _ _ 1 5 (by decide))).trans (field_low _ _ 0 5 (by decide))).trans BitVec.extractLsb'_eq_self), (((field_high _ _ 10 1 (by decide)).trans (field_low _ _ 0 1 (by decide))).trans BitVec.extractLsb'_eq_self), ?_⟩
  have h : (0xFFE003FF#32 : BitVec 32) = (0x7FF#11 ++ 0x0#5 ++ 0x0#5 ++ 0x0#1 ++ 0x3FF#10 : BitVec 32) := by decide
  rw [h]
  exact mask_append (mask_append (mask_append (mask_append (and_ones (by decide)) BitVec.and_zero) BitVec.and_zero) BitVec.and_zero) (and_ones (by decide))

theorem word7 (x0 : BitVec 11) (x1 : BitVec 5) (x2 : BitVec 5) (x3 : BitVec 11) :
    (x0 ++ x1 ++ x2 ++ x3 : BitVec 32).extractLsb' 26 6 = x0.extractLsb' 5 6
    ∧ (x0 ++ x1 ++ x2 ++ x3 : BitVec 32).extractLsb' 0 10 = x3.extractLsb' 0 10
    ∧ (x0 ++ x1 ++ x2 ++ x3 : BitVec 32).extractLsb' 16 5 = x1
    ∧ (x0 ++ x1 ++ x2 ++ x3 : BitVec 32).extractLsb' 11 5 = x2
    ∧ (x0 ++ x1 ++ x2 ++ x3 : BitVec 32) &&& 0xFFE007FF#32 = x0 ++ 0#5 ++ 0#5 ++ x3 := by
  refine ⟨(((field_high _ _ 26 6 (by decide)).trans (field_high _ _ 15 6 (by decide))).trans (field_high _ _ 10 6 (by decide))), (field_low _ _ 0 10 (by decide)), ((((field_high _ _ 16 5 (by decide)).trans (field_high _ _ 5 5 (by decide))).trans (field_low _ _ 0 5 (by decide))).trans BitVec.extractLsb'_eq_self), (((field_high _ _ 11 5 (by decide)).trans (field_low _ _ 0 5 (by decide))).trans BitVec.extractLsb'_eq_self), ?_⟩
  have h : (0xFFE007FF#32 : BitVec 32) = (0x7FF#11 ++ 0x0#5 ++ 0x0#5 ++ 0x7FF#11 : BitVec 32) := by decide
  rw [h]
  exact mask_append (mask_append (mask_append (and_ones (by decide)) BitVec.and_zero) BitVec.and_zero) (and_ones (by decide))

theorem word8 (x0 : BitVec 6) (x1 : BitVec 5) (x2 : BitVec 5) (x3 : BitVec 1) (x4 : BitVec 15) :
    (x0 ++ x1 ++ x2 ++ x3 ++ x4 : BitVec 32).extractLsb' 26 6 = x0
    ∧ (x0 ++ x1 ++ x2 ++ x3 ++ x4 : BitVec 32).extractLsb' 15 1 = x3
    ∧ (x0 ++ x1 ++ x2 ++ x3 ++ x4 : BitVec 32).extractLsb' 21 5 = x1
    ∧ (x0 ++ x1 ++ x2 ++ x3 ++ x4 : BitVec 32).extractLsb' 16 5 = x2
    ∧ (x0 ++ x1 ++ x2 ++ x3 ++ x4 : BitVec 32).extractLsb' 0 15 = x4
    ∧ (x0 ++ x1 ++ x2 ++ x3 ++ x4 : BitVec 32) &&& 0xFC008000#32 = x0 ++ 0#5 ++ 0#5 ++ x3 ++ 0#15 := by
  refine ⟨(((((field_high _ _ 26 6 (by decide)).trans (field_high _ _ 11 6 (by decide))).trans (field_high _ _ 10 6 (by decide))).trans (field_high _ _ 5 6 (by decide))).trans BitVec.extractLsb'_eq_self), (((field_high _ _ 15 1 (by decide)).trans (field_low _ _ 0 1 (by decide))).trans BitVec.extractLsb'_eq_self), (((((field_high _ _ 21 5 (by decide)).trans (field_high _ _ 6 5 (by decide))).trans (field_high _ _ 5 5 (by decide))).trans (field_low _ _ 0 5 (by decide))).trans BitVec.extractLsb'_eq_self), ((((field_high _ _ 16 5 (by decide)).trans (field_high _ _ 1 5 (by decide))).trans (field_low _ _ 0 5 (by decide))).trans BitVec.extractLsb'_eq_self), ((field_low _ _ 0 15 (by decide)).trans BitVec.extractLsb'_eq_self), ?_⟩
  have h : (0xFC008000#32 : BitVec 32) = (0x3F#6 ++ 0x0#5 ++ 0x0#5 ++ 0x1#1 ++ 0x0#15 : BitVec 32) := by decide
  rw [h]
  exact mask_append (mask_append (mask_append (mask_append (and_ones (by decide)) BitVec.and_zero) BitVec.and_zero) (and_ones (by decide))) BitVec.and_zero

theorem word9 (x0 : BitVec 6) (x1 : BitVec 5) (x2 : BitVec 5) (x3 : BitVec 5) (x4 : BitVec 3) (x5 : BitVec 8) :
    (x0 ++ x1 ++ x2 ++ x3 ++ x4 ++ x5 : BitVec 32).extractLsb' 26 6 = x0
    ∧ (x0 ++ x1 ++ x2 ++ x3 ++ x4 ++ x5 : BitVec 32).extractLsb' 0 8 = x5
    ∧ (x0 ++ x1 ++ x2 ++ x3 ++ x4 ++ x5 : BitVec 32).extractLsb' 21 5 = x1
    ∧ (x0 ++ x1 ++ x2 ++ x3 ++ x4 ++ x5 : BitVec 32).extractLsb' 16 5 = x2
    ∧ (x0 ++ x1 ++ x2 ++ x3 ++ x4 ++ x5 : BitVec 32).extractLsb' 11 5 = x3
    ∧ (x0 ++ x1 ++ x2 ++ x3 ++ x4 ++ x5 : BitVec 32).extractLsb' 8 3 = x4
    ∧ (x0 ++ x1 ++ x2 ++ x3 ++ x4 ++ x5 : BitVec 32) &&& 0xFC0000FF#32 = x0 ++ 0#5 ++ 0#5 ++ 0#5 ++ 0#3 ++ x5 := by
  refine ⟨((((((field_high _ _ 26 6 (by decide)).trans (field_high _ _ 18 6 (by decide))).trans (field_high _ _ 15 6 (by decide))).trans (field_high _ _ 10 6 (by decide))).trans (field_high _ _ 5 6 (by decide))).trans BitVec.extractLsb'_eq_self), ((field_low _ _ 0 8 (by decide)).trans BitVec.extractLsb'_eq_self), ((((((field_high _ _ 21 5 (by decide)).trans (field_high _ _ 13 5 (by decide))).trans (field_high _ _ 10 5 (by decide))).trans (field_high _ _ 5 5 (by decide))).trans (field_low _ _ 0 5 (by decide))).trans BitVec.extractLsb'_eq_self), (((((field_high _ _ 16 5 (by decide)).trans (field_high _ _ 8 5 (by decide))).trans (field_high _ _ 5 5 (by decide))).trans (field_low _ _ 0 5 (by decide))).trans BitVec.extractLsb'_eq_self), ((((field_high _ _ 11 5 (by decide)).trans (field_high _ _ 3 5 (by decide))).trans (field_low _ _ 0 5 (by decide))).trans BitVec.extractLsb'_eq_self), (((field_high _ _ 8 3 (by decide)).trans (field_low _ _ 0 3 (by decide))).trans BitVec.extractLsb'_eq_self), ?_⟩
  have h : (0xFC0000FF#32 : BitVec 32) = (0x3F#6 ++ 0x0#5 ++ 0x0#5 ++ 0x0#5 ++ 0x0#3 ++ 0xFF#8 : BitVec 32) := by decide
  rw [h]
  exact mask_append (mask_append (mask_append (mask_append (mask_append (and_ones (by decide)) BitVec.and_zero) BitVec.and_zero) BitVec.and_zero) BitVec.and_zero) (and_ones (by decide))

theorem word10 (x0 : BitVec 6) (x1 : BitVec 5) (x2 : BitVec 5) (x3 : BitVec 5) (x4 : BitVec 3) (x5 : BitVec 8) :
    (x0 ++ x1 ++ x2 ++ x3 ++ x4 ++ x5 : BitVec 32).extractLsb' 26 6 = x0
    ∧ (x0 ++ x1 ++ x2 ++ x3 ++ x4 ++ x5 : BitVec 32).extractLsb' 0 8 = x5
    ∧ (x0 ++ x1 ++ x2 ++ x3 ++ x4 ++ x5 : BitVec 32).extractLsb' 21 5 = x1
    ∧ (x0 ++ x1 ++ x2 ++ x3 ++ x4 ++ x5 : BitVec 32).extractLsb' 16 5 = x2
    ∧ (x0 ++ x1 ++ x2 ++ x3 ++ x4 ++ x5 : BitVec 32).extractLsb' 8 3 = x4
    ∧ (x0 ++ x1 ++ x2 ++ x3 ++ x4 ++ x5 : BitVec 32) &&& 0xFC00F8FF#32 = x0 ++ 0#5 ++ 0#5 ++ x3 ++ 0#3 ++ x5 := by
  refine ⟨((((((field_high _ _ 26 6 (by decide)).trans (field_high _ _ 18 6 (by decide))).trans (field_high _ _ 15 6 (by decide))).trans (field_high _ _ 10 6 (by decide))).trans (field_high _ _ 5 6 (by decide))).trans BitVec.extractLsb'_eq_self), ((field_low _ _ 0 8 (by decide)).trans BitVec.extractLsb'_eq_self), ((((((field_high _ _ 21 5 (by decide)).trans (field_high _ _ 13 5 (by decide))).trans (field_high _ _ 10 5 (by decide))).trans (field_high _ _ 5 5 (by decide))).trans (field_low _ _ 0 5 (by decide))).trans BitVec.extractLsb'_eq_self), (((((field_high _ _ 16 5 (by decide)).trans (field_high _ _ 8 5 (by decide))).trans (field_high _ _ 5 5 (by decide))).trans (field_low _ _ 0 5 (by decide))).trans BitVec.extractLsb'_eq_self), (((field_high _ _ 8 3 (by decide)).trans (field_low _ _ 0 3 (by decide))).trans BitVec.extractLsb'_eq_self), ?_⟩
  have h : (0xFC00F8FF#32 : BitVec 32) = (0x3F#6 ++ 0x0#5 ++ 0x0#5 ++ 0x1F#5 ++ 0x0#3 ++ 0xFF#8 : BitVec 32) := by decide
  rw [h]
  exact mask_append (mask_append (mask_append (mask_append (mask_append (and_ones (by decide)) BitVec.and_zero) BitVec.and_zero) (and_ones (by decide))) BitVec.and_zero) (and_ones (by decide))

theorem word11 (x0 : BitVec 6) (x1 : BitVec 5) (x2 : BitVec 5) (x3 : BitVec 5) (x4 : BitVec 11) :
    (x0 ++ x1 ++ x2 ++ x3 ++ x4 : BitVec 32).extractLsb' 26 6 = x0
    ∧ (x0 ++ x1 ++ x2 ++ x3 ++ x4 : BitVec 32).extractLsb' 0 8 = x4.extractLsb' 0 8
    ∧ (x0 ++ x1 ++ x2 ++ x3 ++ x4 : BitVec 32).extractLsb' 21 5 = x1
    ∧ (x0 ++ x1 ++ x2 ++ x3 ++ x4 : BitVec 32).extractLsb' 16 5 = x2
    ∧ (x0 ++ x1 ++ x2 ++ x3 ++ x4 : BitVec 32).extractLsb' 11 5 = x3
    ∧ (x0 ++ x1 ++ x2 ++ x3 ++ x4 : BitVec 32) &&& 0xFC0007FF#32 = x0 ++ 0#5 ++ 0#5 ++ 0#5 ++ x4 := by
  refine ⟨(((((field_high _ _ 26 6 (by decide)).trans (field_high _ _ 15 6 (by decide))).trans (field_high _ _ 10 6 (by decide))).trans (field_high _ _ 5 6 (by decide))).trans BitVec.extractLsb'_eq_self), (field_low _ _ 0 8 (by decide)), (((((field_high _ _ 21 5 (by decide)).trans (field_high _ _ 10 5 (by decide))).trans (field_high _ _ 5 5 (by decide))).trans (field_low _ _ 0 5 (by decide))).trans BitVec.extractLsb'_eq_self), ((((field_high _ _ 16 5 (by decide)).trans (field_high _ _ 5 5 (by decide))).trans (field_low _ _ 0 5 (by decide))).trans BitVec.extractLsb'_eq_self), (((field_high _ _ 11 5 (by decide)).trans (field_low _ _ 0 5 (by decide))).trans BitVec.extractLsb'_eq_self), ?_⟩
  have h : (0xFC0007FF#32 : BitVec 32) = (0x3F#6 ++ 0x0#5 ++ 0x0#5 ++ 0x0#5 ++ 0x7FF#11 : BitVec 32) := by decide
  rw [h]
  exact mask_append (mask_append (mask_append (mask_append (and_ones (by decide)) BitVec.and_zero) BitVec.and_zero) BitVec.and_zero) (and_ones (by decide))

theorem word12 (x0 : BitVec 6) (x1 : BitVec 5) (x2 : BitVec 10) (x3 : BitVec 3) (x4 : BitVec 8) :
    (x0 ++ x1 ++ x2 ++ x3 ++ x4 : BitVec 32).extractLsb' 26 6 = x0
    ∧ (x0 ++ x1 ++ x2 ++ x3 ++ x4 : BitVec 32).extractLsb' 0 8 = x4
    ∧ (x0 ++ x1 ++ x2 ++ x3 ++ x4 : BitVec 32).extractLsb' 21 5 = x1
    ∧ (x0 ++ x1 ++ x2 ++ x3 ++ x4 : BitVec 32).extractLsb' 8 3 = x3
    ∧ (x0 ++ x1 ++ x2 ++ x3 ++ x4 : BitVec 32) &&& 0xFC1FF8FF#32 = x0 ++ 0#5 ++ x2 ++ 0#3 ++ x4 := by
  refine ⟨(((((field_high _ _ 26 6 (by decide)).trans (field_high _ _ 18 6 (by decide))).trans (field_high _ _ 15 6 (by decide))).trans (field_high _ _ 5 6 (by decide))).trans BitVec.extractLsb'_eq_self), ((field_low _ _ 0 8 (by decide)).trans BitVec.extractLsb'_eq_self), (((((field_high _ _ 21 5 (by decide)).trans (field_high _ _ 13 5 (by decide))).trans (field_high _ _ 10 5 (by decide))).trans (field_low _ _ 0 5 (by decide))).trans BitVec.extractLsb'_eq_self), (((field_high _ _ 8 3 (by decide)).trans (field_low _ _ 0 3 (by decide))).trans BitVec.extractLsb'_eq_self), ?_⟩
  have h : (0xFC1FF8FF#32 : BitVec 32) = (0x3F#6 ++ 0x0#5 ++ 0x3FF#10 ++ 0x0#3 ++ 0xFF#8 : BitVec 32) := by decide
  rw [h]
  exact mask_append (mask_append (mask_append (mask_append (and_ones (by decide)) BitVec.and_zero) (and_ones (by decide))) BitVec.and_zero) (and_ones (by decide))

theorem word13 (x0 : BitVec 8) (x1 : BitVec 3) (x2 : BitVec 5) (x3 : BitVec 5) (x4 : BitVec 3) (x5 : BitVec 8) :
    (x0 ++ x1 ++ x2 ++ x3 ++ x4 ++ x5 : BitVec 32).extractLsb' 26 6 = x0.extractLsb' 2 6
    ∧ (x0 ++ x1 ++ x2 ++ x3 ++ x4 ++ x5 : BitVec 32).extractLsb' 0 8 = x5
    ∧ (x0 ++ x1 ++ x2 ++ x3 ++ x4 ++ x5 : BitVec 32).extractLsb' 21 3 = x1
    ∧ (x0 ++ x1 ++ x2 ++ x3 ++ x4 ++ x5 : BitVec 32).extractLsb' 16 5 = x2
    ∧ (x0 ++ x1 ++ x2 ++ x3 ++ x4 ++ x5 : BitVec 32).extractLsb' 11 5 = x3
    ∧ (x0 ++ x1 ++ x2 ++ x3 ++ x4 ++ x5 : BitVec 32).extractLsb' 8 3 = x4
    ∧ (x0 ++ x1 ++ x2 ++ x3 ++ x4 ++ x5 : BitVec 32) &&& 0xFF0000FF#32 = x0 ++ 0#3 ++ 0#5 ++ 0#5 ++ 0#3 ++ x5 := by
  refine ⟨(((((field_high _ _ 26 6 (by decide)).trans (field_high _ _ 18 6 (by decide))).trans (field_high _ _ 15 6 (by decide))).trans (field_high _ _ 10 6 (by decide))).trans (field_high _ _ 5 6 (by decide))), ((field_low _ _ 0 8 (by decide)).trans BitVec.extractLsb'_eq_self), ((((((field_high _ _ 21 3 (by decide)).trans (field_high _ _ 13 3 (by decide))).trans (field_high _ _ 10 3 (by decide))).trans (field_high _ _ 5 3 (by decide))).trans (field_low _ _ 0 3 (by decide))).trans BitVec.extractLsb'_eq_self), (((((field_high _ _ 16 5 (by decide)).trans (field_high _ _ 8 5 (by decide))).trans (field_high _ _ 5 5 (by decide))).trans (field_low _ _ 0 5 (by decide))).trans BitVec.extractLsb'_eq_self), ((((field_high _ _ 11 5 (by decide)).trans (field_high _ _ 3 5 (by decide))).trans (field_low _ _ 0 5 (by decide))).trans BitVec.extractLsb'_eq_self), (((field_high _ _ 8 3 (by decide)).trans (field_low _ _ 0 3 (by decide))).trans BitVec.extractLsb'_eq_self), ?_⟩
  have h : (0xFF0000FF#32 : BitVec 32) = (0xFF#8 ++ 0x0#3 ++ 0x0#5 ++ 0x0#5 ++ 0x0#3 ++ 0xFF#8 : BitVec 32) := by decide
  rw [h]
  exact mask_append (mask_append (mask_append (mask_append (mask_append (and_ones (by decide)) BitVec.and_zero) BitVec.and_zero) BitVec.and_zero) BitVec.and_zero) (and_ones (by decide))

theorem word14 (x0 : BitVec 8) (x1 : BitVec 3) (x2 : BitVec 2) (x3 : BitVec 3) (x4 : BitVec 2) (x5 : BitVec 3) (x6 : BitVec 11) :
    (x0 ++ x1 ++ x2 ++ x3 ++ x4 ++ x5 ++ x6 : BitVec 32).extractLsb' 26 6 = x0.extractLsb' 2 6
    ∧ (x0 ++ x1 ++ x2 ++ x3 ++ x4 ++ x5 ++ x6 : BitVec 32).extractLsb' 0 8 = x6.extractLsb' 0 8
    ∧ (x0 ++ x1 ++ x2 ++ x3 ++ x4 ++ x5 ++ x6 : BitVec 32).extractLsb' 21 3 = x1
    ∧ (x0 ++ x1 ++ x2 ++ x3 ++ x4 ++ x5 ++ x6 : BitVec 32).extractLsb' 16 3 = x3
    ∧ (x0 ++ x1 ++ x2 ++ x3 ++ x4 ++ x5 ++ x6 : BitVec 32).extractLsb' 11 3 = x5
    ∧ (x0 ++ x1 ++ x2 ++ x3 ++ x4 ++ x5 ++ x6 : BitVec 32) &&& 0xFF18C7FF#32 = x0 ++ 0#3 ++ x2 ++ 0#3 ++ x4 ++ 0#3 ++ x6 := by
  refine ⟨((((((field_high _ _ 26 6 (by decide)).trans (field_high _ _ 15 6 (by decide))).trans (field_high _ _ 12 6 (by decide))).trans (field_high _ _ 10 6 (by decide))).trans (field_high _ _ 7 6 (by decide))).trans (field_high _ _ 5 6 (by decide))), (field_low _ _ 0 8 (by decide)), (((((((field_high _ _ 21 3 (by decide)).trans (field_high _ _ 10 3 (by decide))).trans (field_high _ _ 7 3 (by decide))).trans (field_high _ _ 5 3 (by decide))).trans (field_high _ _ 2 3 (by decide))).trans (field_low _ _ 0 3 (by decide))).trans BitVec.extractLsb'_eq_self), (((((field_high _ _ 16 3 (by decide)).trans (field_high _ _ 5 3 (by decide))).trans (field_high _ _ 2 3 (by decide))).trans (field_low _ _ 0 3 (by decide))).trans BitVec.extractLsb'_eq_self), (((field_high _ _ 11 3 (by decide)).trans (field_low _ _ 0 3 (by decide))).trans BitVec.extractLsb'_eq_self), ?_⟩
  have h : (0xFF18C7FF#32 : BitVec 32) = (0xFF#8 ++ 0x0#3 ++ 0x3#2 ++ 0x0#3 ++ 0x3#2 ++ 0x0#3 ++ 0x7FF#11 : BitVec 32) := by decide
  rw [h]
  exact mask_append (mask_append (mask_append (mask_append (mask_append (mask_append (and_ones (by decide)) BitVec.and_zero) (and_ones (by decide))) BitVec.and_zero) (and_ones (by decide))) BitVec.and_zero) (and_ones (by decide))

theorem word15 (x0 : BitVec 8) (x1 : BitVec 3) (x2 : BitVec 2) (x3 : BitVec 3) (x4 : BitVec 16) :
    (x0 ++ x1 ++ x2 ++ x3 ++ x4 : BitVec 32).extractLsb' 26 6 = x0.extractLsb' 2 6
    ∧ (x0 ++ x1 ++ x2 ++ x3 ++ x4 : BitVec 32).extractLsb' 0 8 = x4.extractLsb' 0 8
    ∧ (x0 ++ x1 ++ x2 ++ x3 ++ x4 : BitVec 32).extractLsb' 21 3 = x1
    ∧ (x0 ++ x1 ++ x2 ++ x3 ++ x4 : BitVec 32).extractLsb' 16 3 = x3
    ∧ (x0 ++ x1 ++ x2 ++ x3 ++ x4 : BitVec 32) &&& 0xFF18FFFF#32 = x0 ++ 0#3 ++ x2 ++ 0#3 ++ x4 := by
  refine ⟨((((field_high _ _ 26 6 (by decide)).trans (field_high _ _ 10 6 (by decide))).trans (field_high _ _ 7 6 (by decide))).trans (field_high _ _ 5 6 (by decide))), (field_low _ _ 0 8 (by decide)), (((((field_high _ _ 21 3 (by decide)).trans (field_high _ _ 5 3 (by decide))).trans (field_high _ _ 2 3 (by decide))).trans (field_low _ _ 0 3 (by decide))).trans BitVec.extractLsb'_eq_self), (((field_high _ _ 16 3 (by decide)).trans (field_low _ _ 0 3 (by decide))).trans BitVec.extractLsb'_eq_self), ?_⟩
  have h : (0xFF18FFFF#32 : BitVec 32) = (0xFF#8 ++ 0x0#3 ++ 0x3#2 ++ 0x0#3 ++ 0xFFFF#16 : BitVec 32) := by decide
  rw [h]
  exact mask_append (mask_append (mask_append (mask_append (and_ones (by decide)) BitVec.and_zero) (and_ones (by decide))) BitVec.and_zero) (and_ones (by decide))

theorem word16 (x0 : BitVec 6) (x1 : BitVec 5) (x2 : BitVec 2) (x3 : BitVec 3) (x4 : BitVec 16) :
    (x0 ++ x1 ++ x2 ++ x3 ++ x4 : BitVec 32).extractLsb' 26 6 = x0
    ∧ (x0 ++ x1 ++ x2 ++ x3 ++ x4 : BitVec 32).extractLsb' 0 8 = x4.extractLsb' 0 8
    ∧ (x0 ++ x1 ++ x2 ++ x3 ++ x4 : BitVec 32).extractLsb' 21 5 = x1
    ∧ (x0 ++ x1 ++ x2 ++ x3 ++ x4 : BitVec 32).extractLsb' 16 3 = x3
    ∧ (x0 ++ x1 ++ x2 ++ x3 ++ x4 : BitVec 32) &&& 0xFC18FFFF#32 = x0 ++ 0#5 ++ x2 ++ 0#3 ++ x4 := by
  refine ⟨(((((field_high _ _ 26 6 (by decide)).trans (field_high _ _ 10 6 (by decide))).trans (field_high _ _ 7 6 (by decide))).trans (field_high _ _ 5 6 (by decide))).trans BitVec.extractLsb'_eq_self), (field_low _ _ 0 8 (by decide)), (((((field_high _ _ 21 5 (by decide)).trans (field_high _ _ 5 5 (by decide))).trans (field_high _ _ 2 5 (by decide))).trans (field_low _ _ 0 5 (by decide))).trans BitVec.extractLsb'_eq_self), (((field_high _ _ 16 3 (by decide)).trans (field_low _ _ 0 3 (by decide))).trans BitVec.extractLsb'_eq_self), ?_⟩
  have h : (0xFC18FFFF#32 : BitVec 32) = (0x3F#6 ++ 0x0#5 ++ 0x3#2 ++ 0x0#3 ++ 0xFFFF#16 : BitVec 32) := by decide
  rw [h]
  exact mask_append (mask_append (mask_append (mask_append (and_ones (by decide)) BitVec.and_zero) (and_ones (by decide))) BitVec.and_zero) (and_ones (by decide))

theorem word17 (x0 : BitVec 8) (x1 : BitVec 3) (x2 : BitVec 5) (x3 : BitVec 16) :
    (x0 ++ x1 ++ x2 ++ x3 : BitVec 32).extractLsb' 26 6 = x0.extractLsb' 2 6
    ∧ (x0 ++ x1 ++ x2 ++ x3 : BitVec 32).extractLsb' 0 8 = x3.extractLsb' 0 8
    ∧ (x0 ++ x1 ++ x2 ++ x3 : BitVec 32).extractLsb' 21 3 = x1
    ∧ (x0 ++ x1 ++ x2 ++ x3 : BitVec 32).extractLsb' 16 5 = x2
    ∧ (x0 ++ x1 ++ x2 ++ x3 : BitVec 32) &&& 0xFF00FFFF#32 = x0 ++ 0#3 ++ 0#5 ++ x3 := by
  refine ⟨(((field_high _ _ 26 6 (by decide)).trans (field_high _ _ 10 6 (by decide))).trans (field_high _ _ 5 6 (by decide))), (field_low _ _ 0 8 (by decide)), ((((field_high _ _ 21 3 (by decide)).trans (field_high _ _ 5 3 (by decide))).trans (field_low _ _ 0 3 (by decide))).trans BitVec.extractLsb'_eq_self), (((field_high _ _ 16 5 (by decide)).trans (field_low _ _ 0 5 (by decide))).trans BitVec.extractLsb'_eq_self), ?_⟩
  have h : (0xFF00FFFF#32 : BitVec 32) = (0xFF#8 ++ 0x0#3 ++ 0x0#5 ++ 0xFFFF#16 : BitVec 32) := by decide
  rw [h]
  exact mask_append (mask_append (mask_append (and_ones (by decide)) BitVec.and_zero) BitVec.and_zero) (and_ones (by decide))

theorem word18 (x0 : BitVec 6) (x1 : BitVec 5) (x2 : BitVec 5) (x3 : BitVec 3) (x4 : BitVec 2) (x5 : BitVec 11) :
    (x0 ++ x1 ++ x2 ++ x3 ++ x4 ++ x5 : BitVec 32).extractLsb' 26 6 = x0
    ∧ (x0 ++ x1 ++ x2 ++ x3 ++ x4 ++ x5 : BitVec 32).extractLsb' 0 8 = x5.extractLsb' 0 8
    ∧ (x0 ++ x1 ++ x2 ++ x3 ++ x4 ++ x5 : BitVec 32).extractLsb' 21 5 = x1
    ∧ (x0 ++ x1 ++ x2 ++ x3 ++ x4 ++ x5 : BitVec 32).extractLsb' 16 5 = x2
    ∧ (x0 ++ x1 ++ x2 ++ x3 ++ x4 ++ x5 : BitVec 32).extractLsb' 11 2 = x4
    ∧ (x0 ++ x1 ++ x2 ++ x3 ++ x4 ++ x5 : BitVec 32) &&& 0xFC00E7FF#32 = x0 ++ 0#5 ++ 0#5 ++ x3 ++ 0#2 ++ x5 := by
  refine ⟨((((((field_high _ _ 26 6 (by decide)).trans (field_high _ _ 15 6 (by decide))).trans (field_high _ _ 13 6 (by decide))).trans (field_high _ _ 10 6 (by decide))).trans (field_high _ _ 5 6 (by decide))).trans BitVec.extractLsb'_eq_self), (field_low _ _ 0 8 (by decide)), ((((((field_high _ _ 21 5 (by decide)).trans (field_high _ _ 10 5 (by decide))).trans (field_high _ _ 8 5 (by decide))).trans (field_high _ _ 5 5 (by decide))).trans (field_low _ _ 0 5 (by decide))).trans BitVec.extractLsb'_eq_self), (((((field_high _ _ 16 5 (by decide)).trans (field_high _ _ 5 5 (by decide))).trans (field_high _ _ 3 5 (by decide))).trans (field_low _ _ 0 5 (by decide))).trans BitVec.extractLsb'_eq_self), (((field_high _ _ 11 2 (by decide)).trans (field_low _ _ 0 2 (by decide))).trans BitVec.extractLsb'_eq_self), ?_⟩
  have h : (0xFC00E7FF#32 : BitVec 32) = (0x3F#6 ++ 0x0#5 ++ 0x0#5 ++ 0x7#3 ++ 0x0#2 ++ 0x7FF#11 : BitVec 32) := by decide
  rw [h]
  exact mask_append (mask_append (mask_append (mask_append (mask_append (and_ones (by decide)) BitVec.and_zero) BitVec.and_zero) (and_ones (by decide))) BitVec.and_zero) (and_ones (by decide))

theorem word19 (x0 : BitVec 6) (x1 : BitVec 5) (x2 : BitVec 5) (x3 : BitVec 5) (x4 : BitVec 3) (x5 : BitVec 8) :
    (x0 ++ x1 ++ x2 ++ x3 ++ x4 ++ x5 : BitVec 32).extractLsb' 26 6 = x0
    ∧ (x0 ++ x1 ++ x2 ++ x3 ++ x4 ++ x5 : BitVec 32).extractLsb' 0 8 = x5
    ∧ (x0 ++ x1 ++ x2 ++ x3 ++ x4 ++ x5 : BitVec 32).extractLsb' 21 5 = x1
    ∧ (x0 ++ x1 ++ x2 ++ x3 ++ x4 ++ x5 : BitVec 32).extractLsb' 16 5 = x2
    ∧ (x0 ++ x1 ++ x2 ++ x3 ++ x4 ++ x5 : BitVec 32).extractLsb' 11 5 = x3
    ∧ (x0 ++ x1 ++ x2 ++ x3 ++ x4 ++ x5 : BitVec 32).extractLsb' 8 3 = x4
    ∧ (x0 ++ x1 ++ x2 ++ x3 ++ x4 ++ x5 : BitVec 32).extractLsb' 14 2 = x3.extractLsb' 3 2
    ∧ (x0 ++ x1 ++ x2 ++ x3 ++ x4 ++ x5 : BitVec 32) &&& 0xFC0000FF#32 = x0 ++ 0#5 ++ 0#5 ++ 0#5 ++ 0#3 ++ x5 := by
  refine ⟨((((((field_high _ _ 26 6 (by decide)).trans (field_high _ _ 18 6 (by decide))).trans (field_high _ _ 15 6 (by decide))).trans (field_high _ _ 10 6 (by decide))).trans (field_high _ _ 5 6 (by decide))).trans BitVec.extractLsb'_eq_self), ((field_low _ _ 0 8 (by decide)).trans BitVec.extractLsb'_eq_self), ((((((field_high _ _ 21 5 (by decide)).trans (field_high _ _ 13 5 (by decide))).trans (field_high _ _ 10 5 (by decide))).trans (field_high _ _ 5 5 (by decide))).trans (field_low _ _ 0 5 (by decide))).trans BitVec.extractLsb'_eq_self), (((((field_high _ _ 16 5 (by decide)).trans (field_high _ _ 8 5 (by decide))).trans (field_high _ _ 5 5 (by decide))).trans (field_low _ _ 0 5 (by decide))).trans BitVec.extractLsb'_eq_self), ((((field_high _ _ 11 5 (by decide)).trans (field_high _ _ 3 5 (by decide))).trans (field_low _ _ 0 5 (by decide))).trans BitVec.extractLsb'_eq_self), (((field_high _ _ 8 3 (by decide)).trans (field_low _ _ 0 3 (by decide))).trans BitVec.extractLsb'_eq_self), (((field_high _ _ 14 2 (by decide)).trans (field_high _ _ 6 2 (by decide))).trans (field_low _ _ 3 2 (by decide))), ?_⟩
  have h : (0xFC0000FF#32 : BitVec 32) = (0x3F#6 ++ 0x0#5 ++ 0x0#5 ++ 0x0#5 ++ 0x0#3 ++ 0xFF#8 : BitVec 32) := by decide
  rw [h]
  exact mask_append (mask_append (mask_append (mask_append (mask_append (and_ones (by decide)) BitVec.and_zero) BitVec.and_zero) BitVec.and_zero) BitVec.and_zero) (and_ones (by decide))

theorem word20 (x0 : BitVec 11) (x1 : BitVec 5) (x2 : BitVec 16) :
    (x0 ++ x1 ++ x2 : BitVec 32).extractLsb' 26 6 = x0.extractLsb' 5 6
    ∧ (x0 ++ x1 ++ x2 : BitVec 32).extractLsb' 0 11 = x2.extractLsb' 0 11
    ∧ (x0 ++ x1 ++ x2 : BitVec 32).extractLsb' 16 5 = x1
    ∧ (x0 ++ x1 ++ x2 : BitVec 32) &&& 0xFFE0FFFF#32 = x0 ++ 0#5 ++ x2 := by
  refine ⟨((field_high _ _ 26 6 (by decide)).trans (field_high _ _ 10 6 (by decide))), (field_low _ _ 0 11 (by decide)), (((field_high _ _ 16 5 (by decide)).trans (field_low _ _ 0 5 (by decide))).trans BitVec.extractLsb'_eq_self), ?_⟩
  have h : (0xFFE0FFFF#32 : BitVec 32) = (0x7FF#11 ++ 0x0#5 ++ 0xFFFF#16 : BitVec 32) := by decide
  rw [h]
  exact mask_append (mask_append (and_ones (by decide)) BitVec.and_zero) (and_ones (by decide))

theorem word21 (x0 : BitVec 6) (x1 : BitVec 5) (x2 : BitVec 21) :
    (x0 ++ x1 ++ x2 : BitVec 32).extractLsb' 26 6 = x0
    ∧ (x0 ++ x1 ++ x2 : BitVec 32).extractLsb' 0 11 = x2.extractLsb' 0 11
    ∧ (x0 ++ x1 ++ x2 : BitVec 32).extractLsb' 21 5 = x1
    ∧ (x0 ++ x1 ++ x2 : BitVec 32) &&& 0xFC1FFFFF#32 = x0 ++ 0#5 ++ x2 := by
  refine ⟨(((field_high _ _ 26 6 (by decide)).trans (field_high _ _ 5 6 (by decide))).trans BitVec.extractLsb'_eq_self), (field_low _ _ 0 11 (by decide)), (((field_high _ _ 21 5 (by decide)).trans (field_low _ _ 0 5 (by decide))).trans BitVec.extractLsb'_eq_self), ?_⟩
  have h : (0xFC1FFFFF#32 : BitVec 32) = (0x3F#6 ++ 0x0#5 ++ 0x1FFFFF#21 : BitVec 32) := by decide
  rw [h]
  exact mask_append (mask_append (and_ones (by decide)) BitVec.and_zero) (and_ones (by decide))

theorem word22 (x0 : BitVec 11) (x1 : BitVec 5) (x2 : BitVec 5) (x3 : BitVec 11) :
    (x0 ++ x1 ++ x2 ++ x3 : BitVec 32).extractLsb' 26 6 = x0.extractLsb' 5 6
    ∧ (x0 ++ x1 ++ x2 ++ x3 : BitVec 32).extractLsb' 0 11 = x3
    ∧ (x0 ++ x1 ++ x2 ++ x3 : BitVec 32).extractLsb' 16 5 = x1
    ∧ (x0 ++ x1 ++ x2 ++ x3 : BitVec 32).extractLsb' 11 5 = x2
    ∧ (x0 ++ x1 ++ x2 ++ x3 : BitVec 32) &&& 0xFFE007FF#32 = x0 ++ 0#5 ++ 0#5 ++ x3 := by
  refine ⟨(((field_high _ _ 26 6 (by decide)).trans (field_high _ _ 15 6 (by decide))).trans (field_high _ _ 10 6 (by decide))), ((field_low _ _ 0 11 (by decide)).trans BitVec.extractLsb'_eq_self), ((((field_high _ _ 16 5 (by decide)).trans (field_high _ _ 5 5 (by decide))).trans (field_low _ _ 0 5 (by decide))).trans BitVec.extractLsb'_eq_self), (((field_high _ _ 11 5 (by decide)).trans (field_low _ _ 0 5 (by decide))).trans BitVec.extractLsb'_eq_self), ?_⟩
  have h : (0xFFE007FF#32 : BitVec 32) = (0x7FF#11 ++ 0x0#5 ++ 0x0#5 ++ 0x7FF#11 : BitVec 32) := by decide
  rw [h]
  exact mask_append (mask_append (mask_append (and_ones (by decide)) BitVec.and_zero) BitVec.and_zero) (and_ones (by decide))

theorem word23 (x0 : BitVec 9) (x1 : BitVec 2) (x2 : BitVec 5) (x3 : BitVec 16) :
    (x0 ++ x1 ++ x2 ++ x3 : BitVec 32).extractLsb' 26 6 = x0.extractLsb' 3 6
    ∧ (x0 ++ x1 ++ x2 ++ x3 : BitVec 32).extractLsb' 0 11 = x3.extractLsb' 0 11
    ∧ (x0 ++ x1 ++ x2 ++ x3 : BitVec 32).extractLsb' 21 2 = x1
    ∧ (x0 ++ x1 ++ x2 ++ x3 : BitVec 32).extractLsb' 16 5 = x2
    ∧ (x0 ++ x1 ++ x2 ++ x3 : BitVec 32) &&& 0xFF80FFFF#32 = x0 ++ 0#2 ++ 0#5 ++ x3 := by
  refine ⟨(((field_high _ _ 26 6 (by decide)).trans (field_high _ _ 10 6 (by decide))).trans (field_high _ _ 5 6 (by decide))), (field_low _ _ 0 11 (by decide)), ((((field_high _ _ 21 2 (by decide)).trans (field_high _ _ 5 2 (by decide))).trans (field_low _ _ 0 2 (by decide))).trans BitVec.extractLsb'_eq_self), (((field_high _ _ 16 5 (by decide)).trans (field_low _ _ 0 5 (by decide))).trans BitVec.extractLsb'_eq_self), ?_⟩
  have h : (0xFF80FFFF#32 : BitVec 32) = (0x1FF#9 ++ 0x0#2 ++ 0x0#5 ++ 0xFFFF#16 : BitVec 32) := by decide
  rw [h]
  exact mask_append (mask_append (mask_append (and_ones (by decide)) BitVec.and_zero) BitVec.and_zero) (and_ones (by decide))

theorem word24 (x0 : BitVec 6) (x1 : BitVec 5) (x2 : BitVec 5) (x3 : BitVec 5) (x4 : BitVec 11) :
    (x0 ++ x1 ++ x2 ++ x3 ++ x4 : BitVec 32).extractLsb' 26 6 = x0
    ∧ (x0 ++ x1 ++ x2 ++ x3 ++ x4 : BitVec 32).extractLsb' 0 11 = x4
    ∧ (x0 ++ x1 ++ x2 ++ x3 ++ x4 : BitVec 32).extractLsb' 21 5 = x1
    ∧ (x0 ++ x1 ++ x2 ++ x3 ++ x4 : BitVec 32).extractLsb' 11 5 = x3
    ∧ (x0 ++ x1 ++ x2 ++ x3 ++ x4 : BitVec 32) &&& 0xFC1F07FF#32 = x0 ++ 0#5 ++ x2 ++ 0#5 ++ x4 := by
  refine ⟨(((((field_high _ _ 26 6 (by decide)).trans (field_high _ _ 15 6 (by decide))).trans (field_high _ _ 10 6 (by decide))).trans (field_high _ _ 5 6 (by decide))).trans BitVec.extractLsb'_eq_self), ((field_low _ _ 0 11 (by decide)).trans BitVec.extractLsb'_eq_self), (((((field_high _ _ 21 5 (by decide)).trans (field_high _ _ 10 5 (by decide))).trans (field_high _ _ 5 5 (by decide))).trans (field_low _ _ 0 5 (by decide))).trans BitVec.extractLsb'_eq_self), (((field_high _ _ 11 5 (by decide)).trans (field_low _ _ 0 5 (by decide))).trans BitVec.extractLsb'_eq_self), ?_⟩
  have h : (0xFC1F07FF#32 : BitVec 32) = (0x3F#6 ++ 0x0#5 ++ 0x1F#5 ++ 0x0#5 ++ 0x7FF#11 : BitVec 32) := by decide
  rw [h]
  exact mask_append (mask_append (mask_append (mask_append (and_ones (by decide)) BitVec.and_zero) (and_ones (by decide))) BitVec.and_zero) (and_ones (by decide))

theorem word25 (x0 : BitVec 6) (x1 : BitVec 5) (x2 : BitVec 9) (x3 : BitVec 12) :
    (x0 ++ x1 ++ x2 ++ x3 : BitVec 32).extractLsb' 26 6 = x0
    ∧ (x0 ++ x1 ++ x2 ++ x3 : BitVec 32).extractLsb' 12 4 = x2.extractLsb' 0 4
    ∧ (x0 ++ x1 ++ x2 ++ x3 : BitVec 32).extractLsb' 21 5 = x1
    ∧ (x0 ++ x1 ++ x2 ++ x3 : BitVec 32).extractLsb' 0 12 = x3
    ∧ (x0 ++ x1 ++ x2 ++ x3 : BitVec 32) &&& 0xFC1FF000#32 = x0 ++ 0#5 ++ x2 ++ 0#12 := by
  refine ⟨((((field_high _ _ 26 6 (by decide)).trans (field_high _ _ 14 6 (by decide))).trans (field_high _ _ 5 6 (by decide))).trans BitVec.extractLsb'_eq_self), ((field_high _ _ 12 4 (by decide)).trans (field_low _ _ 0 4 (by decide))), ((((field_high _ _ 21 5 (by decide)).trans (field_high _ _ 9 5 (by decide))).trans (field_low _ _ 0 5 (by decide))).trans BitVec.extractLsb'_eq_self), ((field_low _ _ 0 12 (by decide)).trans BitVec.extractLsb'_eq_self), ?_⟩
  have h : (0xFC1FF000#32 : BitVec 32) = (0x3F#6 ++ 0x0#5 ++ 0x1FF#9 ++ 0x0#12 : BitVec 32) := by decide
  rw [h]
  exact mask_append (mask_append (mask_append (and_ones (by decide)) BitVec.and_zero) (and_ones (by decide))) BitVec.and_zero

theorem word26 (x0 : BitVec 11) (x1 : BitVec 5) (x2 : BitVec 4) (x3 : BitVec 12) :
    (x0 ++ x1 ++ x2 ++ x3 : BitVec 32).extractLsb' 26 6 = x0.extractLsb' 5 6
    ∧ (x0 ++ x1 ++ x2 ++ x3 : BitVec 32).extractLsb' 12 4 = x2
    ∧ (x0 ++ x1 ++ x2 ++ x3 : BitVec 32).extractLsb' 16 5 = x1
    ∧ (x0 ++ x1 ++ x2 ++ x3 : BitVec 32).extractLsb' 0 12 = x3
    ∧ (x0 ++ x1 ++ x2 ++ x3 : BitVec 32) &&& 0xFFE0F000#32 = x0 ++ 0#5 ++ x2 ++ 0#12 := by
  refine ⟨(((field_high _ _ 26 6 (by decide)).trans (field_high _ _ 14 6 (by decide))).trans (field_high _ _ 10 6 (by decide))), (((field_high _ _ 12 4 (by decide)).trans (field_low _ _ 0 4 (by decide))).trans BitVec.extractLsb'_eq_self), ((((field_high _ _ 16 5 (by decide)).trans (field_high _ _ 4 5 (by decide))).trans (field_low _ _ 0 5 (by decide))).trans BitVec.extractLsb'_eq_self), ((field_low _ _ 0 12 (by decide)).trans BitVec.extractLsb'_eq_self), ?_⟩
  have h : (0xFFE0F000#32 : BitVec 32) = (0x7FF#11 ++ 0x0#5 ++ 0xF#4 ++ 0x0#12 : BitVec 32) := by decide
  rw [h]
  exact mask_append (mask_append (mask_append (and_ones (by decide)) BitVec.and_zero) (and_ones (by decide))) BitVec.and_zero

theorem word27 (x0 : BitVec 20) (x1 : BitVec 12) :
    (x0 ++ x1 : BitVec 32).extractLsb' 26 6 = x0.extractLsb' 14 6
    ∧ (x0 ++ x1 : BitVec 32).extractLsb' 12 4 = x0.extractLsb' 0 4
    ∧ (x0 ++ x1 : BitVec 32).extractLsb' 0 12 = x1
    ∧ (x0 ++ x1 : BitVec 32) &&& 0xFFFFF000#32 = x0 ++ 0#12 := by
  refine ⟨(field_high _ _ 26 6 (by decide)), (field_high _ _ 12 4 (by decide)), ((field_low _ _ 0 12 (by decide)).trans BitVec.extractLsb'_eq_self), ?_⟩
  have h : (0xFFFFF000#32 : BitVec 32) = (0xFFFFF#20 ++ 0x0#12 : BitVec 32) := by decide
  rw [h]
  exact mask_append (and_ones (by decide)) BitVec.and_zero

theorem word28 (x0 : BitVec 6) (x1 : BitVec 5) (x2 : BitVec 5) (x3 : BitVec 16) :
    (x0 ++ x1 ++ x2 ++ x3 : BitVec 32).extractLsb' 26 6 = x0
    ∧ (x0 ++ x1 ++ x2 ++ x3 : BitVec 32).extractLsb' 12 4 = x3.extractLsb' 12 4
    ∧ (x0 ++ x1 ++ x2 ++ x3 : BitVec 32).extractLsb' 21 5 = x1
    ∧ (x0 ++ x1 ++ x2 ++ x3 : BitVec 32).extractLsb' 16 5 = x2
    ∧ (x0 ++ x1 ++ x2 ++ x3 : BitVec 32) &&& 0xFC00FFFF#32 = x0 ++ 0#5 ++ 0#5 ++ x3 := by
  refine ⟨((((field_high _ _ 26 6 (by decide)).trans (field_high _ _ 10 6 (by decide))).trans (field_high _ _ 5 6 (by decide))).trans BitVec.extractLsb'_eq_self), (field_low _ _ 12 4 (by decide)), ((((field_high _ _ 21 5 (by decide)).trans (field_high _ _ 5 5 (by decide))).trans (field_low _ _ 0 5 (by decide))).trans BitVec.extractLsb'_eq_self), (((field_high _ _ 16 5 (by decide)).trans (field_low _ _ 0 5 (by decide))).trans BitVec.extractLsb'_eq_self), ?_⟩
  have h : (0xFC00FFFF#32 : BitVec 32) = (0x3F#6 ++ 0x0#5 ++ 0x0#5 ++ 0xFFFF#16 : BitVec 32) := by decide
  rw [h]
  exact mask_append (mask_append (mask_append (and_ones (by decide)) BitVec.and_zero) BitVec.and_zero) (and_ones (by decide))

theorem word29 (x0 : BitVec 30) (x1 : BitVec 2) :
    (x0 ++ x1 : BitVec 32).extractLsb' 26 6 = x0.extractLsb' 24 6
    ∧ (x0 ++ x1 : BitVec 32).extractLsb' 12 4 = x0.extractLsb' 10 4
    ∧ (x0 ++ x1 : BitVec 32).extractLsb' 0 2 = x1
    ∧ (x0 ++ x1 : BitVec 32) &&& 0xFFFFFFFC#32 = x0 ++ 0#2 := by
  refine ⟨(field_high _ _ 26 6 (by decide)), (field_high _ _ 12 4 (by decide)), ((field_low _ _ 0 2 (by decide)).trans BitVec.extractLsb'_eq_self), ?_⟩
  have h : (0xFFFFFFFC#32 : BitVec 32) = (0x3FFFFFFF#30 ++ 0x0#2 : BitVec 32) := by decide
  rw [h]
  exact mask_append (and_ones (by decide)) BitVec.and_zero

/-! The instructions -/

theorem Encoding.add (d : BitVec 5) (a : BitVec 5) (b : BitVec 5) : Encoding.Statement (.add d a b) := by
  rintro w - ⟨⟩
  obtain ⟨p0, p1, f0, f1, f2, hm⟩ := word0 0x1#6 d a b 0x0#11
  refine (major_decodeAlu p0).trans ?_
  unfold decodeAlu; rw [p1]
  refine (fixed hm).trans ?_
  rw [f0, f1, f2]

theorem Encoding.sub (d : BitVec 5) (a : BitVec 5) (b : BitVec 5) : Encoding.Statement (.sub d a b) := by
  rintro w - ⟨⟩
  obtain ⟨p0, p1, f0, f1, f2, hm⟩ := word0 0x1#6 d a b 0x1#11
  refine (major_decodeAlu p0).trans ?_
  unfold decodeAlu; rw [p1]
  refine (fixed hm).trans ?_
  rw [f0, f1, f2]

theorem Encoding.and (d : BitVec 5) (a : BitVec 5) (b : BitVec 5) : Encoding.Statement (.and d a b) := by
  rintro w - ⟨⟩
  obtain ⟨p0, p1, f0, f1, f2, hm⟩ := word0 0x1#6 d a b 0x2#11
  refine (major_decodeAlu p0).trans ?_
  unfold decodeAlu; rw [p1]
  refine (fixed hm).trans ?_
  rw [f0, f1, f2]

theorem Encoding.or (d : BitVec 5) (a : BitVec 5) (b : BitVec 5) : Encoding.Statement (.or d a b) := by
  rintro w - ⟨⟩
  obtain ⟨p0, p1, f0, f1, f2, hm⟩ := word0 0x1#6 d a b 0x3#11
  refine (major_decodeAlu p0).trans ?_
  unfold decodeAlu; rw [p1]
  refine (fixed hm).trans ?_
  rw [f0, f1, f2]

theorem Encoding.xor (d : BitVec 5) (a : BitVec 5) (b : BitVec 5) : Encoding.Statement (.xor d a b) := by
  rintro w - ⟨⟩
  obtain ⟨p0, p1, f0, f1, f2, hm⟩ := word0 0x1#6 d a b 0x4#11
  refine (major_decodeAlu p0).trans ?_
  unfold decodeAlu; rw [p1]
  refine (fixed hm).trans ?_
  rw [f0, f1, f2]

theorem Encoding.andn (d : BitVec 5) (a : BitVec 5) (b : BitVec 5) : Encoding.Statement (.andn d a b) := by
  rintro w - ⟨⟩
  obtain ⟨p0, p1, f0, f1, f2, hm⟩ := word0 0x1#6 d a b 0x5#11
  refine (major_decodeAlu p0).trans ?_
  unfold decodeAlu; rw [p1]
  refine (fixed hm).trans ?_
  rw [f0, f1, f2]

theorem Encoding.sll (d : BitVec 5) (a : BitVec 5) (b : BitVec 5) : Encoding.Statement (.sll d a b) := by
  rintro w - ⟨⟩
  obtain ⟨p0, p1, f0, f1, f2, hm⟩ := word0 0x1#6 d a b 0x6#11
  refine (major_decodeAlu p0).trans ?_
  unfold decodeAlu; rw [p1]
  refine (fixed hm).trans ?_
  rw [f0, f1, f2]

theorem Encoding.srl (d : BitVec 5) (a : BitVec 5) (b : BitVec 5) : Encoding.Statement (.srl d a b) := by
  rintro w - ⟨⟩
  obtain ⟨p0, p1, f0, f1, f2, hm⟩ := word0 0x1#6 d a b 0x7#11
  refine (major_decodeAlu p0).trans ?_
  unfold decodeAlu; rw [p1]
  refine (fixed hm).trans ?_
  rw [f0, f1, f2]

theorem Encoding.sra (d : BitVec 5) (a : BitVec 5) (b : BitVec 5) : Encoding.Statement (.sra d a b) := by
  rintro w - ⟨⟩
  obtain ⟨p0, p1, f0, f1, f2, hm⟩ := word0 0x1#6 d a b 0x8#11
  refine (major_decodeAlu p0).trans ?_
  unfold decodeAlu; rw [p1]
  refine (fixed hm).trans ?_
  rw [f0, f1, f2]

theorem Encoding.slt (d : BitVec 5) (a : BitVec 5) (b : BitVec 5) : Encoding.Statement (.slt d a b) := by
  rintro w - ⟨⟩
  obtain ⟨p0, p1, f0, f1, f2, hm⟩ := word0 0x1#6 d a b 0x9#11
  refine (major_decodeAlu p0).trans ?_
  unfold decodeAlu; rw [p1]
  refine (fixed hm).trans ?_
  rw [f0, f1, f2]

theorem Encoding.sltu (d : BitVec 5) (a : BitVec 5) (b : BitVec 5) : Encoding.Statement (.sltu d a b) := by
  rintro w - ⟨⟩
  obtain ⟨p0, p1, f0, f1, f2, hm⟩ := word0 0x1#6 d a b 0xA#11
  refine (major_decodeAlu p0).trans ?_
  unfold decodeAlu; rw [p1]
  refine (fixed hm).trans ?_
  rw [f0, f1, f2]

theorem Encoding.min (d : BitVec 5) (a : BitVec 5) (b : BitVec 5) : Encoding.Statement (.min d a b) := by
  rintro w - ⟨⟩
  obtain ⟨p0, p1, f0, f1, f2, hm⟩ := word0 0x1#6 d a b 0xB#11
  refine (major_decodeAlu p0).trans ?_
  unfold decodeAlu; rw [p1]
  refine (fixed hm).trans ?_
  rw [f0, f1, f2]

theorem Encoding.max (d : BitVec 5) (a : BitVec 5) (b : BitVec 5) : Encoding.Statement (.max d a b) := by
  rintro w - ⟨⟩
  obtain ⟨p0, p1, f0, f1, f2, hm⟩ := word0 0x1#6 d a b 0xC#11
  refine (major_decodeAlu p0).trans ?_
  unfold decodeAlu; rw [p1]
  refine (fixed hm).trans ?_
  rw [f0, f1, f2]

theorem Encoding.minu (d : BitVec 5) (a : BitVec 5) (b : BitVec 5) : Encoding.Statement (.minu d a b) := by
  rintro w - ⟨⟩
  obtain ⟨p0, p1, f0, f1, f2, hm⟩ := word0 0x1#6 d a b 0xD#11
  refine (major_decodeAlu p0).trans ?_
  unfold decodeAlu; rw [p1]
  refine (fixed hm).trans ?_
  rw [f0, f1, f2]

theorem Encoding.maxu (d : BitVec 5) (a : BitVec 5) (b : BitVec 5) : Encoding.Statement (.maxu d a b) := by
  rintro w - ⟨⟩
  obtain ⟨p0, p1, f0, f1, f2, hm⟩ := word0 0x1#6 d a b 0xE#11
  refine (major_decodeAlu p0).trans ?_
  unfold decodeAlu; rw [p1]
  refine (fixed hm).trans ?_
  rw [f0, f1, f2]

theorem Encoding.sel (d : BitVec 5) (a : BitVec 5) (b : BitVec 5) : Encoding.Statement (.sel d a b) := by
  rintro w - ⟨⟩
  obtain ⟨p0, p1, f0, f1, f2, hm⟩ := word0 0x1#6 d a b 0xF#11
  refine (major_decodeAlu p0).trans ?_
  unfold decodeAlu; rw [p1]
  refine (fixed hm).trans ?_
  rw [f0, f1, f2]

theorem Encoding.clz (d : BitVec 5) (a : BitVec 5) : Encoding.Statement (.clz d a) := by
  rintro w - ⟨⟩
  obtain ⟨p0, p1, f0, f1, hm⟩ := word1 0x1#6 d a 0x10#16
  refine (major_decodeAlu p0).trans ?_
  unfold decodeAlu; rw [p1]
  refine (fixed hm).trans ?_
  rw [f0, f1]

theorem Encoding.ctz (d : BitVec 5) (a : BitVec 5) : Encoding.Statement (.ctz d a) := by
  rintro w - ⟨⟩
  obtain ⟨p0, p1, f0, f1, hm⟩ := word1 0x1#6 d a 0x11#16
  refine (major_decodeAlu p0).trans ?_
  unfold decodeAlu; rw [p1]
  refine (fixed hm).trans ?_
  rw [f0, f1]

theorem Encoding.popc (d : BitVec 5) (a : BitVec 5) : Encoding.Statement (.popc d a) := by
  rintro w - ⟨⟩
  obtain ⟨p0, p1, f0, f1, hm⟩ := word1 0x1#6 d a 0x12#16
  refine (major_decodeAlu p0).trans ?_
  unfold decodeAlu; rw [p1]
  refine (fixed hm).trans ?_
  rw [f0, f1]

theorem Encoding.bfx (d : BitVec 5) (a : BitVec 5) (b : BitVec 5) : Encoding.Statement (.bfx d a b) := by
  rintro w - ⟨⟩
  obtain ⟨p0, p1, f0, f1, f2, hm⟩ := word0 0x1#6 d a b 0x13#11
  refine (major_decodeAlu p0).trans ?_
  unfold decodeAlu; rw [p1]
  refine (fixed hm).trans ?_
  rw [f0, f1, f2]

theorem Encoding.bfi (d : BitVec 5) (a : BitVec 5) (b : BitVec 5) : Encoding.Statement (.bfi d a b) := by
  rintro w - ⟨⟩
  obtain ⟨p0, p1, f0, f1, f2, hm⟩ := word0 0x1#6 d a b 0x14#11
  refine (major_decodeAlu p0).trans ?_
  unfold decodeAlu; rw [p1]
  refine (fixed hm).trans ?_
  rw [f0, f1, f2]

theorem Encoding.mul (d : BitVec 5) (a : BitVec 5) (b : BitVec 5) : Encoding.Statement (.mul d a b) := by
  rintro w - ⟨⟩
  obtain ⟨p0, p1, f0, f1, f2, hm⟩ := word0 0x2#6 d a b 0x0#11
  refine (major_decodeMulDiv p0).trans ?_
  unfold decodeMulDiv; rw [p1]
  refine (fixed hm).trans ?_
  rw [f0, f1, f2]

theorem Encoding.mulh (d : BitVec 5) (a : BitVec 5) (b : BitVec 5) : Encoding.Statement (.mulh d a b) := by
  rintro w - ⟨⟩
  obtain ⟨p0, p1, f0, f1, f2, hm⟩ := word0 0x2#6 d a b 0x1#11
  refine (major_decodeMulDiv p0).trans ?_
  unfold decodeMulDiv; rw [p1]
  refine (fixed hm).trans ?_
  rw [f0, f1, f2]

theorem Encoding.mulhu (d : BitVec 5) (a : BitVec 5) (b : BitVec 5) : Encoding.Statement (.mulhu d a b) := by
  rintro w - ⟨⟩
  obtain ⟨p0, p1, f0, f1, f2, hm⟩ := word0 0x2#6 d a b 0x2#11
  refine (major_decodeMulDiv p0).trans ?_
  unfold decodeMulDiv; rw [p1]
  refine (fixed hm).trans ?_
  rw [f0, f1, f2]

theorem Encoding.div (d : BitVec 5) (a : BitVec 5) (b : BitVec 5) : Encoding.Statement (.div d a b) := by
  rintro w - ⟨⟩
  obtain ⟨p0, p1, f0, f1, f2, hm⟩ := word0 0x2#6 d a b 0x3#11
  refine (major_decodeMulDiv p0).trans ?_
  unfold decodeMulDiv; rw [p1]
  refine (fixed hm).trans ?_
  rw [f0, f1, f2]

theorem Encoding.divu (d : BitVec 5) (a : BitVec 5) (b : BitVec 5) : Encoding.Statement (.divu d a b) := by
  rintro w - ⟨⟩
  obtain ⟨p0, p1, f0, f1, f2, hm⟩ := word0 0x2#6 d a b 0x4#11
  refine (major_decodeMulDiv p0).trans ?_
  unfold decodeMulDiv; rw [p1]
  refine (fixed hm).trans ?_
  rw [f0, f1, f2]

theorem Encoding.rem (d : BitVec 5) (a : BitVec 5) (b : BitVec 5) : Encoding.Statement (.rem d a b) := by
  rintro w - ⟨⟩
  obtain ⟨p0, p1, f0, f1, f2, hm⟩ := word0 0x2#6 d a b 0x5#11
  refine (major_decodeMulDiv p0).trans ?_
  unfold decodeMulDiv; rw [p1]
  refine (fixed hm).trans ?_
  rw [f0, f1, f2]

theorem Encoding.remu (d : BitVec 5) (a : BitVec 5) (b : BitVec 5) : Encoding.Statement (.remu d a b) := by
  rintro w - ⟨⟩
  obtain ⟨p0, p1, f0, f1, f2, hm⟩ := word0 0x2#6 d a b 0x6#11
  refine (major_decodeMulDiv p0).trans ?_
  unfold decodeMulDiv; rw [p1]
  refine (fixed hm).trans ?_
  rw [f0, f1, f2]

theorem Encoding.addi (d : BitVec 5) (a : BitVec 5) (i : BitVec 16) : Encoding.Statement (.addi d a i) := by
  rintro w - ⟨⟩
  obtain ⟨p0, f0, f1, f2, hm⟩ := word2 0x3#6 d a i
  unfold decodeWord; rw [p0]
  refine (fixed hm).trans ?_
  rw [f0, f1, f2]

theorem Encoding.andi (d : BitVec 5) (a : BitVec 5) (i : BitVec 16) : Encoding.Statement (.andi d a i) := by
  rintro w - ⟨⟩
  obtain ⟨p0, f0, f1, f2, hm⟩ := word2 0x4#6 d a i
  unfold decodeWord; rw [p0]
  refine (fixed hm).trans ?_
  rw [f0, f1, f2]

theorem Encoding.ori (d : BitVec 5) (a : BitVec 5) (i : BitVec 16) : Encoding.Statement (.ori d a i) := by
  rintro w - ⟨⟩
  obtain ⟨p0, f0, f1, f2, hm⟩ := word2 0x5#6 d a i
  unfold decodeWord; rw [p0]
  refine (fixed hm).trans ?_
  rw [f0, f1, f2]

theorem Encoding.xori (d : BitVec 5) (a : BitVec 5) (i : BitVec 16) : Encoding.Statement (.xori d a i) := by
  rintro w - ⟨⟩
  obtain ⟨p0, f0, f1, f2, hm⟩ := word2 0x6#6 d a i
  unfold decodeWord; rw [p0]
  refine (fixed hm).trans ?_
  rw [f0, f1, f2]

theorem Encoding.slti (d : BitVec 5) (a : BitVec 5) (i : BitVec 16) : Encoding.Statement (.slti d a i) := by
  rintro w - ⟨⟩
  obtain ⟨p0, f0, f1, f2, hm⟩ := word2 0x7#6 d a i
  unfold decodeWord; rw [p0]
  refine (fixed hm).trans ?_
  rw [f0, f1, f2]

theorem Encoding.sltiu (d : BitVec 5) (a : BitVec 5) (i : BitVec 16) : Encoding.Statement (.sltiu d a i) := by
  rintro w - ⟨⟩
  obtain ⟨p0, f0, f1, f2, hm⟩ := word2 0x8#6 d a i
  unfold decodeWord; rw [p0]
  refine (fixed hm).trans ?_
  rw [f0, f1, f2]

theorem Encoding.slli (d : BitVec 5) (a : BitVec 5) (s : BitVec 6) : Encoding.Statement (.slli d a s) := by
  rintro w - ⟨⟩
  obtain ⟨p0, p1, f0, f1, f2, hm⟩ := word3 0x9#6 d a 0x0#10 s
  refine (major_decodeShi p0).trans ?_
  unfold decodeShi; rw [p1]
  refine (fixed hm).trans ?_
  rw [f0, f1, f2]

theorem Encoding.srli (d : BitVec 5) (a : BitVec 5) (s : BitVec 6) : Encoding.Statement (.srli d a s) := by
  rintro w - ⟨⟩
  obtain ⟨p0, p1, f0, f1, f2, hm⟩ := word3 0x9#6 d a 0x100#10 s
  refine (major_decodeShi p0).trans ?_
  unfold decodeShi; rw [p1]
  refine (fixed hm).trans ?_
  rw [f0, f1, f2]

theorem Encoding.srai (d : BitVec 5) (a : BitVec 5) (s : BitVec 6) : Encoding.Statement (.srai d a s) := by
  rintro w - ⟨⟩
  obtain ⟨p0, p1, f0, f1, f2, hm⟩ := word3 0x9#6 d a 0x200#10 s
  refine (major_decodeShi p0).trans ?_
  unfold decodeShi; rw [p1]
  refine (fixed hm).trans ?_
  rw [f0, f1, f2]

theorem Encoding.lih (d : BitVec 5) (i : BitVec 21) : Encoding.Statement (.lih d i) := by
  rintro w - ⟨⟩
  obtain ⟨p0, f0, f1, hm⟩ := word4 0xA#6 d i
  unfold decodeWord; rw [p0]
  refine (fixed hm).trans ?_
  rw [f0, f1]

theorem Encoding.lix (d : BitVec 5) (i : BitVec 21) : Encoding.Statement (.lix d i) := by
  rintro w - ⟨⟩
  obtain ⟨p0, f0, f1, hm⟩ := word4 0xB#6 d i
  unfold decodeWord; rw [p0]
  refine (fixed hm).trans ?_
  rw [f0, f1]

theorem Encoding.addpc (d : BitVec 5) (i : BitVec 21) : Encoding.Statement (.addpc d i) := by
  rintro w - ⟨⟩
  obtain ⟨p0, f0, f1, hm⟩ := word4 0xC#6 d i
  unfold decodeWord; rw [p0]
  refine (fixed hm).trans ?_
  rw [f0, f1]

theorem Encoding.beq (a : BitVec 5) (b : BitVec 5) (o : BitVec 16) : Encoding.Statement (.beq a b o) := by
  rintro w - ⟨⟩
  obtain ⟨p0, f0, f1, f2, hm⟩ := word2 0x10#6 a b o
  unfold decodeWord; rw [p0]
  refine (fixed hm).trans ?_
  rw [f0, f1, f2]

theorem Encoding.bne (a : BitVec 5) (b : BitVec 5) (o : BitVec 16) : Encoding.Statement (.bne a b o) := by
  rintro w - ⟨⟩
  obtain ⟨p0, f0, f1, f2, hm⟩ := word2 0x11#6 a b o
  unfold decodeWord; rw [p0]
  refine (fixed hm).trans ?_
  rw [f0, f1, f2]

theorem Encoding.blt (a : BitVec 5) (b : BitVec 5) (o : BitVec 16) : Encoding.Statement (.blt a b o) := by
  rintro w - ⟨⟩
  obtain ⟨p0, f0, f1, f2, hm⟩ := word2 0x12#6 a b o
  unfold decodeWord; rw [p0]
  refine (fixed hm).trans ?_
  rw [f0, f1, f2]

theorem Encoding.bge (a : BitVec 5) (b : BitVec 5) (o : BitVec 16) : Encoding.Statement (.bge a b o) := by
  rintro w - ⟨⟩
  obtain ⟨p0, f0, f1, f2, hm⟩ := word2 0x13#6 a b o
  unfold decodeWord; rw [p0]
  refine (fixed hm).trans ?_
  rw [f0, f1, f2]

theorem Encoding.bltu (a : BitVec 5) (b : BitVec 5) (o : BitVec 16) : Encoding.Statement (.bltu a b o) := by
  rintro w - ⟨⟩
  obtain ⟨p0, f0, f1, f2, hm⟩ := word2 0x14#6 a b o
  unfold decodeWord; rw [p0]
  refine (fixed hm).trans ?_
  rw [f0, f1, f2]

theorem Encoding.bgeu (a : BitVec 5) (b : BitVec 5) (o : BitVec 16) : Encoding.Statement (.bgeu a b o) := by
  rintro w - ⟨⟩
  obtain ⟨p0, f0, f1, f2, hm⟩ := word2 0x15#6 a b o
  unfold decodeWord; rw [p0]
  refine (fixed hm).trans ?_
  rw [f0, f1, f2]

theorem Encoding.jal (d : BitVec 5) (o : BitVec 21) : Encoding.Statement (.jal d o) := by
  rintro w - ⟨⟩
  obtain ⟨p0, f0, f1, hm⟩ := word4 0x16#6 d o
  unfold decodeWord; rw [p0]
  refine (fixed hm).trans ?_
  rw [f0, f1]

theorem Encoding.jalr (d : BitVec 5) (a : BitVec 5) (i : BitVec 16) : Encoding.Statement (.jalr d a i) := by
  rintro w - ⟨⟩
  obtain ⟨p0, f0, f1, f2, hm⟩ := word2 0x17#6 d a i
  unfold decodeWord; rw [p0]
  refine (fixed hm).trans ?_
  rw [f0, f1, f2]

theorem Encoding.ldb (d : BitVec 5) (a : BitVec 5) (i : BitVec 16) : Encoding.Statement (.ldb d a i) := by
  rintro w - ⟨⟩
  obtain ⟨p0, f0, f1, f2, hm⟩ := word2 0x18#6 d a i
  unfold decodeWord; rw [p0]
  refine (fixed hm).trans ?_
  rw [f0, f1, f2]

theorem Encoding.ldbu (d : BitVec 5) (a : BitVec 5) (i : BitVec 16) : Encoding.Statement (.ldbu d a i) := by
  rintro w - ⟨⟩
  obtain ⟨p0, f0, f1, f2, hm⟩ := word2 0x19#6 d a i
  unfold decodeWord; rw [p0]
  refine (fixed hm).trans ?_
  rw [f0, f1, f2]

theorem Encoding.ldh (d : BitVec 5) (a : BitVec 5) (i : BitVec 16) : Encoding.Statement (.ldh d a i) := by
  rintro w - ⟨⟩
  obtain ⟨p0, f0, f1, f2, hm⟩ := word2 0x1A#6 d a i
  unfold decodeWord; rw [p0]
  refine (fixed hm).trans ?_
  rw [f0, f1, f2]

theorem Encoding.ldhu (d : BitVec 5) (a : BitVec 5) (i : BitVec 16) : Encoding.Statement (.ldhu d a i) := by
  rintro w - ⟨⟩
  obtain ⟨p0, f0, f1, f2, hm⟩ := word2 0x1B#6 d a i
  unfold decodeWord; rw [p0]
  refine (fixed hm).trans ?_
  rw [f0, f1, f2]

theorem Encoding.ldw (d : BitVec 5) (a : BitVec 5) (i : BitVec 16) : Encoding.Statement (.ldw d a i) := by
  rintro w - ⟨⟩
  obtain ⟨p0, f0, f1, f2, hm⟩ := word2 0x1C#6 d a i
  unfold decodeWord; rw [p0]
  refine (fixed hm).trans ?_
  rw [f0, f1, f2]

theorem Encoding.ldwu (d : BitVec 5) (a : BitVec 5) (i : BitVec 16) : Encoding.Statement (.ldwu d a i) := by
  rintro w - ⟨⟩
  obtain ⟨p0, f0, f1, f2, hm⟩ := word2 0x1D#6 d a i
  unfold decodeWord; rw [p0]
  refine (fixed hm).trans ?_
  rw [f0, f1, f2]

theorem Encoding.ldd (d : BitVec 5) (a : BitVec 5) (i : BitVec 16) : Encoding.Statement (.ldd d a i) := by
  rintro w - ⟨⟩
  obtain ⟨p0, f0, f1, f2, hm⟩ := word2 0x1E#6 d a i
  unfold decodeWord; rw [p0]
  refine (fixed hm).trans ?_
  rw [f0, f1, f2]

theorem Encoding.stb (d : BitVec 5) (a : BitVec 5) (i : BitVec 16) : Encoding.Statement (.stb d a i) := by
  rintro w - ⟨⟩
  obtain ⟨p0, f0, f1, f2, hm⟩ := word2 0x1F#6 d a i
  unfold decodeWord; rw [p0]
  refine (fixed hm).trans ?_
  rw [f0, f1, f2]

theorem Encoding.sth (d : BitVec 5) (a : BitVec 5) (i : BitVec 16) : Encoding.Statement (.sth d a i) := by
  rintro w - ⟨⟩
  obtain ⟨p0, f0, f1, f2, hm⟩ := word2 0x20#6 d a i
  unfold decodeWord; rw [p0]
  refine (fixed hm).trans ?_
  rw [f0, f1, f2]

theorem Encoding.stw (d : BitVec 5) (a : BitVec 5) (i : BitVec 16) : Encoding.Statement (.stw d a i) := by
  rintro w - ⟨⟩
  obtain ⟨p0, f0, f1, f2, hm⟩ := word2 0x21#6 d a i
  unfold decodeWord; rw [p0]
  refine (fixed hm).trans ?_
  rw [f0, f1, f2]

theorem Encoding.std (d : BitVec 5) (a : BitVec 5) (i : BitVec 16) : Encoding.Statement (.std d a i) := by
  rintro w - ⟨⟩
  obtain ⟨p0, f0, f1, f2, hm⟩ := word2 0x22#6 d a i
  unfold decodeWord; rw [p0]
  refine (fixed hm).trans ?_
  rw [f0, f1, f2]

theorem Encoding.amoadd (d : BitVec 5) (a : BitVec 5) (b : BitVec 5) (w : BitVec 1) : Encoding.Statement (.amoadd d a b w) := by
  rintro w - ⟨⟩
  obtain ⟨p0, p1, f0, f1, f2, f3, hm⟩ := word5 0x23#6 d a b w 0x0#10
  refine (major_decodeAtom p0).trans ?_
  unfold decodeAtom; rw [p1]
  refine (fixed hm).trans ?_
  rw [f0, f1, f2, f3]

theorem Encoding.amomin (d : BitVec 5) (a : BitVec 5) (b : BitVec 5) (w : BitVec 1) : Encoding.Statement (.amomin d a b w) := by
  rintro w - ⟨⟩
  obtain ⟨p0, p1, f0, f1, f2, f3, hm⟩ := word5 0x23#6 d a b w 0x1#10
  refine (major_decodeAtom p0).trans ?_
  unfold decodeAtom; rw [p1]
  refine (fixed hm).trans ?_
  rw [f0, f1, f2, f3]

theorem Encoding.amomax (d : BitVec 5) (a : BitVec 5) (b : BitVec 5) (w : BitVec 1) : Encoding.Statement (.amomax d a b w) := by
  rintro w - ⟨⟩
  obtain ⟨p0, p1, f0, f1, f2, f3, hm⟩ := word5 0x23#6 d a b w 0x2#10
  refine (major_decodeAtom p0).trans ?_
  unfold decodeAtom; rw [p1]
  refine (fixed hm).trans ?_
  rw [f0, f1, f2, f3]

theorem Encoding.amominu (d : BitVec 5) (a : BitVec 5) (b : BitVec 5) (w : BitVec 1) : Encoding.Statement (.amominu d a b w) := by
  rintro w - ⟨⟩
  obtain ⟨p0, p1, f0, f1, f2, f3, hm⟩ := word5 0x23#6 d a b w 0x3#10
  refine (major_decodeAtom p0).trans ?_
  unfold decodeAtom; rw [p1]
  refine (fixed hm).trans ?_
  rw [f0, f1, f2, f3]

theorem Encoding.amomaxu (d : BitVec 5) (a : BitVec 5) (b : BitVec 5) (w : BitVec 1) : Encoding.Statement (.amomaxu d a b w) := by
  rintro w - ⟨⟩
  obtain ⟨p0, p1, f0, f1, f2, f3, hm⟩ := word5 0x23#6 d a b w 0x4#10
  refine (major_decodeAtom p0).trans ?_
  unfold decodeAtom; rw [p1]
  refine (fixed hm).trans ?_
  rw [f0, f1, f2, f3]

theorem Encoding.amoand (d : BitVec 5) (a : BitVec 5) (b : BitVec 5) (w : BitVec 1) : Encoding.Statement (.amoand d a b w) := by
  rintro w - ⟨⟩
  obtain ⟨p0, p1, f0, f1, f2, f3, hm⟩ := word5 0x23#6 d a b w 0x5#10
  refine (major_decodeAtom p0).trans ?_
  unfold decodeAtom; rw [p1]
  refine (fixed hm).trans ?_
  rw [f0, f1, f2, f3]

theorem Encoding.amoor (d : BitVec 5) (a : BitVec 5) (b : BitVec 5) (w : BitVec 1) : Encoding.Statement (.amoor d a b w) := by
  rintro w - ⟨⟩
  obtain ⟨p0, p1, f0, f1, f2, f3, hm⟩ := word5 0x23#6 d a b w 0x6#10
  refine (major_decodeAtom p0).trans ?_
  unfold decodeAtom; rw [p1]
  refine (fixed hm).trans ?_
  rw [f0, f1, f2, f3]

theorem Encoding.amoxor (d : BitVec 5) (a : BitVec 5) (b : BitVec 5) (w : BitVec 1) : Encoding.Statement (.amoxor d a b w) := by
  rintro w - ⟨⟩
  obtain ⟨p0, p1, f0, f1, f2, f3, hm⟩ := word5 0x23#6 d a b w 0x7#10
  refine (major_decodeAtom p0).trans ?_
  unfold decodeAtom; rw [p1]
  refine (fixed hm).trans ?_
  rw [f0, f1, f2, f3]

theorem Encoding.amoswp (d : BitVec 5) (a : BitVec 5) (b : BitVec 5) (w : BitVec 1) : Encoding.Statement (.amoswp d a b w) := by
  rintro w - ⟨⟩
  obtain ⟨p0, p1, f0, f1, f2, f3, hm⟩ := word5 0x23#6 d a b w 0x8#10
  refine (major_decodeAtom p0).trans ?_
  unfold decodeAtom; rw [p1]
  refine (fixed hm).trans ?_
  rw [f0, f1, f2, f3]

theorem Encoding.amocas (d : BitVec 5) (a : BitVec 5) (b : BitVec 5) (w : BitVec 1) : Encoding.Statement (.amocas d a b w) := by
  rintro w - ⟨⟩
  obtain ⟨p0, p1, f0, f1, f2, f3, hm⟩ := word5 0x23#6 d a b w 0x9#10
  refine (major_decodeAtom p0).trans ?_
  unfold decodeAtom; rw [p1]
  refine (fixed hm).trans ?_
  rw [f0, f1, f2, f3]

theorem Encoding.redAdd (a : BitVec 5) (b : BitVec 5) (w : BitVec 1) : Encoding.Statement (.redAdd a b w) := by
  rintro w - ⟨⟩
  obtain ⟨p0, p1, f0, f1, f2, hm⟩ := word6 0x460#11 a b w 0x10#10
  refine (major_decodeAtom p0).trans ?_
  unfold decodeAtom; rw [p1]
  refine (fixed hm).trans ?_
  rw [f0, f1, f2]

theorem Encoding.redMin (a : BitVec 5) (b : BitVec 5) (w : BitVec 1) : Encoding.Statement (.redMin a b w) := by
  rintro w - ⟨⟩
  obtain ⟨p0, p1, f0, f1, f2, hm⟩ := word6 0x460#11 a b w 0x11#10
  refine (major_decodeAtom p0).trans ?_
  unfold decodeAtom; rw [p1]
  refine (fixed hm).trans ?_
  rw [f0, f1, f2]

theorem Encoding.redMax (a : BitVec 5) (b : BitVec 5) (w : BitVec 1) : Encoding.Statement (.redMax a b w) := by
  rintro w - ⟨⟩
  obtain ⟨p0, p1, f0, f1, f2, hm⟩ := word6 0x460#11 a b w 0x12#10
  refine (major_decodeAtom p0).trans ?_
  unfold decodeAtom; rw [p1]
  refine (fixed hm).trans ?_
  rw [f0, f1, f2]

theorem Encoding.redOr (a : BitVec 5) (b : BitVec 5) (w : BitVec 1) : Encoding.Statement (.redOr a b w) := by
  rintro w - ⟨⟩
  obtain ⟨p0, p1, f0, f1, f2, hm⟩ := word6 0x460#11 a b w 0x13#10
  refine (major_decodeAtom p0).trans ?_
  unfold decodeAtom; rw [p1]
  refine (fixed hm).trans ?_
  rw [f0, f1, f2]

theorem Encoding.redFadd (a : BitVec 5) (b : BitVec 5) : Encoding.Statement (.redFadd a b) := by
  rintro w - ⟨⟩
  obtain ⟨p0, p1, f0, f1, hm⟩ := word7 0x460#11 a b 0x414#11
  refine (major_decodeAtom p0).trans ?_
  unfold decodeAtom; rw [p1]
  refine (fixed hm).trans ?_
  rw [f0, f1]

theorem Encoding.redBadd (a : BitVec 5) (b : BitVec 5) : Encoding.Statement (.redBadd a b) := by
  rintro w - ⟨⟩
  obtain ⟨p0, p1, f0, f1, hm⟩ := word7 0x460#11 a b 0x415#11
  refine (major_decodeAtom p0).trans ?_
  unfold decodeAtom; rw [p1]
  refine (fixed hm).trans ?_
  rw [f0, f1]

theorem Encoding.ldhdr (d : BitVec 5) (a : BitVec 5) (o : BitVec 15) : Encoding.Statement (.ldhdr d a o) := by
  rintro w - ⟨⟩
  obtain ⟨p0, p1, f0, f1, f2, hm⟩ := word8 0x24#6 d a 0x0#1 o
  refine (major_decodeHdr p0).trans ?_
  unfold decodeHdr; rw [p1]
  refine (fixed hm).trans ?_
  rw [f0, f1, f2]

theorem Encoding.sthdr (d : BitVec 5) (a : BitVec 5) (o : BitVec 15) : Encoding.Statement (.sthdr d a o) := by
  rintro w - ⟨⟩
  obtain ⟨p0, p1, f0, f1, f2, hm⟩ := word8 0x24#6 d a 0x1#1 o
  refine (major_decodeHdr p0).trans ?_
  unfold decodeHdr; rw [p1]
  refine (fixed hm).trans ?_
  rw [f0, f1, f2]

theorem Encoding.vaddF (d : BitVec 5) (a : BitVec 5) (b : BitVec 5) (m : BitVec 3) : Encoding.Statement (.vaddF d a b m) := by
  rintro w - ⟨⟩
  obtain ⟨p0, p1, f0, f1, f2, f3, hm⟩ := word9 0x28#6 d a b m 0x0#8
  refine (major_decodeVarith p0).trans ?_
  unfold decodeVarith; rw [p1]
  refine (fixed hm).trans ?_
  rw [f0, f1, f2, f3]

theorem Encoding.vsubF (d : BitVec 5) (a : BitVec 5) (b : BitVec 5) (m : BitVec 3) : Encoding.Statement (.vsubF d a b m) := by
  rintro w - ⟨⟩
  obtain ⟨p0, p1, f0, f1, f2, f3, hm⟩ := word9 0x28#6 d a b m 0x1#8
  refine (major_decodeVarith p0).trans ?_
  unfold decodeVarith; rw [p1]
  refine (fixed hm).trans ?_
  rw [f0, f1, f2, f3]

theorem Encoding.vmulF (d : BitVec 5) (a : BitVec 5) (b : BitVec 5) (m : BitVec 3) : Encoding.Statement (.vmulF d a b m) := by
  rintro w - ⟨⟩
  obtain ⟨p0, p1, f0, f1, f2, f3, hm⟩ := word9 0x28#6 d a b m 0x2#8
  refine (major_decodeVarith p0).trans ?_
  unfold decodeVarith; rw [p1]
  refine (fixed hm).trans ?_
  rw [f0, f1, f2, f3]

theorem Encoding.vfmaF (d : BitVec 5) (a : BitVec 5) (b : BitVec 5) (m : BitVec 3) : Encoding.Statement (.vfmaF d a b m) := by
  rintro w - ⟨⟩
  obtain ⟨p0, p1, f0, f1, f2, f3, hm⟩ := word9 0x28#6 d a b m 0x3#8
  refine (major_decodeVarith p0).trans ?_
  unfold decodeVarith; rw [p1]
  refine (fixed hm).trans ?_
  rw [f0, f1, f2, f3]

theorem Encoding.vminF (d : BitVec 5) (a : BitVec 5) (b : BitVec 5) (m : BitVec 3) : Encoding.Statement (.vminF d a b m) := by
  rintro w - ⟨⟩
  obtain ⟨p0, p1, f0, f1, f2, f3, hm⟩ := word9 0x28#6 d a b m 0x4#8
  refine (major_decodeVarith p0).trans ?_
  unfold decodeVarith; rw [p1]
  refine (fixed hm).trans ?_
  rw [f0, f1, f2, f3]

theorem Encoding.vmaxF (d : BitVec 5) (a : BitVec 5) (b : BitVec 5) (m : BitVec 3) : Encoding.Statement (.vmaxF d a b m) := by
  rintro w - ⟨⟩
  obtain ⟨p0, p1, f0, f1, f2, f3, hm⟩ := word9 0x28#6 d a b m 0x5#8
  refine (major_decodeVarith p0).trans ?_
  unfold decodeVarith; rw [p1]
  refine (fixed hm).trans ?_
  rw [f0, f1, f2, f3]

theorem Encoding.vabsF (d : BitVec 5) (a : BitVec 5) (m : BitVec 3) : Encoding.Statement (.vabsF d a m) := by
  rintro w - ⟨⟩
  obtain ⟨p0, p1, f0, f1, f2, hm⟩ := word10 0x28#6 d a 0x0#5 m 0x6#8
  refine (major_decodeVarith p0).trans ?_
  unfold decodeVarith; rw [p1]
  refine (fixed hm).trans ?_
  rw [f0, f1, f2]

theorem Encoding.vnegF (d : BitVec 5) (a : BitVec 5) (m : BitVec 3) : Encoding.Statement (.vnegF d a m) := by
  rintro w - ⟨⟩
  obtain ⟨p0, p1, f0, f1, f2, hm⟩ := word10 0x28#6 d a 0x0#5 m 0x7#8
  refine (major_decodeVarith p0).trans ?_
  unfold decodeVarith; rw [p1]
  refine (fixed hm).trans ?_
  rw [f0, f1, f2]

theorem Encoding.vrcp (d : BitVec 5) (a : BitVec 5) (m : BitVec 3) : Encoding.Statement (.vrcp d a m) := by
  rintro w - ⟨⟩
  obtain ⟨p0, p1, f0, f1, f2, hm⟩ := word10 0x28#6 d a 0x0#5 m 0x8#8
  refine (major_decodeVarith p0).trans ?_
  unfold decodeVarith; rw [p1]
  refine (fixed hm).trans ?_
  rw [f0, f1, f2]

theorem Encoding.vrsq (d : BitVec 5) (a : BitVec 5) (m : BitVec 3) : Encoding.Statement (.vrsq d a m) := by
  rintro w - ⟨⟩
  obtain ⟨p0, p1, f0, f1, f2, hm⟩ := word10 0x28#6 d a 0x0#5 m 0x9#8
  refine (major_decodeVarith p0).trans ?_
  unfold decodeVarith; rw [p1]
  refine (fixed hm).trans ?_
  rw [f0, f1, f2]

theorem Encoding.vexp2 (d : BitVec 5) (a : BitVec 5) (m : BitVec 3) : Encoding.Statement (.vexp2 d a m) := by
  rintro w - ⟨⟩
  obtain ⟨p0, p1, f0, f1, f2, hm⟩ := word10 0x28#6 d a 0x0#5 m 0xA#8
  refine (major_decodeVarith p0).trans ?_
  unfold decodeVarith; rw [p1]
  refine (fixed hm).trans ?_
  rw [f0, f1, f2]

theorem Encoding.vlog2 (d : BitVec 5) (a : BitVec 5) (m : BitVec 3) : Encoding.Statement (.vlog2 d a m) := by
  rintro w - ⟨⟩
  obtain ⟨p0, p1, f0, f1, f2, hm⟩ := word10 0x28#6 d a 0x0#5 m 0xB#8
  refine (major_decodeVarith p0).trans ?_
  unfold decodeVarith; rw [p1]
  refine (fixed hm).trans ?_
  rw [f0, f1, f2]

theorem Encoding.vaddI (d : BitVec 5) (a : BitVec 5) (b : BitVec 5) (m : BitVec 3) : Encoding.Statement (.vaddI d a b m) := by
  rintro w - ⟨⟩
  obtain ⟨p0, p1, f0, f1, f2, f3, hm⟩ := word9 0x28#6 d a b m 0xC#8
  refine (major_decodeVarith p0).trans ?_
  unfold decodeVarith; rw [p1]
  refine (fixed hm).trans ?_
  rw [f0, f1, f2, f3]

theorem Encoding.vsubI (d : BitVec 5) (a : BitVec 5) (b : BitVec 5) (m : BitVec 3) : Encoding.Statement (.vsubI d a b m) := by
  rintro w - ⟨⟩
  obtain ⟨p0, p1, f0, f1, f2, f3, hm⟩ := word9 0x28#6 d a b m 0xD#8
  refine (major_decodeVarith p0).trans ?_
  unfold decodeVarith; rw [p1]
  refine (fixed hm).trans ?_
  rw [f0, f1, f2, f3]

theorem Encoding.vmulI (d : BitVec 5) (a : BitVec 5) (b : BitVec 5) (m : BitVec 3) : Encoding.Statement (.vmulI d a b m) := by
  rintro w - ⟨⟩
  obtain ⟨p0, p1, f0, f1, f2, f3, hm⟩ := word9 0x28#6 d a b m 0xE#8
  refine (major_decodeVarith p0).trans ?_
  unfold decodeVarith; rw [p1]
  refine (fixed hm).trans ?_
  rw [f0, f1, f2, f3]

theorem Encoding.vand (d : BitVec 5) (a : BitVec 5) (b : BitVec 5) (m : BitVec 3) : Encoding.Statement (.vand d a b m) := by
  rintro w - ⟨⟩
  obtain ⟨p0, p1, f0, f1, f2, f3, hm⟩ := word9 0x28#6 d a b m 0xF#8
  refine (major_decodeVarith p0).trans ?_
  unfold decodeVarith; rw [p1]
  refine (fixed hm).trans ?_
  rw [f0, f1, f2, f3]

theorem Encoding.vor (d : BitVec 5) (a : BitVec 5) (b : BitVec 5) (m : BitVec 3) : Encoding.Statement (.vor d a b m) := by
  rintro w - ⟨⟩
  obtain ⟨p0, p1, f0, f1, f2, f3, hm⟩ := word9 0x28#6 d a b m 0x10#8
  refine (major_decodeVarith p0).trans ?_
  unfold decodeVarith; rw [p1]
  refine (fixed hm).trans ?_
  rw [f0, f1, f2, f3]

theorem Encoding.vxor (d : BitVec 5) (a : BitVec 5) (b : BitVec 5) (m : BitVec 3) : Encoding.Statement (.vxor d a b m) := by
  rintro w - ⟨⟩
  obtain ⟨p0, p1, f0, f1, f2, f3, hm⟩ := word9 0x28#6 d a b m 0x11#8
  refine (major_decodeVarith p0).trans ?_
  unfold decodeVarith; rw [p1]
  refine (fixed hm).trans ?_
  rw [f0, f1, f2, f3]

theorem Encoding.vsll (d : BitVec 5) (a : BitVec 5) (b : BitVec 5) (m : BitVec 3) : Encoding.Statement (.vsll d a b m) := by
  rintro w - ⟨⟩
  obtain ⟨p0, p1, f0, f1, f2, f3, hm⟩ := word9 0x28#6 d a b m 0x12#8
  refine (major_decodeVarith p0).trans ?_
  unfold decodeVarith; rw [p1]
  refine (fixed hm).trans ?_
  rw [f0, f1, f2, f3]

theorem Encoding.vsrl (d : BitVec 5) (a : BitVec 5) (b : BitVec 5) (m : BitVec 3) : Encoding.Statement (.vsrl d a b m) := by
  rintro w - ⟨⟩
  obtain ⟨p0, p1, f0, f1, f2, f3, hm⟩ := word9 0x28#6 d a b m 0x13#8
  refine (major_decodeVarith p0).trans ?_
  unfold decodeVarith; rw [p1]
  refine (fixed hm).trans ?_
  rw [f0, f1, f2, f3]

theorem Encoding.vsra (d : BitVec 5) (a : BitVec 5) (b : BitVec 5) (m : BitVec 3) : Encoding.Statement (.vsra d a b m) := by
  rintro w - ⟨⟩
  obtain ⟨p0, p1, f0, f1, f2, f3, hm⟩ := word9 0x28#6 d a b m 0x14#8
  refine (major_decodeVarith p0).trans ?_
  unfold decodeVarith; rw [p1]
  refine (fixed hm).trans ?_
  rw [f0, f1, f2, f3]

theorem Encoding.vminI (d : BitVec 5) (a : BitVec 5) (b : BitVec 5) (m : BitVec 3) : Encoding.Statement (.vminI d a b m) := by
  rintro w - ⟨⟩
  obtain ⟨p0, p1, f0, f1, f2, f3, hm⟩ := word9 0x28#6 d a b m 0x15#8
  refine (major_decodeVarith p0).trans ?_
  unfold decodeVarith; rw [p1]
  refine (fixed hm).trans ?_
  rw [f0, f1, f2, f3]

theorem Encoding.vmaxI (d : BitVec 5) (a : BitVec 5) (b : BitVec 5) (m : BitVec 3) : Encoding.Statement (.vmaxI d a b m) := by
  rintro w - ⟨⟩
  obtain ⟨p0, p1, f0, f1, f2, f3, hm⟩ := word9 0x28#6 d a b m 0x16#8
  refine (major_decodeVarith p0).trans ?_
  unfold decodeVarith; rw [p1]
  refine (fixed hm).trans ?_
  rw [f0, f1, f2, f3]

theorem Encoding.vbcast (d : BitVec 5) (a : BitVec 5) (m : BitVec 3) : Encoding.Statement (.vbcast d a m) := by
  rintro w - ⟨⟩
  obtain ⟨p0, p1, f0, f1, f2, hm⟩ := word10 0x28#6 d a 0x0#5 m 0x18#8
  refine (major_decodeVarith p0).trans ?_
  unfold decodeVarith; rw [p1]
  refine (fixed hm).trans ?_
  rw [f0, f1, f2]

theorem Encoding.vext (d : BitVec 5) (a : BitVec 5) (b : BitVec 5) : Encoding.Statement (.vext d a b) := by
  rintro w - ⟨⟩
  obtain ⟨p0, p1, f0, f1, f2, hm⟩ := word11 0x28#6 d a b 0x19#11
  refine (major_decodeVarith p0).trans ?_
  unfold decodeVarith; rw [p1]
  refine (fixed hm).trans ?_
  rw [f0, f1, f2]

theorem Encoding.vredsumF (d : BitVec 5) (a : BitVec 5) (m : BitVec 3) : Encoding.Statement (.vredsumF d a m) := by
  rintro w - ⟨⟩
  obtain ⟨p0, p1, f0, f1, f2, hm⟩ := word10 0x28#6 d a 0x0#5 m 0x1A#8
  refine (major_decodeVarith p0).trans ?_
  unfold decodeVarith; rw [p1]
  refine (fixed hm).trans ?_
  rw [f0, f1, f2]

theorem Encoding.vredmaxF (d : BitVec 5) (a : BitVec 5) (m : BitVec 3) : Encoding.Statement (.vredmaxF d a m) := by
  rintro w - ⟨⟩
  obtain ⟨p0, p1, f0, f1, f2, hm⟩ := word10 0x28#6 d a 0x0#5 m 0x1B#8
  refine (major_decodeVarith p0).trans ?_
  unfold decodeVarith; rw [p1]
  refine (fixed hm).trans ?_
  rw [f0, f1, f2]

theorem Encoding.vperm (d : BitVec 5) (a : BitVec 5) (b : BitVec 5) (m : BitVec 3) : Encoding.Statement (.vperm d a b m) := by
  rintro w - ⟨⟩
  obtain ⟨p0, p1, f0, f1, f2, f3, hm⟩ := word9 0x28#6 d a b m 0x1C#8
  refine (major_decodeVarith p0).trans ?_
  unfold decodeVarith; rw [p1]
  refine (fixed hm).trans ?_
  rw [f0, f1, f2, f3]

theorem Encoding.viota (d : BitVec 5) (m : BitVec 3) : Encoding.Statement (.viota d m) := by
  rintro w - ⟨⟩
  obtain ⟨p0, p1, f0, f1, hm⟩ := word12 0x28#6 d 0x0#10 m 0x1D#8
  refine (major_decodeVarith p0).trans ?_
  unfold decodeVarith; rw [p1]
  refine (fixed hm).trans ?_
  rw [f0, f1]

theorem Encoding.vscal (d : BitVec 5) (a : BitVec 5) (b : BitVec 5) (m : BitVec 3) : Encoding.Statement (.vscal d a b m) := by
  rintro w - ⟨⟩
  obtain ⟨p0, p1, f0, f1, f2, f3, hm⟩ := word9 0x28#6 d a b m 0x1E#8
  refine (major_decodeVarith p0).trans ?_
  unfold decodeVarith; rw [p1]
  refine (fixed hm).trans ?_
  rw [f0, f1, f2, f3]

theorem Encoding.vaddD (d : BitVec 5) (a : BitVec 5) (b : BitVec 5) (m : BitVec 3) : Encoding.Statement (.vaddD d a b m) := by
  rintro w - ⟨⟩
  obtain ⟨p0, p1, f0, f1, f2, f3, hm⟩ := word9 0x28#6 d a b m 0x40#8
  refine (major_decodeVarith p0).trans ?_
  unfold decodeVarith; rw [p1]
  refine (fixed hm).trans ?_
  rw [f0, f1, f2, f3]

theorem Encoding.vsubD (d : BitVec 5) (a : BitVec 5) (b : BitVec 5) (m : BitVec 3) : Encoding.Statement (.vsubD d a b m) := by
  rintro w - ⟨⟩
  obtain ⟨p0, p1, f0, f1, f2, f3, hm⟩ := word9 0x28#6 d a b m 0x41#8
  refine (major_decodeVarith p0).trans ?_
  unfold decodeVarith; rw [p1]
  refine (fixed hm).trans ?_
  rw [f0, f1, f2, f3]

theorem Encoding.vmulD (d : BitVec 5) (a : BitVec 5) (b : BitVec 5) (m : BitVec 3) : Encoding.Statement (.vmulD d a b m) := by
  rintro w - ⟨⟩
  obtain ⟨p0, p1, f0, f1, f2, f3, hm⟩ := word9 0x28#6 d a b m 0x42#8
  refine (major_decodeVarith p0).trans ?_
  unfold decodeVarith; rw [p1]
  refine (fixed hm).trans ?_
  rw [f0, f1, f2, f3]

theorem Encoding.vfmaD (d : BitVec 5) (a : BitVec 5) (b : BitVec 5) (m : BitVec 3) : Encoding.Statement (.vfmaD d a b m) := by
  rintro w - ⟨⟩
  obtain ⟨p0, p1, f0, f1, f2, f3, hm⟩ := word9 0x28#6 d a b m 0x43#8
  refine (major_decodeVarith p0).trans ?_
  unfold decodeVarith; rw [p1]
  refine (fixed hm).trans ?_
  rw [f0, f1, f2, f3]

theorem Encoding.vcmpeqF (d : BitVec 3) (a : BitVec 5) (b : BitVec 5) (m : BitVec 3) : Encoding.Statement (.vcmpeqF d a b m) := by
  rintro w - ⟨⟩
  obtain ⟨p0, p1, f0, f1, f2, f3, hm⟩ := word13 0xA4#8 d a b m 0x0#8
  refine (major_decodeVcmp p0).trans ?_
  unfold decodeVcmp; rw [p1]
  refine (fixed hm).trans ?_
  rw [f0, f1, f2, f3]

theorem Encoding.vcmpltF (d : BitVec 3) (a : BitVec 5) (b : BitVec 5) (m : BitVec 3) : Encoding.Statement (.vcmpltF d a b m) := by
  rintro w - ⟨⟩
  obtain ⟨p0, p1, f0, f1, f2, f3, hm⟩ := word13 0xA4#8 d a b m 0x1#8
  refine (major_decodeVcmp p0).trans ?_
  unfold decodeVcmp; rw [p1]
  refine (fixed hm).trans ?_
  rw [f0, f1, f2, f3]

theorem Encoding.vcmpleF (d : BitVec 3) (a : BitVec 5) (b : BitVec 5) (m : BitVec 3) : Encoding.Statement (.vcmpleF d a b m) := by
  rintro w - ⟨⟩
  obtain ⟨p0, p1, f0, f1, f2, f3, hm⟩ := word13 0xA4#8 d a b m 0x2#8
  refine (major_decodeVcmp p0).trans ?_
  unfold decodeVcmp; rw [p1]
  refine (fixed hm).trans ?_
  rw [f0, f1, f2, f3]

theorem Encoding.vcmpunF (d : BitVec 3) (a : BitVec 5) (b : BitVec 5) (m : BitVec 3) : Encoding.Statement (.vcmpunF d a b m) := by
  rintro w - ⟨⟩
  obtain ⟨p0, p1, f0, f1, f2, f3, hm⟩ := word13 0xA4#8 d a b m 0x3#8
  refine (major_decodeVcmp p0).trans ?_
  unfold decodeVcmp; rw [p1]
  refine (fixed hm).trans ?_
  rw [f0, f1, f2, f3]

theorem Encoding.vcmpeqI (d : BitVec 3) (a : BitVec 5) (b : BitVec 5) (m : BitVec 3) : Encoding.Statement (.vcmpeqI d a b m) := by
  rintro w - ⟨⟩
  obtain ⟨p0, p1, f0, f1, f2, f3, hm⟩ := word13 0xA4#8 d a b m 0x4#8
  refine (major_decodeVcmp p0).trans ?_
  unfold decodeVcmp; rw [p1]
  refine (fixed hm).trans ?_
  rw [f0, f1, f2, f3]

theorem Encoding.vcmpltI (d : BitVec 3) (a : BitVec 5) (b : BitVec 5) (m : BitVec 3) : Encoding.Statement (.vcmpltI d a b m) := by
  rintro w - ⟨⟩
  obtain ⟨p0, p1, f0, f1, f2, f3, hm⟩ := word13 0xA4#8 d a b m 0x5#8
  refine (major_decodeVcmp p0).trans ?_
  unfold decodeVcmp; rw [p1]
  refine (fixed hm).trans ?_
  rw [f0, f1, f2, f3]

theorem Encoding.vcmpltuI (d : BitVec 3) (a : BitVec 5) (b : BitVec 5) (m : BitVec 3) : Encoding.Statement (.vcmpltuI d a b m) := by
  rintro w - ⟨⟩
  obtain ⟨p0, p1, f0, f1, f2, f3, hm⟩ := word13 0xA4#8 d a b m 0x6#8
  refine (major_decodeVcmp p0).trans ?_
  unfold decodeVcmp; rw [p1]
  refine (fixed hm).trans ?_
  rw [f0, f1, f2, f3]

theorem Encoding.vsel (d : BitVec 5) (a : BitVec 5) (b : BitVec 5) (m : BitVec 3) : Encoding.Statement (.vsel d a b m) := by
  rintro w - ⟨⟩
  obtain ⟨p0, p1, f0, f1, f2, f3, hm⟩ := word9 0x29#6 d a b m 0x10#8
  refine (major_decodeVcmp p0).trans ?_
  unfold decodeVcmp; rw [p1]
  refine (fixed hm).trans ?_
  rw [f0, f1, f2, f3]

theorem Encoding.mand (d : BitVec 3) (a : BitVec 3) (b : BitVec 3) : Encoding.Statement (.mand d a b) := by
  rintro w - ⟨⟩
  obtain ⟨p0, p1, f0, f1, f2, hm⟩ := word14 0xA4#8 d 0x0#2 a 0x0#2 b 0x20#11
  refine (major_decodeVcmp p0).trans ?_
  unfold decodeVcmp; rw [p1]
  refine (fixed hm).trans ?_
  rw [f0, f1, f2]

theorem Encoding.mor (d : BitVec 3) (a : BitVec 3) (b : BitVec 3) : Encoding.Statement (.mor d a b) := by
  rintro w - ⟨⟩
  obtain ⟨p0, p1, f0, f1, f2, hm⟩ := word14 0xA4#8 d 0x0#2 a 0x0#2 b 0x21#11
  refine (major_decodeVcmp p0).trans ?_
  unfold decodeVcmp; rw [p1]
  refine (fixed hm).trans ?_
  rw [f0, f1, f2]

theorem Encoding.mxor (d : BitVec 3) (a : BitVec 3) (b : BitVec 3) : Encoding.Statement (.mxor d a b) := by
  rintro w - ⟨⟩
  obtain ⟨p0, p1, f0, f1, f2, hm⟩ := word14 0xA4#8 d 0x0#2 a 0x0#2 b 0x22#11
  refine (major_decodeVcmp p0).trans ?_
  unfold decodeVcmp; rw [p1]
  refine (fixed hm).trans ?_
  rw [f0, f1, f2]

theorem Encoding.mnot (d : BitVec 3) (a : BitVec 3) : Encoding.Statement (.mnot d a) := by
  rintro w - ⟨⟩
  obtain ⟨p0, p1, f0, f1, hm⟩ := word15 0xA4#8 d 0x0#2 a 0x23#16
  refine (major_decodeVcmp p0).trans ?_
  unfold decodeVcmp; rw [p1]
  refine (fixed hm).trans ?_
  rw [f0, f1]

theorem Encoding.mpop (d : BitVec 5) (a : BitVec 3) : Encoding.Statement (.mpop d a) := by
  rintro w - ⟨⟩
  obtain ⟨p0, p1, f0, f1, hm⟩ := word16 0x29#6 d 0x0#2 a 0x24#16
  refine (major_decodeVcmp p0).trans ?_
  unfold decodeVcmp; rw [p1]
  refine (fixed hm).trans ?_
  rw [f0, f1]

theorem Encoding.mset (d : BitVec 3) (a : BitVec 5) : Encoding.Statement (.mset d a) := by
  rintro w - ⟨⟩
  obtain ⟨p0, p1, f0, f1, hm⟩ := word17 0xA4#8 d a 0x25#16
  refine (major_decodeVcmp p0).trans ?_
  unfold decodeVcmp; rw [p1]
  refine (fixed hm).trans ?_
  rw [f0, f1]

theorem Encoding.vld (d : BitVec 5) (a : BitVec 5) (i : BitVec 16) : Encoding.Statement (.vld d a i) := by
  rintro w - ⟨⟩
  obtain ⟨p0, f0, f1, f2, hm⟩ := word2 0x2A#6 d a i
  unfold decodeWord; rw [p0]
  refine (fixed hm).trans ?_
  rw [f0, f1, f2]

theorem Encoding.vst (d : BitVec 5) (a : BitVec 5) (i : BitVec 16) : Encoding.Statement (.vst d a i) := by
  rintro w - ⟨⟩
  obtain ⟨p0, f0, f1, f2, hm⟩ := word2 0x2B#6 d a i
  unfold decodeWord; rw [p0]
  refine (fixed hm).trans ?_
  rw [f0, f1, f2]

theorem Encoding.vlds (d : BitVec 5) (a : BitVec 5) (b : BitVec 5) (m : BitVec 3) : Encoding.Statement (.vlds d a b m) := by
  rintro w - ⟨⟩
  obtain ⟨p0, p1, f0, f1, f2, f3, hm⟩ := word9 0x2C#6 d a b m 0x0#8
  refine (major_decodeVmemx p0).trans ?_
  unfold decodeVmemx; rw [p1]
  refine (fixed hm).trans ?_
  rw [f0, f1, f2, f3]

theorem Encoding.vsts (d : BitVec 5) (a : BitVec 5) (b : BitVec 5) (m : BitVec 3) : Encoding.Statement (.vsts d a b m) := by
  rintro w - ⟨⟩
  obtain ⟨p0, p1, f0, f1, f2, f3, hm⟩ := word9 0x2C#6 d a b m 0x1#8
  refine (major_decodeVmemx p0).trans ?_
  unfold decodeVmemx; rw [p1]
  refine (fixed hm).trans ?_
  rw [f0, f1, f2, f3]

theorem Encoding.vgather (d : BitVec 5) (a : BitVec 5) (b : BitVec 5) (m : BitVec 3) : Encoding.Statement (.vgather d a b m) := by
  rintro w - ⟨⟩
  obtain ⟨p0, p1, f0, f1, f2, f3, hm⟩ := word9 0x2C#6 d a b m 0x2#8
  refine (major_decodeVmemx p0).trans ?_
  unfold decodeVmemx; rw [p1]
  refine (fixed hm).trans ?_
  rw [f0, f1, f2, f3]

theorem Encoding.vscatter (d : BitVec 5) (a : BitVec 5) (b : BitVec 5) (m : BitVec 3) : Encoding.Statement (.vscatter d a b m) := by
  rintro w - ⟨⟩
  obtain ⟨p0, p1, f0, f1, f2, f3, hm⟩ := word9 0x2C#6 d a b m 0x3#8
  refine (major_decodeVmemx p0).trans ?_
  unfold decodeVmemx; rw [p1]
  refine (fixed hm).trans ?_
  rw [f0, f1, f2, f3]

theorem Encoding.vcompress (d : BitVec 5) (a : BitVec 5) (m : BitVec 3) : Encoding.Statement (.vcompress d a m) := by
  rintro w - ⟨⟩
  obtain ⟨p0, p1, f0, f1, f2, hm⟩ := word10 0x2C#6 d a 0x0#5 m 0x4#8
  refine (major_decodeVmemx p0).trans ?_
  unfold decodeVmemx; rw [p1]
  refine (fixed hm).trans ?_
  rw [f0, f1, f2]

theorem Encoding.vexpand (d : BitVec 5) (a : BitVec 5) (m : BitVec 3) : Encoding.Statement (.vexpand d a m) := by
  rintro w - ⟨⟩
  obtain ⟨p0, p1, f0, f1, f2, hm⟩ := word10 0x2C#6 d a 0x0#5 m 0x5#8
  refine (major_decodeVmemx p0).trans ?_
  unfold decodeVmemx; rw [p1]
  refine (fixed hm).trans ?_
  rw [f0, f1, f2]

theorem Encoding.vdec (d : BitVec 5) (a : BitVec 5) (p : BitVec 2) : Encoding.Statement (.vdec d a p) := by
  rintro w - ⟨⟩
  obtain ⟨p0, p1, f0, f1, f2, hm⟩ := word18 0x2D#6 d a 0x0#3 p 0x0#11
  refine (major_decodeVconv p0).trans ?_
  unfold decodeVconv; rw [p1]
  refine (fixed hm).trans ?_
  rw [f0, f1, f2]

theorem Encoding.venc (d : BitVec 5) (a : BitVec 5) (b : BitVec 5) : Encoding.Statement (.venc d a b) := by
  rintro w - ⟨⟩
  obtain ⟨p0, p1, f0, f1, f2, hm⟩ := word11 0x2D#6 d a b 0x1#11
  refine (major_decodeVconv p0).trans ?_
  unfold decodeVconv; rw [p1]
  refine (fixed hm).trans ?_
  rw [f0, f1, f2]

theorem Encoding.vencAuto (d : BitVec 5) (a : BitVec 5) (b : BitVec 5) : Encoding.Statement (.vencAuto d a b) := by
  rintro w - ⟨⟩
  obtain ⟨p0, p1, f0, f1, f2, hm⟩ := word11 0x2D#6 d a b 0x81#11
  refine (major_decodeVconv p0).trans ?_
  unfold decodeVconv; rw [p1]
  refine (fixed hm).trans ?_
  rw [f0, f1, f2]

theorem Encoding.vcvt (d : BitVec 5) (a : BitVec 5) (s : BitVec 5) (m : BitVec 3) : Encoding.Statement (.vcvt d a s m) := by
  rintro w wf ⟨⟩
  obtain ⟨p0, p1, f0, f1, f2, f3, q, hm⟩ := word19 0x2D#6 d a s m 0x2#8
  refine (major_decodeVconv p0).trans ?_
  unfold decodeVconv; rw [p1]
  refine (if_pos ?_).trans ((fixed hm).trans ?_)
  · simpa [Instr.wellFormed, Instr.engineLegal, Instr.selectorLegal, Instr.levelLegal, q] using wf
  · rw [f0, f1, f2, f3]

theorem Encoding.vcvts (d : BitVec 5) (a : BitVec 5) (b : BitVec 5) (m : BitVec 3) : Encoding.Statement (.vcvts d a b m) := by
  rintro w - ⟨⟩
  obtain ⟨p0, p1, f0, f1, f2, f3, hm⟩ := word9 0x2D#6 d a b m 0x3#8
  refine (major_decodeVconv p0).trans ?_
  unfold decodeVconv; rw [p1]
  refine (fixed hm).trans ?_
  rw [f0, f1, f2, f3]

theorem Encoding.send (a : BitVec 5) (b : BitVec 5) (r : BitVec 1) : Encoding.Statement (.send a b r) := by
  rintro w - ⟨⟩
  obtain ⟨p0, p1, f0, f1, f2, hm⟩ := word6 0x600#11 a b r 0x0#10
  refine (major_decodeMsg p0).trans ?_
  unfold decodeMsg; rw [p1]
  refine (fixed hm).trans ?_
  rw [f0, f1, f2]

theorem Encoding.sendc (a : BitVec 5) (b : BitVec 5) (r : BitVec 1) : Encoding.Statement (.sendc a b r) := by
  rintro w - ⟨⟩
  obtain ⟨p0, p1, f0, f1, f2, hm⟩ := word6 0x600#11 a b r 0x1#10
  refine (major_decodeMsg p0).trans ?_
  unfold decodeMsg; rw [p1]
  refine (fixed hm).trans ?_
  rw [f0, f1, f2]

theorem Encoding.patset (d : BitVec 5) (a : BitVec 5) : Encoding.Statement (.patset d a) := by
  rintro w - ⟨⟩
  obtain ⟨p0, p1, f0, f1, hm⟩ := word1 0x31#6 d a 0x0#16
  refine (major_decodePat p0).trans ?_
  unfold decodePat; rw [p1]
  refine (fixed hm).trans ?_
  rw [f0, f1]

theorem Encoding.patclr (a : BitVec 5) : Encoding.Statement (.patclr a) := by
  rintro w - ⟨⟩
  obtain ⟨p0, p1, f0, hm⟩ := word20 0x620#11 a 0x1#16
  refine (major_decodePat p0).trans ?_
  unfold decodePat; rw [p1]
  refine (fixed hm).trans ?_
  rw [f0]

theorem Encoding.chcfg (d : BitVec 5) (a : BitVec 5) (b : BitVec 5) : Encoding.Statement (.chcfg d a b) := by
  rintro w - ⟨⟩
  obtain ⟨p0, p1, f0, f1, f2, hm⟩ := word0 0x31#6 d a b 0x2#11
  refine (major_decodePat p0).trans ?_
  unfold decodePat; rw [p1]
  refine (fixed hm).trans ?_
  rw [f0, f1, f2]

theorem Encoding.chcnt (d : BitVec 5) (a : BitVec 5) : Encoding.Statement (.chcnt d a) := by
  rintro w - ⟨⟩
  obtain ⟨p0, p1, f0, f1, hm⟩ := word1 0x31#6 d a 0x3#16
  refine (major_decodePat p0).trans ?_
  unfold decodePat; rw [p1]
  refine (fixed hm).trans ?_
  rw [f0, f1]

theorem Encoding.flush : Encoding.Statement .flush := by
  rintro w - ⟨⟩
  rfl

theorem Encoding.flushd (a : BitVec 5) : Encoding.Statement (.flushd a) := by
  rintro w - ⟨⟩
  obtain ⟨p0, p1, f0, hm⟩ := word20 0x640#11 a 0x1#16
  refine (major_decodeFab p0).trans ?_
  unfold decodeFab; rw [p1]
  refine (fixed hm).trans ?_
  rw [f0]

theorem Encoding.fenceRel : Encoding.Statement .fenceRel := by
  rintro w - ⟨⟩
  rfl

theorem Encoding.fenceAcq : Encoding.Statement .fenceAcq := by
  rintro w - ⟨⟩
  rfl

theorem Encoding.fenceAll : Encoding.Statement .fenceAll := by
  rintro w - ⟨⟩
  rfl

theorem Encoding.aggst (d : BitVec 5) : Encoding.Statement (.aggst d) := by
  rintro w - ⟨⟩
  obtain ⟨p0, p1, f0, hm⟩ := word21 0x32#6 d 0x5#21
  refine (major_decodeFab p0).trans ?_
  unfold decodeFab; rw [p1]
  refine (fixed hm).trans ?_
  rw [f0]

theorem Encoding.aggcfg (a : BitVec 5) (b : BitVec 5) : Encoding.Statement (.aggcfg a b) := by
  rintro w - ⟨⟩
  obtain ⟨p0, p1, f0, f1, hm⟩ := word22 0x640#11 a b 0x6#11
  refine (major_decodeFab p0).trans ?_
  unfold decodeFab; rw [p1]
  refine (fixed hm).trans ?_
  rw [f0, f1]

theorem Encoding.stg (n : BitVec 2) (a : BitVec 5) : Encoding.Statement (.stg n a) := by
  rintro w - ⟨⟩
  obtain ⟨p0, p1, f0, f1, hm⟩ := word23 0x198#9 n a 0x0#16
  refine (major_decodeEng p0).trans ?_
  unfold decodeEng; rw [p1]
  refine (fixed hm).trans ?_
  rw [f0, f1]

theorem Encoding.enq (d : BitVec 5) (e : BitVec 5) : Encoding.Statement (.enq d e) := by
  rintro w wf ⟨⟩
  obtain ⟨p0, p1, f0, f1, hm⟩ := word24 0x33#6 d 0x0#5 e 0x1#11
  refine (major_decodeEng p0).trans ?_
  unfold decodeEng; rw [p1]
  refine (if_pos ?_).trans ((fixed hm).trans ?_)
  · simpa [Instr.wellFormed, Instr.engineLegal, Instr.selectorLegal, Instr.levelLegal, f1] using wf
  · rw [f0, f1]

theorem Encoding.tkst (d : BitVec 5) (a : BitVec 5) : Encoding.Statement (.tkst d a) := by
  rintro w - ⟨⟩
  obtain ⟨p0, p1, f0, f1, hm⟩ := word1 0x33#6 d a 0x2#16
  refine (major_decodeEng p0).trans ?_
  unfold decodeEng; rw [p1]
  refine (fixed hm).trans ?_
  rw [f0, f1]

theorem Encoding.ecancel (d : BitVec 5) (a : BitVec 5) : Encoding.Statement (.ecancel d a) := by
  rintro w - ⟨⟩
  obtain ⟨p0, p1, f0, f1, hm⟩ := word1 0x33#6 d a 0x3#16
  refine (major_decodeEng p0).trans ?_
  unfold decodeEng; rw [p1]
  refine (fixed hm).trans ?_
  rw [f0, f1]

theorem Encoding.ldstg (a : BitVec 5) : Encoding.Statement (.ldstg a) := by
  rintro w - ⟨⟩
  obtain ⟨p0, p1, f0, hm⟩ := word20 0x660#11 a 0x4#16
  refine (major_decodeEng p0).trans ?_
  unfold decodeEng; rw [p1]
  refine (fixed hm).trans ?_
  rw [f0]

theorem Encoding.solicit (d : BitVec 5) (a : BitVec 5) : Encoding.Statement (.solicit d a) := by
  rintro w - ⟨⟩
  obtain ⟨p0, p1, f0, f1, hm⟩ := word1 0x34#6 d a 0x0#16
  refine (major_decodeCen p0).trans ?_
  unfold decodeCen; rw [p1]
  refine (fixed hm).trans ?_
  rw [f0, f1]

theorem Encoding.respond (a : BitVec 5) (b : BitVec 5) : Encoding.Statement (.respond a b) := by
  rintro w - ⟨⟩
  obtain ⟨p0, p1, f0, f1, hm⟩ := word22 0x680#11 a b 0x1#11
  refine (major_decodeCen p0).trans ?_
  unfold decodeCen; rw [p1]
  refine (fixed hm).trans ?_
  rw [f0, f1]

theorem Encoding.diradd (d : BitVec 5) (a : BitVec 5) : Encoding.Statement (.diradd d a) := by
  rintro w - ⟨⟩
  obtain ⟨p0, p1, f0, f1, hm⟩ := word1 0x34#6 d a 0x2#16
  refine (major_decodeCen p0).trans ?_
  unfold decodeCen; rw [p1]
  refine (fixed hm).trans ?_
  rw [f0, f1]

theorem Encoding.dirdel (d : BitVec 5) (a : BitVec 5) : Encoding.Statement (.dirdel d a) := by
  rintro w - ⟨⟩
  obtain ⟨p0, p1, f0, f1, hm⟩ := word1 0x34#6 d a 0x3#16
  refine (major_decodeCen p0).trans ?_
  unfold decodeCen; rw [p1]
  refine (fixed hm).trans ?_
  rw [f0, f1]

theorem Encoding.dirmove (d : BitVec 5) (a : BitVec 5) (b : BitVec 5) : Encoding.Statement (.dirmove d a b) := by
  rintro w - ⟨⟩
  obtain ⟨p0, p1, f0, f1, f2, hm⟩ := word0 0x34#6 d a b 0x4#11
  refine (major_decodeCen p0).trans ?_
  unfold decodeCen; rw [p1]
  refine (fixed hm).trans ?_
  rw [f0, f1, f2]

theorem Encoding.cenclose (a : BitVec 5) : Encoding.Statement (.cenclose a) := by
  rintro w - ⟨⟩
  obtain ⟨p0, p1, f0, hm⟩ := word20 0x680#11 a 0x5#16
  refine (major_decodeCen p0).trans ?_
  unfold decodeCen; rw [p1]
  refine (fixed hm).trans ?_
  rw [f0]

theorem Encoding.censt (d : BitVec 5) (a : BitVec 5) : Encoding.Statement (.censt d a) := by
  rintro w - ⟨⟩
  obtain ⟨p0, p1, f0, f1, hm⟩ := word1 0x34#6 d a 0x6#16
  refine (major_decodeCen p0).trans ?_
  unfold decodeCen; rw [p1]
  refine (fixed hm).trans ?_
  rw [f0, f1]

theorem Encoding.baralloc (d : BitVec 5) (a : BitVec 5) : Encoding.Statement (.baralloc d a) := by
  rintro w - ⟨⟩
  obtain ⟨p0, p1, f0, f1, hm⟩ := word1 0x35#6 d a 0x0#16
  refine (major_decodeBar p0).trans ?_
  unfold decodeBar; rw [p1]
  refine (fixed hm).trans ?_
  rw [f0, f1]

theorem Encoding.barfree (a : BitVec 5) : Encoding.Statement (.barfree a) := by
  rintro w - ⟨⟩
  obtain ⟨p0, p1, f0, hm⟩ := word20 0x6A0#11 a 0x1#16
  refine (major_decodeBar p0).trans ?_
  unfold decodeBar; rw [p1]
  refine (fixed hm).trans ?_
  rw [f0]

theorem Encoding.arrive (a : BitVec 5) : Encoding.Statement (.arrive a) := by
  rintro w - ⟨⟩
  obtain ⟨p0, p1, f0, hm⟩ := word20 0x6A0#11 a 0x2#16
  refine (major_decodeBar p0).trans ?_
  unfold decodeBar; rw [p1]
  refine (fixed hm).trans ?_
  rw [f0]

theorem Encoding.arrived (a : BitVec 5) : Encoding.Statement (.arrived a) := by
  rintro w - ⟨⟩
  obtain ⟨p0, p1, f0, hm⟩ := word20 0x6A0#11 a 0x3#16
  refine (major_decodeBar p0).trans ?_
  unfold decodeBar; rw [p1]
  refine (fixed hm).trans ?_
  rw [f0]

theorem Encoding.barst (d : BitVec 5) (a : BitVec 5) : Encoding.Statement (.barst d a) := by
  rintro w - ⟨⟩
  obtain ⟨p0, p1, f0, f1, hm⟩ := word1 0x35#6 d a 0x4#16
  refine (major_decodeBar p0).trans ?_
  unfold decodeBar; rw [p1]
  refine (fixed hm).trans ?_
  rw [f0, f1]

theorem Encoding.mfc (d : BitVec 5) (c : BitVec 12) : Encoding.Statement (.mfc d c) := by
  rintro w - ⟨⟩
  obtain ⟨p0, p1, f0, f1, hm⟩ := word25 0x38#6 d 0x0#9 c
  refine (major_decodeSys p0).trans ?_
  unfold decodeSys; rw [p1]
  refine (fixed hm).trans ?_
  rw [f0, f1]

theorem Encoding.mtc (a : BitVec 5) (c : BitVec 12) : Encoding.Statement (.mtc a c) := by
  rintro w - ⟨⟩
  obtain ⟨p0, p1, f0, f1, hm⟩ := word26 0x700#11 a 0x1#4 c
  refine (major_decodeSys p0).trans ?_
  unfold decodeSys; rw [p1]
  refine (fixed hm).trans ?_
  rw [f0, f1]

theorem Encoding.trap (k : BitVec 12) : Encoding.Statement (.trap k) := by
  rintro w - ⟨⟩
  obtain ⟨p0, p1, f0, hm⟩ := word27 0xE0002#20 k
  refine (major_decodeSys p0).trans ?_
  unfold decodeSys; rw [p1]
  refine (fixed hm).trans ?_
  rw [f0]

theorem Encoding.rte : Encoding.Statement .rte := by
  rintro w - ⟨⟩
  rfl

theorem Encoding.endAct : Encoding.Statement .endAct := by
  rintro w - ⟨⟩
  rfl

theorem Encoding.endExit : Encoding.Statement .endExit := by
  rintro w - ⟨⟩
  rfl

theorem Encoding.brk : Encoding.Statement .brk := by
  rintro w - ⟨⟩
  rfl

theorem Encoding.retry : Encoding.Statement .retry := by
  rintro w - ⟨⟩
  rfl

theorem Encoding.launch (d : BitVec 5) (a : BitVec 5) : Encoding.Statement (.launch d a) := by
  rintro w - ⟨⟩
  obtain ⟨p0, p1, f0, f1, hm⟩ := word28 0x38#6 d a 0x7000#16
  refine (major_decodeSys p0).trans ?_
  unfold decodeSys; rw [p1]
  refine (fixed hm).trans ?_
  rw [f0, f1]

theorem Encoding.cancel (l : BitVec 2) : Encoding.Statement (.cancel l) := by
  rintro w wf ⟨⟩
  obtain ⟨p0, p1, f0, hm⟩ := word29 0x38002000#30 l
  refine (major_decodeSys p0).trans ?_
  unfold decodeSys; rw [p1]
  refine (if_pos ?_).trans ((fixed hm).trans ?_)
  · simpa [Instr.wellFormed, Instr.engineLegal, Instr.selectorLegal, Instr.levelLegal, f0] using wf
  · rw [f0]

theorem Encoding.nop : Encoding.Statement .nop := by
  rintro w - ⟨⟩
  rfl

theorem Encoding.ifence : Encoding.Statement .ifence := by
  rintro w - ⟨⟩
  rfl

theorem Encoding.illegal (word : BitVec 32) : Encoding.Statement (.illegal word) := fun _ _ h => nomatch h

theorem Encoding.fetchFault : Encoding.Statement .fetchFault := fun _ _ h => nomatch h

theorem Encoding.mma (core : Nat) (ticket : Nat) (pick : Nat) : Encoding.Statement (.mma core ticket pick) := fun _ _ h => nomatch h

theorem Encoding.mmac (core : Nat) (ticket : Nat) (pick : Nat) : Encoding.Statement (.mmac core ticket pick) := fun _ _ h => nomatch h

theorem Encoding.accz (core : Nat) (ticket : Nat) : Encoding.Statement (.accz core ticket) := fun _ _ h => nomatch h

theorem Encoding.accst (core : Nat) (ticket : Nat) : Encoding.Statement (.accst core ticket) := fun _ _ h => nomatch h

theorem Encoding.accld (core : Nat) (ticket : Nat) : Encoding.Statement (.accld core ticket) := fun _ _ h => nomatch h

theorem Encoding.copy (core : Nat) (ticket : Nat) : Encoding.Statement (.copy core ticket) := fun _ _ h => nomatch h

theorem Encoding.gather (core : Nat) (ticket : Nat) : Encoding.Statement (.gather core ticket) := fun _ _ h => nomatch h

theorem Encoding.scatter (core : Nat) (ticket : Nat) : Encoding.Statement (.scatter core ticket) := fun _ _ h => nomatch h

theorem Encoding.bcast (core : Nat) (ticket : Nat) : Encoding.Statement (.bcast core ticket) := fun _ _ h => nomatch h

theorem Encoding.dmove (core : Nat) (ticket : Nat) : Encoding.Statement (.dmove core ticket) := fun _ _ h => nomatch h

theorem Encoding.filt (core : Nat) (ticket : Nat) : Encoding.Statement (.filt core ticket) := fun _ _ h => nomatch h

theorem Encoding.conv (core : Nat) (ticket : Nat) : Encoding.Statement (.conv core ticket) := fun _ _ h => nomatch h

theorem Encoding.commandArmed (core : Nat) (ticket : Nat) : Encoding.Statement (.commandArmed core ticket) := fun _ _ h => nomatch h

theorem Encoding.progressPointStop (core : Nat) (ticket : Nat) : Encoding.Statement (.progressPointStop core ticket) := fun _ _ h => nomatch h

theorem Encoding.matcherFiring (core : Nat) : Encoding.Statement (.matcherFiring core) := fun _ _ h => nomatch h

theorem Encoding.heldMessageDelivery (core : Nat) (ch : Nat) : Encoding.Statement (.heldMessageDelivery core ch) := fun _ _ h => nomatch h

theorem Encoding.asyncTrap (core : Nat) (slot : Nat) : Encoding.Statement (.asyncTrap core slot) := fun _ _ h => nomatch h

theorem Encoding.holdBoundExpiry (core : Nat) (buf : Nat) : Encoding.Statement (.holdBoundExpiry core buf) := fun _ _ h => nomatch h

theorem Encoding.bufferLeave (core : Nat) (buf : Nat) : Encoding.Statement (.bufferLeave core buf) := fun _ _ h => nomatch h

theorem Encoding.elements (k : Nat) : Encoding.Statement (.elements k) := fun _ _ h => nomatch h

theorem Encoding.load (k : Nat) : Encoding.Statement (.load k) := fun _ _ h => nomatch h

theorem Encoding.amo (k : Nat) : Encoding.Statement (.amo k) := fun _ _ h => nomatch h

theorem Encoding.hdr (k : Nat) : Encoding.Statement (.hdr k) := fun _ _ h => nomatch h

theorem Encoding.block (k : Nat) : Encoding.Statement (.block k) := fun _ _ h => nomatch h

theorem Encoding.sendPacket (k : Nat) : Encoding.Statement (.sendPacket k) := fun _ _ h => nomatch h

theorem Encoding.ack (k : Nat) : Encoding.Statement (.ack k) := fun _ _ h => nomatch h

theorem Encoding.nak (k : Nat) : Encoding.Statement (.nak k) := fun _ _ h => nomatch h

theorem Encoding.reply (k : Nat) : Encoding.Statement (.reply k) := fun _ _ h => nomatch h

theorem Encoding.repair (k : Nat) : Encoding.Statement (.repair k) := fun _ _ h => nomatch h

theorem Encoding.noparkRetry (core : Nat) : Encoding.Statement (.noparkRetry core) := fun _ _ h => nomatch h

theorem Encoding.pageRelease (asid : Nat) (page : Nat) : Encoding.Statement (.pageRelease asid page) := fun _ _ h => nomatch h

theorem Encoding.invalidation (asid : Nat) (page : Option PageRef) : Encoding.Statement (.invalidation asid page) := fun _ _ h => nomatch h

theorem Encoding.solicitArrival (k : Nat) : Encoding.Statement (.solicitArrival k) := fun _ _ h => nomatch h

theorem Encoding.nodeReport (tenant : Nat) (slot : Nat) (k : Nat) : Encoding.Statement (.nodeReport tenant slot k) := fun _ _ h => nomatch h

theorem Encoding.close (k : Nat) : Encoding.Statement (.close k) := fun _ _ h => nomatch h

theorem Encoding.closeAck (k : Nat) : Encoding.Statement (.closeAck k) := fun _ _ h => nomatch h

theorem Encoding.dmoveOpen (k : Nat) : Encoding.Statement (.dmoveOpen k) := fun _ _ h => nomatch h

theorem Encoding.dmoveOpenReply (k : Nat) : Encoding.Statement (.dmoveOpenReply k) := fun _ _ h => nomatch h

theorem Encoding.commit (core : Nat) (ticket : Nat) : Encoding.Statement (.commit core ticket) := fun _ _ h => nomatch h

theorem Encoding.adoption (k : Nat) : Encoding.Statement (.adoption k) := fun _ _ h => nomatch h

theorem Encoding.abortMove (k : Nat) : Encoding.Statement (.abortMove k) := fun _ _ h => nomatch h

theorem Encoding.barrierOffer (k : Nat) : Encoding.Statement (.barrierOffer k) := fun _ _ h => nomatch h

theorem Encoding.barrierArrival (k : Nat) : Encoding.Statement (.barrierArrival k) := fun _ _ h => nomatch h

theorem Encoding.barrierCompletion (k : Nat) : Encoding.Statement (.barrierCompletion k) := fun _ _ h => nomatch h

theorem Encoding.tree (k : Nat) : Encoding.Statement (.tree k) := fun _ _ h => nomatch h

theorem Encoding.hub (k : Nat) : Encoding.Statement (.hub k) := fun _ _ h => nomatch h

theorem Encoding.pass (tenant : Nat) : Encoding.Statement (.pass tenant) := fun _ _ h => nomatch h

theorem Encoding.headerRead (tenant : Nat) (index : Nat) : Encoding.Statement (.headerRead tenant index) := fun _ _ h => nomatch h

theorem Encoding.imageLoad (gang : Nat) : Encoding.Statement (.imageLoad gang) := fun _ _ h => nomatch h

theorem Encoding.clusterRelease (gang : Nat) : Encoding.Statement (.clusterRelease gang) := fun _ _ h => nomatch h

theorem Encoding.gangEnd (gang : Nat) : Encoding.Statement (.gangEnd gang) := fun _ _ h => nomatch h

theorem Encoding.gangEndSettled (gang : Nat) : Encoding.Statement (.gangEndSettled gang) := fun _ _ h => nomatch h

theorem Encoding.preempt (k : Nat) : Encoding.Statement (.preempt k) := fun _ _ h => nomatch h

theorem Encoding.coreSealed (core : Nat) : Encoding.Statement (.coreSealed core) := fun _ _ h => nomatch h

theorem Encoding.save (gang : Nat) : Encoding.Statement (.save gang) := fun _ _ h => nomatch h

theorem Encoding.restore (gang : Nat) : Encoding.Statement (.restore gang) := fun _ _ h => nomatch h

theorem Encoding.modeChange : Encoding.Statement .modeChange := fun _ _ h => nomatch h

theorem Encoding.packageReset (images : List FwImage) (strap : Option Nat) : Encoding.Statement (.packageReset images strap) := fun _ _ h => nomatch h

theorem Encoding.routerGate (router : Nat) : Encoding.Statement (.routerGate router) := fun _ _ h => nomatch h

theorem Encoding.routerWake (router : Nat) : Encoding.Statement (.routerWake router) := fun _ _ h => nomatch h

theorem Encoding.routeSwap (tenant : Nat) (entry : Dword) : Encoding.Statement (.routeSwap tenant entry) := fun _ _ h => nomatch h

theorem Encoding.bankFlip (tenant : Nat) : Encoding.Statement (.bankFlip tenant) := fun _ _ h => nomatch h

theorem Encoding.fabricPacket (port : Nat) (p : FabPacket) : Encoding.Statement (.fabricPacket port p) := fun _ _ h => nomatch h

theorem Encoding.flowRouteChange (tenant : Nat) (ddev : Nat) (route : Nat) : Encoding.Statement (.flowRouteChange tenant ddev route) := fun _ _ h => nomatch h

theorem Encoding.flitData (link : Link) (f : Flit) : Encoding.Statement (.flitData link f) := fun _ _ h => nomatch h

theorem Encoding.flitIdle (link : Link) (f : Flit) : Encoding.Statement (.flitIdle link f) := fun _ _ h => nomatch h

theorem Encoding.flitMarker (link : Link) (f : Flit) : Encoding.Statement (.flitMarker link f) := fun _ _ h => nomatch h

theorem Encoding.flitAck (link : Link) (f : Flit) : Encoding.Statement (.flitAck link f) := fun _ _ h => nomatch h

theorem Encoding.flitNak (link : Link) (f : Flit) : Encoding.Statement (.flitNak link f) := fun _ _ h => nomatch h

theorem Encoding.keySwitch (link : Link) : Encoding.Statement (.keySwitch link) := fun _ _ h => nomatch h

theorem Encoding.hostWindowAccess (session : Nat) (haddr : Dword) (write : Option (List Byte)) (len : Nat) : Encoding.Statement (.hostWindowAccess session haddr write len) := fun _ _ h => nomatch h

theorem Encoding.tenantset (h : CmdHdr) (tenant : Nat) (x0 : Nat) (y0 : Nat) (w : Nat) (ht : Nat) (displim : Nat) (debug : Bool) (owner : BitVec 384) : Encoding.Statement (.tenantset h tenant x0 y0 w ht displim debug owner) := fun _ _ h => nomatch h

theorem Encoding.tenantclose (h : CmdHdr) (tenant : Nat) : Encoding.Statement (.tenantclose h tenant) := fun _ _ h => nomatch h

theorem Encoding.submit (h : CmdHdr) (rec : BitVec 512) (job : BitVec 128) : Encoding.Statement (.submit h rec job) := fun _ _ h => nomatch h

theorem Encoding.cancelCmd (h : CmdHdr) (level : Nat) (id : Nat) : Encoding.Statement (.cancelCmd h level id) := fun _ _ h => nomatch h

theorem Encoding.preemptCmd (h : CmdHdr) (gang : Nat) : Encoding.Statement (.preemptCmd h gang) := fun _ _ h => nomatch h

theorem Encoding.mode (h : CmdHdr) (mode : Nat) : Encoding.Statement (.mode h mode) := fun _ _ h => nomatch h

theorem Encoding.bypass (h : CmdHdr) (len : Nat) : Encoding.Statement (.bypass h len) := fun _ _ h => nomatch h

theorem Encoding.stage (h : CmdHdr) (img : FwImage) : Encoding.Statement (.stage h img) := fun _ _ h => nomatch h

theorem Encoding.update (h : CmdHdr) : Encoding.Statement (.update h) := fun _ _ h => nomatch h

theorem Encoding.upstat (h : CmdHdr) : Encoding.Statement (.upstat h) := fun _ _ h => nomatch h

theorem Encoding.attest (h : CmdHdr) (nonce : BitVec 384) : Encoding.Statement (.attest h nonce) := fun _ _ h => nomatch h

theorem Encoding.sessopen (h : CmdHdr) (tenant : Nat) (qt : BitVec 776) (nt : BitVec 256) : Encoding.Statement (.sessopen h tenant qt nt) := fun _ _ h => nomatch h

theorem Encoding.sessconf (h : CmdHdr) (session : Nat) (sig : BitVec 768) : Encoding.Statement (.sessconf h session sig) := fun _ _ h => nomatch h

theorem Encoding.sessclose (h : CmdHdr) (session : Nat) : Encoding.Statement (.sessclose h session) := fun _ _ h => nomatch h

theorem Encoding.winopen (h : CmdHdr) (va : Dword) (len : Nat) (haddr : Dword) (procid : Nat) : Encoding.Statement (.winopen h va len haddr procid) := fun _ _ h => nomatch h

theorem Encoding.winclose (h : CmdHdr) (window : Nat) : Encoding.Statement (.winclose h window) := fun _ _ h => nomatch h

theorem Encoding.logread (h : CmdHdr) : Encoding.Statement (.logread h) := fun _ _ h => nomatch h

theorem Encoding.resumeCmd (h : CmdHdr) (core : Nat) (slot : Nat) : Encoding.Statement (.resumeCmd h core slot) := fun _ _ h => nomatch h

theorem Encoding.txWrite (self : Nat) (j : Nat) (word : Dword) : Encoding.Statement (.txWrite self j word) := fun _ _ h => nomatch h

theorem Encoding.rxRead (self : Nat) (i : Nat) : Encoding.Statement (.rxRead self i) := fun _ _ h => nomatch h

theorem Encoding.mbovfClear (self : Nat) (bits : BitVec 8) : Encoding.Statement (.mbovfClear self bits) := fun _ _ h => nomatch h

theorem Encoding.registerWrite (self : Nat) (offset : Nat) (value : BusWord) : Encoding.Statement (.registerWrite self offset value) := fun _ _ h => nomatch h

theorem Encoding.quiesce : Encoding.Statement .quiesce := fun _ _ h => nomatch h

theorem Encoding.handed (record : Dword) : Encoding.Statement (.handed record) := fun _ _ h => nomatch h

theorem Encoding.resume : Encoding.Statement .resume := fun _ _ h => nomatch h

theorem Encoding.alive (version : Dword) : Encoding.Statement (.alive version) := fun _ _ h => nomatch h

theorem Encoding.reject (reason : Nat) : Encoding.Statement (.reject reason) := fun _ _ h => nomatch h

theorem Encoding.continueImage : Encoding.Statement .continueImage := fun _ _ h => nomatch h

theorem Encoding.gatedWrite : Encoding.Statement .gatedWrite := fun _ _ h => nomatch h

theorem Encoding.watchdogExpiry : Encoding.Statement .watchdogExpiry := fun _ _ h => nomatch h

theorem Encoding.microcodeBankSwitch (core : Nat) : Encoding.Statement (.microcodeBankSwitch core) := fun _ _ h => nomatch h

theorem Encoding.microcodeSwitchBack (core : Nat) : Encoding.Statement (.microcodeSwitchBack core) := fun _ _ h => nomatch h

theorem Encoding.uncorrectableError (pa : Nat) : Encoding.Statement (.uncorrectableError pa) := fun _ _ h => nomatch h

theorem Encoding.xlateUnmappedProt (asid : Nat) (page : Nat) : Encoding.Statement (.xlateUnmappedProt asid page) := fun _ _ h => nomatch h

theorem Encoding.keySlotLoad (link : Link) (salt : Word) : Encoding.Statement (.keySlotLoad link salt) := fun _ _ h => nomatch h

theorem Encoding.imageFault : Encoding.Statement .imageFault := fun _ _ h => nomatch h

theorem Encoding.microcodeMulticastDone : Encoding.Statement .microcodeMulticastDone := fun _ _ h => nomatch h

theorem Encoding.operatorKeyWrite (digest : BitVec 384) : Encoding.Statement (.operatorKeyWrite digest) := fun _ _ h => nomatch h

theorem Encoding.unknownOpcode (h : CmdHdr) (opcode : Nat) : Encoding.Statement (.unknownOpcode h opcode) := fun _ _ h => nomatch h

end Sys2Proof.Laws
end

