-- ==== Sys2Proof/Tests/Slice0.lean ====
section
/-! SUPPORT. Tests: ill-formed terms refused, a decoded word for every instruction, single steps, and for each statement with
hypotheses a state and operands that meet them. -/

namespace Sys2Proof.Tests

set_option Elab.async false

open Sys2Proof Sys2Proof.Machine Sys2Proof.Claims

/-! Helpers -/

/-- The page of a gang of 2 by 1 cores at (0, 0), rank r. -/
def page (r : Nat) : GangPage :=
  { GangPage.reset with rank := r, width := 2, height := 1, lsbytes := 0x60000, nchan := 64, npat := 32, nslot := 4, nbar := 64, ncen := 16, tenant := 5 }

/-- A slot that runs at 0x100 with some registers set. -/
def runner (rs : List (Nat × Dword)) : Slot :=
  { Slot.reset with state := .active, pc := 0x100, prio := 255, g := Vector.ofFn (fun i => ((rs.find? (fun p => decide (p.1 = i.val))).map Prod.snd).getD 0) }

/-- A core of the gang whose slot 0 runs. -/
def unit (r : Nat) (rs : List (Nat × Dword)) : Core :=
  { Core.reset with gang := some 1, tenant := 5, asid := 0x500, page := page r, slots := Core.reset.slots.set 0 (runner rs), matching := true }

/-- Cores 0 and 1 as a gang; slot 0 of core 0 issues. -/
def pair (k : Core) : State := { State.reset with cores := [(0, k), (1, unit 1 [])] }

/-- The pair with registers of slot 0 of core 0. -/
def regs (rs : List (Nat × Dword)) : State := pair (unit 0 rs)

/-- What a next state satisfies. -/
def next (o : Host.Outcome State Fault Refusal) (p : State → Bool) : Bool :=
  match o with
  | .next t => p t
  | _ => false

/-! Decoding: a word of every instruction, written out from R28 to R33 -/

theorem test_decode_alu0 :
    decodeWord (0x1#6 ++ 0x3#5 ++ 0x11#5 ++ 0x1A#5 ++ 0x0#11) = .ok (.add 3 17 26)
    ∧ decodeWord (0x1#6 ++ 0x3#5 ++ 0x11#5 ++ 0x1A#5 ++ 0x1#11) = .ok (.sub 3 17 26)
    ∧ decodeWord (0x1#6 ++ 0x3#5 ++ 0x11#5 ++ 0x1A#5 ++ 0x2#11) = .ok (.and 3 17 26)
    ∧ decodeWord (0x1#6 ++ 0x3#5 ++ 0x11#5 ++ 0x1A#5 ++ 0x3#11) = .ok (.or 3 17 26)
    ∧ decodeWord (0x1#6 ++ 0x3#5 ++ 0x11#5 ++ 0x1A#5 ++ 0x4#11) = .ok (.xor 3 17 26)
    ∧ decodeWord (0x1#6 ++ 0x3#5 ++ 0x11#5 ++ 0x1A#5 ++ 0x5#11) = .ok (.andn 3 17 26)
    ∧ decodeWord (0x1#6 ++ 0x3#5 ++ 0x11#5 ++ 0x1A#5 ++ 0x6#11) = .ok (.sll 3 17 26)
    ∧ decodeWord (0x1#6 ++ 0x3#5 ++ 0x11#5 ++ 0x1A#5 ++ 0x7#11) = .ok (.srl 3 17 26)
    ∧ decodeWord (0x1#6 ++ 0x3#5 ++ 0x11#5 ++ 0x1A#5 ++ 0x8#11) = .ok (.sra 3 17 26)
    ∧ decodeWord (0x1#6 ++ 0x3#5 ++ 0x11#5 ++ 0x1A#5 ++ 0x9#11) = .ok (.slt 3 17 26)
    ∧ decodeWord (0x1#6 ++ 0x3#5 ++ 0x11#5 ++ 0x1A#5 ++ 0xA#11) = .ok (.sltu 3 17 26)
    ∧ decodeWord (0x1#6 ++ 0x3#5 ++ 0x11#5 ++ 0x1A#5 ++ 0xB#11) = .ok (.min 3 17 26) := by
  and_intros <;> rfl

theorem test_decode_alu1 :
    decodeWord (0x1#6 ++ 0x3#5 ++ 0x11#5 ++ 0x1A#5 ++ 0xC#11) = .ok (.max 3 17 26)
    ∧ decodeWord (0x1#6 ++ 0x3#5 ++ 0x11#5 ++ 0x1A#5 ++ 0xD#11) = .ok (.minu 3 17 26)
    ∧ decodeWord (0x1#6 ++ 0x3#5 ++ 0x11#5 ++ 0x1A#5 ++ 0xE#11) = .ok (.maxu 3 17 26)
    ∧ decodeWord (0x1#6 ++ 0x3#5 ++ 0x11#5 ++ 0x1A#5 ++ 0xF#11) = .ok (.sel 3 17 26)
    ∧ decodeWord (0x1#6 ++ 0x3#5 ++ 0x11#5 ++ 0x0#5 ++ 0x10#11) = .ok (.clz 3 17)
    ∧ decodeWord (0x1#6 ++ 0x3#5 ++ 0x11#5 ++ 0x0#5 ++ 0x11#11) = .ok (.ctz 3 17)
    ∧ decodeWord (0x1#6 ++ 0x3#5 ++ 0x11#5 ++ 0x0#5 ++ 0x12#11) = .ok (.popc 3 17)
    ∧ decodeWord (0x1#6 ++ 0x3#5 ++ 0x11#5 ++ 0x1A#5 ++ 0x13#11) = .ok (.bfx 3 17 26)
    ∧ decodeWord (0x1#6 ++ 0x3#5 ++ 0x11#5 ++ 0x1A#5 ++ 0x14#11) = .ok (.bfi 3 17 26) := by
  and_intros <;> rfl

theorem test_decode_muldiv :
    decodeWord (0x2#6 ++ 0x3#5 ++ 0x11#5 ++ 0x1A#5 ++ 0x0#11) = .ok (.mul 3 17 26)
    ∧ decodeWord (0x2#6 ++ 0x3#5 ++ 0x11#5 ++ 0x1A#5 ++ 0x1#11) = .ok (.mulh 3 17 26)
    ∧ decodeWord (0x2#6 ++ 0x3#5 ++ 0x11#5 ++ 0x1A#5 ++ 0x2#11) = .ok (.mulhu 3 17 26)
    ∧ decodeWord (0x2#6 ++ 0x3#5 ++ 0x11#5 ++ 0x1A#5 ++ 0x3#11) = .ok (.div 3 17 26)
    ∧ decodeWord (0x2#6 ++ 0x3#5 ++ 0x11#5 ++ 0x1A#5 ++ 0x4#11) = .ok (.divu 3 17 26)
    ∧ decodeWord (0x2#6 ++ 0x3#5 ++ 0x11#5 ++ 0x1A#5 ++ 0x5#11) = .ok (.rem 3 17 26)
    ∧ decodeWord (0x2#6 ++ 0x3#5 ++ 0x11#5 ++ 0x1A#5 ++ 0x6#11) = .ok (.remu 3 17 26) := by
  and_intros <;> rfl

theorem test_decode_immediate :
    decodeWord (0x3#6 ++ 0x3#5 ++ 0x11#5 ++ 0x8001#16) = .ok (.addi 3 17 0x8001)
    ∧ decodeWord (0x4#6 ++ 0x3#5 ++ 0x11#5 ++ 0x8001#16) = .ok (.andi 3 17 0x8001)
    ∧ decodeWord (0x5#6 ++ 0x3#5 ++ 0x11#5 ++ 0x8001#16) = .ok (.ori 3 17 0x8001)
    ∧ decodeWord (0x6#6 ++ 0x3#5 ++ 0x11#5 ++ 0x8001#16) = .ok (.xori 3 17 0x8001)
    ∧ decodeWord (0x7#6 ++ 0x3#5 ++ 0x11#5 ++ 0x8001#16) = .ok (.slti 3 17 0x8001)
    ∧ decodeWord (0x8#6 ++ 0x3#5 ++ 0x11#5 ++ 0x8001#16) = .ok (.sltiu 3 17 0x8001)
    ∧ decodeWord (0x9#6 ++ 0x3#5 ++ 0x11#5 ++ 0x0#2 ++ 0x0#8 ++ 0x29#6) = .ok (.slli 3 17 41)
    ∧ decodeWord (0x9#6 ++ 0x3#5 ++ 0x11#5 ++ 0x1#2 ++ 0x0#8 ++ 0x29#6) = .ok (.srli 3 17 41)
    ∧ decodeWord (0x9#6 ++ 0x3#5 ++ 0x11#5 ++ 0x2#2 ++ 0x0#8 ++ 0x29#6) = .ok (.srai 3 17 41)
    ∧ decodeWord (0xA#6 ++ 0x3#5 ++ 0x100001#21) = .ok (.lih 3 0x100001)
    ∧ decodeWord (0xB#6 ++ 0x3#5 ++ 0x100001#21) = .ok (.lix 3 0x100001)
    ∧ decodeWord (0xC#6 ++ 0x3#5 ++ 0x100001#21) = .ok (.addpc 3 0x100001) := by
  and_intros <;> rfl

theorem test_decode_branch :
    decodeWord (0x10#6 ++ 0x11#5 ++ 0x1A#5 ++ 0x8001#16) = .ok (.beq 17 26 0x8001)
    ∧ decodeWord (0x11#6 ++ 0x11#5 ++ 0x1A#5 ++ 0x8001#16) = .ok (.bne 17 26 0x8001)
    ∧ decodeWord (0x12#6 ++ 0x11#5 ++ 0x1A#5 ++ 0x8001#16) = .ok (.blt 17 26 0x8001)
    ∧ decodeWord (0x13#6 ++ 0x11#5 ++ 0x1A#5 ++ 0x8001#16) = .ok (.bge 17 26 0x8001)
    ∧ decodeWord (0x14#6 ++ 0x11#5 ++ 0x1A#5 ++ 0x8001#16) = .ok (.bltu 17 26 0x8001)
    ∧ decodeWord (0x15#6 ++ 0x11#5 ++ 0x1A#5 ++ 0x8001#16) = .ok (.bgeu 17 26 0x8001)
    ∧ decodeWord (0x16#6 ++ 0x3#5 ++ 0x100001#21) = .ok (.jal 3 0x100001)
    ∧ decodeWord (0x17#6 ++ 0x3#5 ++ 0x11#5 ++ 0x8001#16) = .ok (.jalr 3 17 0x8001) := by
  and_intros <;> rfl

theorem test_decode_memory0 :
    decodeWord (0x18#6 ++ 0x3#5 ++ 0x11#5 ++ 0x8001#16) = .ok (.ldb 3 17 0x8001)
    ∧ decodeWord (0x19#6 ++ 0x3#5 ++ 0x11#5 ++ 0x8001#16) = .ok (.ldbu 3 17 0x8001)
    ∧ decodeWord (0x1A#6 ++ 0x3#5 ++ 0x11#5 ++ 0x8001#16) = .ok (.ldh 3 17 0x8001)
    ∧ decodeWord (0x1B#6 ++ 0x3#5 ++ 0x11#5 ++ 0x8001#16) = .ok (.ldhu 3 17 0x8001)
    ∧ decodeWord (0x1C#6 ++ 0x3#5 ++ 0x11#5 ++ 0x8001#16) = .ok (.ldw 3 17 0x8001)
    ∧ decodeWord (0x1D#6 ++ 0x3#5 ++ 0x11#5 ++ 0x8001#16) = .ok (.ldwu 3 17 0x8001)
    ∧ decodeWord (0x1E#6 ++ 0x3#5 ++ 0x11#5 ++ 0x8001#16) = .ok (.ldd 3 17 0x8001)
    ∧ decodeWord (0x1F#6 ++ 0x3#5 ++ 0x11#5 ++ 0x8001#16) = .ok (.stb 3 17 0x8001)
    ∧ decodeWord (0x20#6 ++ 0x3#5 ++ 0x11#5 ++ 0x8001#16) = .ok (.sth 3 17 0x8001)
    ∧ decodeWord (0x21#6 ++ 0x3#5 ++ 0x11#5 ++ 0x8001#16) = .ok (.stw 3 17 0x8001)
    ∧ decodeWord (0x22#6 ++ 0x3#5 ++ 0x11#5 ++ 0x8001#16) = .ok (.std 3 17 0x8001)
    ∧ decodeWord (0x24#6 ++ 0x3#5 ++ 0x11#5 ++ 0x0#1 ++ 0x4001#15) = .ok (.ldhdr 3 17 0x4001) := by
  and_intros <;> rfl

theorem test_decode_memory1 :
    decodeWord (0x24#6 ++ 0x3#5 ++ 0x11#5 ++ 0x1#1 ++ 0x4001#15) = .ok (.sthdr 3 17 0x4001) := by
  and_intros <;> rfl

theorem test_decode_atomic0 :
    decodeWord (0x23#6 ++ 0x3#5 ++ 0x11#5 ++ 0x1A#5 ++ 0x1#1 ++ 0x0#10) = .ok (.amoadd 3 17 26 1)
    ∧ decodeWord (0x23#6 ++ 0x3#5 ++ 0x11#5 ++ 0x1A#5 ++ 0x1#1 ++ 0x1#10) = .ok (.amomin 3 17 26 1)
    ∧ decodeWord (0x23#6 ++ 0x3#5 ++ 0x11#5 ++ 0x1A#5 ++ 0x1#1 ++ 0x2#10) = .ok (.amomax 3 17 26 1)
    ∧ decodeWord (0x23#6 ++ 0x3#5 ++ 0x11#5 ++ 0x1A#5 ++ 0x1#1 ++ 0x3#10) = .ok (.amominu 3 17 26 1)
    ∧ decodeWord (0x23#6 ++ 0x3#5 ++ 0x11#5 ++ 0x1A#5 ++ 0x1#1 ++ 0x4#10) = .ok (.amomaxu 3 17 26 1)
    ∧ decodeWord (0x23#6 ++ 0x3#5 ++ 0x11#5 ++ 0x1A#5 ++ 0x1#1 ++ 0x5#10) = .ok (.amoand 3 17 26 1)
    ∧ decodeWord (0x23#6 ++ 0x3#5 ++ 0x11#5 ++ 0x1A#5 ++ 0x1#1 ++ 0x6#10) = .ok (.amoor 3 17 26 1)
    ∧ decodeWord (0x23#6 ++ 0x3#5 ++ 0x11#5 ++ 0x1A#5 ++ 0x1#1 ++ 0x7#10) = .ok (.amoxor 3 17 26 1)
    ∧ decodeWord (0x23#6 ++ 0x3#5 ++ 0x11#5 ++ 0x1A#5 ++ 0x1#1 ++ 0x8#10) = .ok (.amoswp 3 17 26 1)
    ∧ decodeWord (0x23#6 ++ 0x3#5 ++ 0x11#5 ++ 0x1A#5 ++ 0x1#1 ++ 0x9#10) = .ok (.amocas 3 17 26 1)
    ∧ decodeWord (0x23#6 ++ 0x0#5 ++ 0x11#5 ++ 0x1A#5 ++ 0x0#1 ++ 0x10#10) = .ok (.redAdd 17 26 0)
    ∧ decodeWord (0x23#6 ++ 0x0#5 ++ 0x11#5 ++ 0x1A#5 ++ 0x0#1 ++ 0x11#10) = .ok (.redMin 17 26 0) := by
  and_intros <;> rfl

theorem test_decode_atomic1 :
    decodeWord (0x23#6 ++ 0x0#5 ++ 0x11#5 ++ 0x1A#5 ++ 0x0#1 ++ 0x12#10) = .ok (.redMax 17 26 0)
    ∧ decodeWord (0x23#6 ++ 0x0#5 ++ 0x11#5 ++ 0x1A#5 ++ 0x0#1 ++ 0x13#10) = .ok (.redOr 17 26 0)
    ∧ decodeWord (0x23#6 ++ 0x0#5 ++ 0x11#5 ++ 0x1A#5 ++ 0x1#1 ++ 0x14#10) = .ok (.redFadd 17 26)
    ∧ decodeWord (0x23#6 ++ 0x0#5 ++ 0x11#5 ++ 0x1A#5 ++ 0x1#1 ++ 0x15#10) = .ok (.redBadd 17 26) := by
  and_intros <;> rfl

theorem test_decode_vector0 :
    decodeWord (0x28#6 ++ 0x3#5 ++ 0x11#5 ++ 0x1A#5 ++ 0x5#3 ++ 0x0#8) = .ok (.vaddF 3 17 26 5)
    ∧ decodeWord (0x28#6 ++ 0x3#5 ++ 0x11#5 ++ 0x1A#5 ++ 0x5#3 ++ 0x1#8) = .ok (.vsubF 3 17 26 5)
    ∧ decodeWord (0x28#6 ++ 0x3#5 ++ 0x11#5 ++ 0x1A#5 ++ 0x5#3 ++ 0x2#8) = .ok (.vmulF 3 17 26 5)
    ∧ decodeWord (0x28#6 ++ 0x3#5 ++ 0x11#5 ++ 0x1A#5 ++ 0x5#3 ++ 0x3#8) = .ok (.vfmaF 3 17 26 5)
    ∧ decodeWord (0x28#6 ++ 0x3#5 ++ 0x11#5 ++ 0x1A#5 ++ 0x5#3 ++ 0x4#8) = .ok (.vminF 3 17 26 5)
    ∧ decodeWord (0x28#6 ++ 0x3#5 ++ 0x11#5 ++ 0x1A#5 ++ 0x5#3 ++ 0x5#8) = .ok (.vmaxF 3 17 26 5)
    ∧ decodeWord (0x28#6 ++ 0x3#5 ++ 0x11#5 ++ 0x1A#5 ++ 0x5#3 ++ 0xC#8) = .ok (.vaddI 3 17 26 5)
    ∧ decodeWord (0x28#6 ++ 0x3#5 ++ 0x11#5 ++ 0x1A#5 ++ 0x5#3 ++ 0xD#8) = .ok (.vsubI 3 17 26 5)
    ∧ decodeWord (0x28#6 ++ 0x3#5 ++ 0x11#5 ++ 0x1A#5 ++ 0x5#3 ++ 0xE#8) = .ok (.vmulI 3 17 26 5)
    ∧ decodeWord (0x28#6 ++ 0x3#5 ++ 0x11#5 ++ 0x1A#5 ++ 0x5#3 ++ 0xF#8) = .ok (.vand 3 17 26 5)
    ∧ decodeWord (0x28#6 ++ 0x3#5 ++ 0x11#5 ++ 0x1A#5 ++ 0x5#3 ++ 0x10#8) = .ok (.vor 3 17 26 5)
    ∧ decodeWord (0x28#6 ++ 0x3#5 ++ 0x11#5 ++ 0x1A#5 ++ 0x5#3 ++ 0x11#8) = .ok (.vxor 3 17 26 5) := by
  and_intros <;> rfl

theorem test_decode_vector1 :
    decodeWord (0x28#6 ++ 0x3#5 ++ 0x11#5 ++ 0x1A#5 ++ 0x5#3 ++ 0x12#8) = .ok (.vsll 3 17 26 5)
    ∧ decodeWord (0x28#6 ++ 0x3#5 ++ 0x11#5 ++ 0x1A#5 ++ 0x5#3 ++ 0x13#8) = .ok (.vsrl 3 17 26 5)
    ∧ decodeWord (0x28#6 ++ 0x3#5 ++ 0x11#5 ++ 0x1A#5 ++ 0x5#3 ++ 0x14#8) = .ok (.vsra 3 17 26 5)
    ∧ decodeWord (0x28#6 ++ 0x3#5 ++ 0x11#5 ++ 0x1A#5 ++ 0x5#3 ++ 0x15#8) = .ok (.vminI 3 17 26 5)
    ∧ decodeWord (0x28#6 ++ 0x3#5 ++ 0x11#5 ++ 0x1A#5 ++ 0x5#3 ++ 0x16#8) = .ok (.vmaxI 3 17 26 5)
    ∧ decodeWord (0x28#6 ++ 0x3#5 ++ 0x11#5 ++ 0x1A#5 ++ 0x5#3 ++ 0x1C#8) = .ok (.vperm 3 17 26 5)
    ∧ decodeWord (0x28#6 ++ 0x3#5 ++ 0x11#5 ++ 0x1A#5 ++ 0x5#3 ++ 0x1E#8) = .ok (.vscal 3 17 26 5)
    ∧ decodeWord (0x28#6 ++ 0x3#5 ++ 0x11#5 ++ 0x1A#5 ++ 0x5#3 ++ 0x40#8) = .ok (.vaddD 3 17 26 5)
    ∧ decodeWord (0x28#6 ++ 0x3#5 ++ 0x11#5 ++ 0x1A#5 ++ 0x5#3 ++ 0x41#8) = .ok (.vsubD 3 17 26 5)
    ∧ decodeWord (0x28#6 ++ 0x3#5 ++ 0x11#5 ++ 0x1A#5 ++ 0x5#3 ++ 0x42#8) = .ok (.vmulD 3 17 26 5)
    ∧ decodeWord (0x28#6 ++ 0x3#5 ++ 0x11#5 ++ 0x1A#5 ++ 0x5#3 ++ 0x43#8) = .ok (.vfmaD 3 17 26 5)
    ∧ decodeWord (0x28#6 ++ 0x3#5 ++ 0x11#5 ++ 0x0#5 ++ 0x5#3 ++ 0x6#8) = .ok (.vabsF 3 17 5) := by
  and_intros <;> rfl

theorem test_decode_vector2 :
    decodeWord (0x28#6 ++ 0x3#5 ++ 0x11#5 ++ 0x0#5 ++ 0x5#3 ++ 0x7#8) = .ok (.vnegF 3 17 5)
    ∧ decodeWord (0x28#6 ++ 0x3#5 ++ 0x11#5 ++ 0x0#5 ++ 0x5#3 ++ 0x8#8) = .ok (.vrcp 3 17 5)
    ∧ decodeWord (0x28#6 ++ 0x3#5 ++ 0x11#5 ++ 0x0#5 ++ 0x5#3 ++ 0x9#8) = .ok (.vrsq 3 17 5)
    ∧ decodeWord (0x28#6 ++ 0x3#5 ++ 0x11#5 ++ 0x0#5 ++ 0x5#3 ++ 0xA#8) = .ok (.vexp2 3 17 5)
    ∧ decodeWord (0x28#6 ++ 0x3#5 ++ 0x11#5 ++ 0x0#5 ++ 0x5#3 ++ 0xB#8) = .ok (.vlog2 3 17 5)
    ∧ decodeWord (0x28#6 ++ 0x3#5 ++ 0x11#5 ++ 0x0#5 ++ 0x5#3 ++ 0x18#8) = .ok (.vbcast 3 17 5)
    ∧ decodeWord (0x28#6 ++ 0x3#5 ++ 0x11#5 ++ 0x0#5 ++ 0x5#3 ++ 0x1A#8) = .ok (.vredsumF 3 17 5)
    ∧ decodeWord (0x28#6 ++ 0x3#5 ++ 0x11#5 ++ 0x0#5 ++ 0x5#3 ++ 0x1B#8) = .ok (.vredmaxF 3 17 5)
    ∧ decodeWord (0x28#6 ++ 0x3#5 ++ 0x11#5 ++ 0x1A#5 ++ 0x0#3 ++ 0x19#8) = .ok (.vext 3 17 26)
    ∧ decodeWord (0x28#6 ++ 0x3#5 ++ 0x0#5 ++ 0x0#5 ++ 0x5#3 ++ 0x1D#8) = .ok (.viota 3 5) := by
  and_intros <;> rfl

theorem test_decode_mask0 :
    decodeWord (0x29#6 ++ 0x6#5 ++ 0x11#5 ++ 0x1A#5 ++ 0x5#3 ++ 0x0#8) = .ok (.vcmpeqF 6 17 26 5)
    ∧ decodeWord (0x29#6 ++ 0x6#5 ++ 0x11#5 ++ 0x1A#5 ++ 0x5#3 ++ 0x1#8) = .ok (.vcmpltF 6 17 26 5)
    ∧ decodeWord (0x29#6 ++ 0x6#5 ++ 0x11#5 ++ 0x1A#5 ++ 0x5#3 ++ 0x2#8) = .ok (.vcmpleF 6 17 26 5)
    ∧ decodeWord (0x29#6 ++ 0x6#5 ++ 0x11#5 ++ 0x1A#5 ++ 0x5#3 ++ 0x3#8) = .ok (.vcmpunF 6 17 26 5)
    ∧ decodeWord (0x29#6 ++ 0x6#5 ++ 0x11#5 ++ 0x1A#5 ++ 0x5#3 ++ 0x4#8) = .ok (.vcmpeqI 6 17 26 5)
    ∧ decodeWord (0x29#6 ++ 0x6#5 ++ 0x11#5 ++ 0x1A#5 ++ 0x5#3 ++ 0x5#8) = .ok (.vcmpltI 6 17 26 5)
    ∧ decodeWord (0x29#6 ++ 0x6#5 ++ 0x11#5 ++ 0x1A#5 ++ 0x5#3 ++ 0x6#8) = .ok (.vcmpltuI 6 17 26 5)
    ∧ decodeWord (0x29#6 ++ 0x3#5 ++ 0x11#5 ++ 0x1A#5 ++ 0x5#3 ++ 0x10#8) = .ok (.vsel 3 17 26 5)
    ∧ decodeWord (0x29#6 ++ 0x6#5 ++ 0x3#5 ++ 0x5#5 ++ 0x0#3 ++ 0x20#8) = .ok (.mand 6 3 5)
    ∧ decodeWord (0x29#6 ++ 0x6#5 ++ 0x3#5 ++ 0x5#5 ++ 0x0#3 ++ 0x21#8) = .ok (.mor 6 3 5)
    ∧ decodeWord (0x29#6 ++ 0x6#5 ++ 0x3#5 ++ 0x5#5 ++ 0x0#3 ++ 0x22#8) = .ok (.mxor 6 3 5)
    ∧ decodeWord (0x29#6 ++ 0x6#5 ++ 0x3#5 ++ 0x0#5 ++ 0x0#3 ++ 0x23#8) = .ok (.mnot 6 3) := by
  and_intros <;> rfl

theorem test_decode_mask1 :
    decodeWord (0x29#6 ++ 0x3#5 ++ 0x6#5 ++ 0x0#5 ++ 0x0#3 ++ 0x24#8) = .ok (.mpop 3 6)
    ∧ decodeWord (0x29#6 ++ 0x6#5 ++ 0x11#5 ++ 0x0#5 ++ 0x0#3 ++ 0x25#8) = .ok (.mset 6 17) := by
  and_intros <;> rfl

theorem test_decode_vectorMemory :
    decodeWord (0x2A#6 ++ 0x3#5 ++ 0x11#5 ++ 0x8001#16) = .ok (.vld 3 17 0x8001)
    ∧ decodeWord (0x2B#6 ++ 0x3#5 ++ 0x11#5 ++ 0x8001#16) = .ok (.vst 3 17 0x8001)
    ∧ decodeWord (0x2C#6 ++ 0x3#5 ++ 0x11#5 ++ 0x1A#5 ++ 0x5#3 ++ 0x0#8) = .ok (.vlds 3 17 26 5)
    ∧ decodeWord (0x2C#6 ++ 0x3#5 ++ 0x11#5 ++ 0x1A#5 ++ 0x5#3 ++ 0x1#8) = .ok (.vsts 3 17 26 5)
    ∧ decodeWord (0x2C#6 ++ 0x3#5 ++ 0x11#5 ++ 0x1A#5 ++ 0x5#3 ++ 0x2#8) = .ok (.vgather 3 17 26 5)
    ∧ decodeWord (0x2C#6 ++ 0x3#5 ++ 0x11#5 ++ 0x1A#5 ++ 0x5#3 ++ 0x3#8) = .ok (.vscatter 3 17 26 5)
    ∧ decodeWord (0x2C#6 ++ 0x3#5 ++ 0x11#5 ++ 0x0#5 ++ 0x5#3 ++ 0x4#8) = .ok (.vcompress 3 17 5)
    ∧ decodeWord (0x2C#6 ++ 0x3#5 ++ 0x11#5 ++ 0x0#5 ++ 0x5#3 ++ 0x5#8) = .ok (.vexpand 3 17 5) := by
  and_intros <;> rfl

theorem test_decode_conversion :
    decodeWord (0x2D#6 ++ 0x3#5 ++ 0x11#5 ++ 0x0#3 ++ 0x2#2 ++ 0x0#3 ++ 0x0#8) = .ok (.vdec 3 17 2)
    ∧ decodeWord (0x2D#6 ++ 0x3#5 ++ 0x11#5 ++ 0x1A#5 ++ 0x0#3 ++ 0x1#8) = .ok (.venc 3 17 26)
    ∧ decodeWord (0x2D#6 ++ 0x3#5 ++ 0x11#5 ++ 0x1A#5 ++ 0x0#3 ++ 0x81#8) = .ok (.vencAuto 3 17 26)
    ∧ decodeWord (0x2D#6 ++ 0x3#5 ++ 0x11#5 ++ 0x16#5 ++ 0x5#3 ++ 0x2#8) = .ok (.vcvt 3 17 0b10110 5)
    ∧ decodeWord (0x2D#6 ++ 0x3#5 ++ 0x11#5 ++ 0x1A#5 ++ 0x5#3 ++ 0x3#8) = .ok (.vcvts 3 17 26 5) := by
  and_intros <;> rfl

theorem test_decode_channel :
    decodeWord (0x30#6 ++ 0x0#5 ++ 0x11#5 ++ 0x1A#5 ++ 0x1#1 ++ 0x0#10) = .ok (.send 17 26 1)
    ∧ decodeWord (0x30#6 ++ 0x0#5 ++ 0x11#5 ++ 0x1A#5 ++ 0x1#1 ++ 0x1#10) = .ok (.sendc 17 26 1)
    ∧ decodeWord (0x31#6 ++ 0x3#5 ++ 0x11#5 ++ 0x0#5 ++ 0x0#11) = .ok (.patset 3 17)
    ∧ decodeWord (0x31#6 ++ 0x0#5 ++ 0x11#5 ++ 0x0#5 ++ 0x1#11) = .ok (.patclr 17)
    ∧ decodeWord (0x31#6 ++ 0x3#5 ++ 0x11#5 ++ 0x1A#5 ++ 0x2#11) = .ok (.chcfg 3 17 26)
    ∧ decodeWord (0x31#6 ++ 0x3#5 ++ 0x11#5 ++ 0x0#5 ++ 0x3#11) = .ok (.chcnt 3 17) := by
  and_intros <;> rfl

theorem test_decode_fabric :
    decodeWord (0x32#6 ++ 0x0#5 ++ 0x0#5 ++ 0x0#5 ++ 0x0#11) = .ok .flush
    ∧ decodeWord (0x32#6 ++ 0x0#5 ++ 0x0#5 ++ 0x0#5 ++ 0x2#11) = .ok .fenceRel
    ∧ decodeWord (0x32#6 ++ 0x0#5 ++ 0x0#5 ++ 0x0#5 ++ 0x3#11) = .ok .fenceAcq
    ∧ decodeWord (0x32#6 ++ 0x0#5 ++ 0x0#5 ++ 0x0#5 ++ 0x4#11) = .ok .fenceAll
    ∧ decodeWord (0x32#6 ++ 0x0#5 ++ 0x11#5 ++ 0x0#5 ++ 0x1#11) = .ok (.flushd 17)
    ∧ decodeWord (0x32#6 ++ 0x3#5 ++ 0x0#5 ++ 0x0#5 ++ 0x5#11) = .ok (.aggst 3)
    ∧ decodeWord (0x32#6 ++ 0x0#5 ++ 0x11#5 ++ 0x1A#5 ++ 0x6#11) = .ok (.aggcfg 17 26) := by
  and_intros <;> rfl

theorem test_decode_engine :
    decodeWord (0x33#6 ++ 0x2#5 ++ 0x11#5 ++ 0x0#5 ++ 0x0#11) = .ok (.stg 2 17)
    ∧ decodeWord (0x33#6 ++ 0x3#5 ++ 0x0#5 ++ 0x2#5 ++ 0x1#11) = .ok (.enq 3 2)
    ∧ decodeWord (0x33#6 ++ 0x3#5 ++ 0x11#5 ++ 0x0#5 ++ 0x2#11) = .ok (.tkst 3 17)
    ∧ decodeWord (0x33#6 ++ 0x3#5 ++ 0x11#5 ++ 0x0#5 ++ 0x3#11) = .ok (.ecancel 3 17)
    ∧ decodeWord (0x33#6 ++ 0x0#5 ++ 0x11#5 ++ 0x0#5 ++ 0x4#11) = .ok (.ldstg 17) := by
  and_intros <;> rfl

theorem test_decode_census :
    decodeWord (0x34#6 ++ 0x3#5 ++ 0x11#5 ++ 0x0#5 ++ 0x0#11) = .ok (.solicit 3 17)
    ∧ decodeWord (0x34#6 ++ 0x0#5 ++ 0x11#5 ++ 0x1A#5 ++ 0x1#11) = .ok (.respond 17 26)
    ∧ decodeWord (0x34#6 ++ 0x3#5 ++ 0x11#5 ++ 0x0#5 ++ 0x2#11) = .ok (.diradd 3 17)
    ∧ decodeWord (0x34#6 ++ 0x3#5 ++ 0x11#5 ++ 0x0#5 ++ 0x3#11) = .ok (.dirdel 3 17)
    ∧ decodeWord (0x34#6 ++ 0x3#5 ++ 0x11#5 ++ 0x0#5 ++ 0x6#11) = .ok (.censt 3 17)
    ∧ decodeWord (0x34#6 ++ 0x3#5 ++ 0x11#5 ++ 0x1A#5 ++ 0x4#11) = .ok (.dirmove 3 17 26)
    ∧ decodeWord (0x34#6 ++ 0x0#5 ++ 0x11#5 ++ 0x0#5 ++ 0x5#11) = .ok (.cenclose 17) := by
  and_intros <;> rfl

theorem test_decode_barrier :
    decodeWord (0x35#6 ++ 0x3#5 ++ 0x11#5 ++ 0x0#5 ++ 0x0#11) = .ok (.baralloc 3 17)
    ∧ decodeWord (0x35#6 ++ 0x3#5 ++ 0x11#5 ++ 0x0#5 ++ 0x4#11) = .ok (.barst 3 17)
    ∧ decodeWord (0x35#6 ++ 0x0#5 ++ 0x11#5 ++ 0x0#5 ++ 0x1#11) = .ok (.barfree 17)
    ∧ decodeWord (0x35#6 ++ 0x0#5 ++ 0x11#5 ++ 0x0#5 ++ 0x2#11) = .ok (.arrive 17)
    ∧ decodeWord (0x35#6 ++ 0x0#5 ++ 0x11#5 ++ 0x0#5 ++ 0x3#11) = .ok (.arrived 17) := by
  and_intros <;> rfl

theorem test_decode_system :
    decodeWord (0x38#6 ++ 0x3#5 ++ 0x0#5 ++ 0x0#4 ++ 0x821#12) = .ok (.mfc 3 0x821)
    ∧ decodeWord (0x38#6 ++ 0x0#5 ++ 0x11#5 ++ 0x1#4 ++ 0x821#12) = .ok (.mtc 17 0x821)
    ∧ decodeWord (0x38#6 ++ 0x0#5 ++ 0x0#5 ++ 0x2#4 ++ 0x821#12) = .ok (.trap 0x821)
    ∧ decodeWord (0x38#6 ++ 0x0#5 ++ 0x0#5 ++ 0x3#4 ++ 0x0#12) = .ok .rte
    ∧ decodeWord (0x38#6 ++ 0x0#5 ++ 0x0#5 ++ 0x4#4 ++ 0x0#12) = .ok .endAct
    ∧ decodeWord (0x38#6 ++ 0x0#5 ++ 0x0#5 ++ 0x4#4 ++ 0x1#12) = .ok .endExit
    ∧ decodeWord (0x38#6 ++ 0x0#5 ++ 0x0#5 ++ 0x5#4 ++ 0x0#12) = .ok .brk
    ∧ decodeWord (0x38#6 ++ 0x0#5 ++ 0x0#5 ++ 0x6#4 ++ 0x0#12) = .ok .retry
    ∧ decodeWord (0x38#6 ++ 0x0#5 ++ 0x0#5 ++ 0x9#4 ++ 0x0#12) = .ok .nop
    ∧ decodeWord (0x38#6 ++ 0x0#5 ++ 0x0#5 ++ 0xA#4 ++ 0x0#12) = .ok .ifence
    ∧ decodeWord (0x38#6 ++ 0x3#5 ++ 0x11#5 ++ 0x7#4 ++ 0x0#12) = .ok (.launch 3 17)
    ∧ decodeWord (0x38#6 ++ 0x0#5 ++ 0x0#5 ++ 0x8#4 ++ 0x0#10 ++ 0x2#2) = .ok (.cancel 2) := by
  and_intros <;> rfl

theorem test_decode_rejects :
    decodeWord (0x00000000#32) = .error .unusedMajor
    ∧ decodeWord (0xD#6 ++ 0x1#26) = .error .unusedMajor
    ∧ decodeWord (0x1#6 ++ 0x3#5 ++ 0x11#5 ++ 0x1A#5 ++ 0x400#11) = .error .absentCode
    ∧ decodeWord (0x1#6 ++ 0x3#5 ++ 0x11#5 ++ 0x1#5 ++ 0x10#11) = .error .mustBeZero
    ∧ decodeWord (0x9#6 ++ 0x3#5 ++ 0x11#5 ++ 0x3#2 ++ 0x0#8 ++ 0x1#6) = .error .absentCode
    ∧ decodeWord (0x23#6 ++ 0x0#5 ++ 0x11#5 ++ 0x1A#5 ++ 0x0#1 ++ 0x14#10) = .error .mustBeZero
    ∧ decodeWord (0x33#6 ++ 0x3#5 ++ 0x0#5 ++ 0x3#5 ++ 0x1#11) = .error .illegalField
    ∧ decodeWord (0x2D#6 ++ 0x3#5 ++ 0x11#5 ++ 0x18#5 ++ 0x0#3 ++ 0x2#8) = .error .illegalField
    ∧ decodeWord (0x38#6 ++ 0x0#5 ++ 0x0#5 ++ 0x8#4 ++ 0x0#12) = .error .illegalField
    ∧ decodeWord (0x38#6 ++ 0x0#5 ++ 0x0#5 ++ 0xB#4 ++ 0x0#12) = .error .absentCode := by
  and_intros <;> rfl

/-! Ill-formed terms, which WellFormed refuses and the decoder rejects -/

theorem test_enq_engine_refused : Instr.wellFormed (.enq 3 3) = false ∧ Instr.wellFormed (.enq 3 2) = true := by decide

theorem test_vcvt_selector_refused : Instr.wellFormed (.vcvt 1 2 0b11000 0) = false ∧ Instr.wellFormed (.vcvt 1 2 0b10111 0) = true := by decide

theorem test_cancel_level_refused : Instr.wellFormed (.cancel 0) = false ∧ Instr.wellFormed (.cancel 3) = true := by decide

/-! Encoding and fetching -/

/-- R1, R26: the word lies in memory least significant byte first, at 0x0_0100. -/
theorem test_fetch_runs_the_word : next (step (State.reset.withFetchWord 32 0x0C61FFFF)) (fun t => decide (((t.core 0).slot 0).reg 3 = 0xFFFFFFFFFFFFFFFF#64)
    && decide (((t.core 0).slot 0).pc = 0x104)) = true := by decide +kernel

theorem test_table_word : decodeTableWord 32 0x04610800 = some (.add 3 1 1) := by decide

/-- R29, R53: reset runs nothing; a step is an idle cycle of core 0. -/
theorem test_reset_step : next (step State.reset) (fun t => decide ((t.core 0).cycle = 1) && decide (t.hub = State.reset.hub)) = true := by decide +kernel

/-! One step each; results by hand from the rules named -/

/-- R128. -/
theorem test_add_wraps : next (exec (.add 3 1 2) (regs [(1, 0xFFFFFFFFFFFFFFFF), (2, 2)])) (fun t => decide (t.reg 3 = 1 ∧ t.pc = 0x104)) = true := by decide
/-- R21: a write to g0 is discarded. -/
theorem test_add_to_g0 : next (exec (.add 0 1 2) (regs [(1, 5), (2, 2)])) (fun t => decide (t.reg 0 = 0 ∧ t.pc = 0x104)) = true := by decide
/-- R128: SRA shifts by the low six bits. -/
theorem test_sra_counts_six_bits : next (exec (.sra 3 1 2) (regs [(1, 0x8000000000000000), (2, 0x41)])) (fun t => decide (t.reg 3 = 0xC000000000000000#64)) = true := by decide
/-- R128: SEL picks on g d. -/
theorem test_sel : next (exec (.sel 3 1 2) (regs [(1, 7), (2, 9), (3, 0)])) (fun t => decide (t.reg 3 = 9)) = true := by decide
/-- R129: a signed field. -/
theorem test_bfx_signed : next (exec (.bfx 3 1 2) (regs [(1, 0xF00), (2, 0x8408)])) (fun t => decide (t.reg 3 = 0xFFFFFFFFFFFFFFFF#64)) = true := by decide
/-- R130: the quotient that overflows, and division by zero. -/
theorem test_div_overflow : next (exec (.div 3 1 2) (regs [(1, 0x8000000000000000), (2, 0xFFFFFFFFFFFFFFFF)])) (fun t => decide (t.reg 3 = 0x8000000000000000#64)) = true := by decide
theorem test_rem_by_zero : next (exec (.rem 3 1 2) (regs [(1, 77), (2, 0)])) (fun t => decide (t.reg 3 = 77)) = true := by decide
/-- R131: ORI zero-extends, XORI sign-extends. -/
theorem test_ori_zero_extends : next (exec (.ori 3 1 0x8000) (regs [(1, 1)])) (fun t => decide (t.reg 3 = 0x8001#64)) = true := by decide
theorem test_xori_sign_extends : next (exec (.xori 3 1 0x8000) (regs [(1, 0)])) (fun t => decide (t.reg 3 = 0xFFFFFFFFFFFF8000#64)) = true := by decide
/-- R132. -/
theorem test_lix : next (exec (.lix 3 0x1FFFFF) (regs [(3, 1)])) (fun t => decide (t.reg 3 = 0x3FFFFF#64)) = true := by decide
/-- R133: a branch backwards, by words. -/
theorem test_branch_back : next (exec (.bltu 1 2 0xFFFF) (regs [(1, 1), (2, 0xFFFFFFFFFFFFFFFF)])) (fun t => decide (t.pc = 0xFC)) = true := by decide
/-- R134: the target is formed before the link is written. -/
theorem test_jalr_links : next (exec (.jalr 1 1 4) (regs [(1, 0x200)])) (fun t => decide (t.pc = 0x204 ∧ t.reg 1 = 0x104)) = true := by decide

/-- R1, R135. -/
theorem test_std_little_endian : next (exec (.std 3 1 8) (regs [(1, 0x1000), (3, 0x8877665544332211)])) (fun t =>
    decide (readByte t.here.ls 0x1008 = 0x11 ∧ readByte t.here.ls 0x100F = 0x88 ∧ readByte t.here.ls 0x1010 = 0)) = true := by decide
theorem test_ldb_signed : next (exec (.ldb 3 1 0) (pair { unit 0 [(1, 0x1001)] with ls := [(0x1001, 0x80)] })) (fun t => decide (t.reg 3 = 0xFFFFFFFFFFFFFF80#64)) = true := by decide
/-- R197: a word compare and swap that matches. -/
theorem test_amocas : next (exec (.amocas 3 1 2 1) (pair { unit 0 [(1, 0x1000), (2, 9), (3, 5)] with ls := [(0x1000, 5)] })) (fun t =>
    decide (t.reg 3 = 5 ∧ readByte t.here.ls 0x1000 = 9)) = true := by decide
/-- R135: a misaligned word without a trap entry ends the gang with ALIGN. -/
theorem test_misaligned_word : next (exec (.ldw 3 1 0) { regs [(1, 0x1002)] with hub := { Hub.reset with log := [] } }) (fun t =>
    decide (t.me.state = .stopped ∧ t.hub.log = [⟨0, 0, 2, some 5⟩])) = true := by decide
/-- R136: a load from the other core leaves as one request. -/
theorem test_remote_load : next (exec (.ldd 3 1 0) (regs [(1, 0x7FFFFE0000101000)])) (fun t =>
    decide (t.net.length = 1 ∧ t.here.outstand = 1 ∧ t.here.pending 0 (.g 3) = true ∧ t.pc = 0x104)) = true := by decide

/-- R143, R147: lanes under a mask. -/
theorem test_vadd_masked : next (exec (.vaddI 1 2 3 4) (pair { unit 0 [] with slots := Core.reset.slots.set 0 { runner [] with v := (Vector.replicate 32 0).set 2 (0xFFFFFFFF00000001#2048) |>.set 3 (0x0000000200000002#2048), m := (Vector.replicate 8 0).set 4 2 } })) (fun t =>
    decide (lane (t.vreg 1) 0 = 0 ∧ lane (t.vreg 1) 1 = 1)) = true := by decide +kernel
/-- R145: 1.0 + 2^-24 is a tie, to even. -/
theorem test_vadd_rounds_to_even : next (exec (.vaddF 1 2 3 0) (pair { unit 0 [] with slots := Core.reset.slots.set 0 { runner [] with v := (Vector.replicate 32 0).set 2 (0x3F800000#2048) |>.set 3 (0x33800000#2048) } })) (fun t => decide (lane (t.vreg 1) 0 = 0x3F800000#32)) = true := by decide +kernel
/-- R152: a NaN is unordered. -/
theorem test_vcmp_nan : next (exec (.vcmpeqF 1 2 2 0) (pair { unit 0 [] with slots := Core.reset.slots.set 0 { runner [] with v := (Vector.replicate 32 0).set 2 (0x7FC00000#2048) } })) (fun t => decide ((t.mask 1).getLsbD 0 = false ∧ (t.mask 1).getLsbD 1 = true)) = true := by decide +kernel

/-- R23, R25. -/
theorem test_mtc_rmode_clamps : next (exec (.mtc 1 0x031) (regs [(1, 6)])) (fun t => decide (t.me.rmode = 0)) = true := by decide
theorem test_mfc_privileged : next (exec (.mfc 3 0x100) (regs [])) (fun t => decide (t.hub.log = [⟨0, 0, 0x0E, some 5⟩] ∧ t.reg 3 = 0)) = true := by decide
/-- R278: TRAP with an entry. -/
theorem test_trap_enters : next (exec (.trap 9) (pair { unit 0 [] with ctl := { Control.reset with trapvec := 0x400 } })) (fun t =>
    decide (t.pc = 0x400 ∧ t.me.epc = 0x104 ∧ t.me.cause = 0x0C ∧ t.me.tval = 9 ∧ t.me.intrap = true)) = true := by decide
/-- R281: RTE goes back. -/
theorem test_rte_returns : next (exec .rte (pair { unit 0 [] with slots := Core.reset.slots.set 0 { runner [] with intrap := true, epc := 0x104 } })) (fun t =>
    decide (t.pc = 0x104 ∧ t.me.intrap = false)) = true := by decide
/-- R218: the snapshot of a COUNT channel. -/
theorem test_chcnt : next (exec (.chcnt 3 1) (pair { unit 0 [(1, 2)] with chans := (Vector.replicate 64 Channel.reset).set 2 { Channel.reset with decl := true, count := true, cnt := 5 } })) (fun t => decide (t.reg 3 = 0xC000000000000005#64)) = true := by decide
/-- R331: an empty mailbox reads 0 and changes nothing; a word enters the mailbox (self, j). -/
theorem test_mailbox : next (exec (.txWrite 2 5 7) State.reset) (fun t => decide (t.fw.box 2 5 = [7] ∧ t.fw.box 5 2 = [])) = true := by decide
/-- R318: the routes that the rule works out. -/
theorem test_routes : minimalRoute 0 1024 = (1, 0) ∧ minimalRoute 1 1024 = (1, 31) ∧ minimalRoute 1 1056 = (2, 31) := by decide +kernel

/-! Witnesses: for each statement, states and operands that meet its hypotheses, clause by clause -/

theorem some_mem_replicate {α : Type} {n : Nat} (x : α) : ¬ some x ∈ (Vector.replicate n (none : Option α)).toList := by simp

/-- Own-core bytes that a user slot of a gang may read. -/
theorem readable_in {k : Core} {off n : Nat} (hl : k.locks = Vector.replicate 16 none) (hp : k.page.lsbytes = 0x60000)
    (h : off + n ≤ 0x60000 ∨ (0x80000 ≤ off ∧ off + n ≤ 0x90000)) : Readable k off n := by
  intro j h1 h2
  refine ⟨by omega, fun l hm => ?_⟩
  rw [hl] at hm
  exact absurd hm (some_mem_replicate l)

theorem writable_in {k : Core} {off n : Nat} (hl : k.locks = Vector.replicate 16 none) (hp : k.page.lsbytes = 0x60000)
    (h1 : 0x100 ≤ off) (h2 : off + n ≤ 0x60000) : Writable k off n := by
  intro j h3 h4
  refine ⟨by omega, fun l hm => ?_⟩
  rw [hl] at hm
  exact absurd hm (some_mem_replicate l)

/-- Nothing is left to settle in a slot without a pending AGGF and an NI that holds nothing. -/
theorem nothing_out_in {s : State} (h0 : s.me.aggf = none) (h1 : s.here.ni.reqs = []) (h2 : s.here.ni.bufs = Vector.replicate 16 none)
    (h3 : s.here.ni.retained = []) : NothingOut s := by
  refine ⟨h0, fun i hi => ?_, fun q hq => ?_, fun r hr => ?_⟩
  · rw [h2, Vector.toList_replicate, List.getElem?_replicate, if_pos hi]
  · rw [h1] at hq; cases hq
  · rw [h3] at hr; cases hr

theorem witness_IntegerResults : Ready (.add 3 1 2) (regs []) ∧ Ready (.ori 3 1 0xFFFF) (regs []) ∧ Ready (.lix 3 0x1FFFFF) (regs []) := by decide

theorem witness_BitResults : Ready (.bfi 3 1 2) (regs [(2, 0xFFFF)]) ∧ Ready (.clz 3 1) (regs []) := by decide

theorem witness_MulDivResults : Ready (.div 3 1 2) (regs [(1, 0x8000000000000000), (2, 0xFFFFFFFFFFFFFFFF)])
    ∧ (regs [(1, 0x8000000000000000), (2, 0xFFFFFFFFFFFFFFFF)]).reg 1 = 0x8000000000000000#64
    ∧ (regs [(1, 0x8000000000000000), (2, 0xFFFFFFFFFFFFFFFF)]).reg 2 = 0xFFFFFFFFFFFFFFFF#64 := by decide

theorem witness_BranchesAndJumps : Ready (.beq 1 2 0x8000) (regs []) ∧ Ready (.jalr 1 1 0xFFFC) (regs [(1, 0x200)])
    ∧ ((regs [(1, 0x200)]).reg 1 + (0xFFFC#16).signExtend 64).extractLsb' 0 2 = 0#2 := by decide

/-- A byte at the last offset below LSBYTES, wider data at the last that fits; the accumulator store is read only. -/
theorem witness_OwnLoadsAndStores :
    (User (regs [(1, 0x5FFFF)]) ∧ Readable (regs [(1, 0x5FFFF)]).here 0x5FFFF 1 ∧ Writable (regs [(1, 0x5FFFF)]).here 0x5FFFF 1
      ∧ Ready (.ldb 3 1 0) (regs [(1, 0x5FFFF)]) ∧ Ready (.stb 3 1 0) (regs [(1, 0x5FFFF)]))
    ∧ (Readable (regs [(1, 0x5FFFE)]).here 0x5FFFE 2 ∧ Writable (regs [(1, 0x5FFFE)]).here 0x5FFFE 2 ∧ Ready (.sth 3 1 0) (regs [(1, 0x5FFFE)]))
    ∧ (Readable (regs [(1, 0)]).here 0 4 ∧ Writable (regs [(1, 0x100)]).here 0x100 4 ∧ Ready (.stw 3 1 0) (regs [(1, 0x100)]))
    ∧ (Readable (regs [(1, 0x8FFF8)]).here 0x8FFF8 8 ∧ Writable (regs [(1, 0x5FFF8)]).here 0x5FFF8 8 ∧ Ready (.std 3 1 0) (regs [(1, 0x5FFF8)])) := by
  refine ⟨⟨by decide, ?_, ?_, by decide, by decide⟩, ⟨?_, ?_, by decide⟩, ⟨?_, ?_, by decide⟩, ?_, ?_, by decide⟩
  · exact readable_in rfl rfl (by omega)
  · exact writable_in rfl rfl (by omega) (by omega)
  · exact readable_in rfl rfl (by omega)
  · exact writable_in rfl rfl (by omega) (by omega)
  · exact readable_in rfl rfl (by omega)
  · exact writable_in rfl rfl (by omega) (by omega)
  · exact readable_in rfl rfl (by omega)
  · exact writable_in rfl rfl (by omega) (by omega)

theorem witness_OwnHeadersMove : User (regs [(1, 0x100)]) ∧ ((regs [(1, 0x100)]).reg 1 + (0#15).zeroExtend 64).toNat % 64 = 0
    ∧ Readable (regs [(1, 0x100)]).here 0x100 64 ∧ Writable (regs [(1, 0x100)]).here 0x100 64 ∧ Ready (.sthdr 3 1 0) (regs [(1, 0x100)]) :=
  ⟨by decide, by decide, readable_in rfl rfl (by omega), writable_in rfl rfl (by omega) (by omega), by decide⟩

theorem witness_OwnAtomicsUpdate : User (regs [(1, 0x104)]) ∧ Writable (regs [(1, 0x104)]).here 0x104 4 ∧ Ready (.amocas 3 1 2 1) (regs [(1, 0x104)])
    ∧ Writable (regs [(1, 0x5FFF8)]).here 0x5FFF8 8 ∧ Ready (.amoadd 3 1 2 0) (regs [(1, 0x5FFF8)]) :=
  ⟨by decide, writable_in rfl rfl (by omega) (by omega), by decide, writable_in rfl rfl (by omega) (by omega), by decide⟩

theorem witness_OwnReductions : User (regs [(1, 0x104)]) ∧ Writable (regs [(1, 0x104)]).here 0x104 4 ∧ Ready (.redFadd 1 2) (regs [(1, 0x104)])
    ∧ Writable (regs [(1, 0x100)]).here 0x100 8 ∧ Ready (.redOr 1 2 0) (regs [(1, 0x100)]) :=
  ⟨by decide, writable_in rfl rfl (by omega) (by omega), by decide, writable_in rfl rfl (by omega) (by omega), by decide⟩

/-- A peer core by rank, device memory, 256 bytes over a page boundary, and 64 words of a peer core. -/
theorem witness_RemoteRequests :
    (((regs [(1, 0x7FFFFE0000101000)]).place 0x7FFFFE0000101000#64).dest = some (.core 1) ∧ Ready (.ldd 3 1 0) (regs [(1, 0x7FFFFE0000101000)])
    ∧ ((regs []).place 0x8000000000001000#64).dest ≠ none ∧ Ready (.amoadd 3 1 2 0) (regs [(1, 0x8000000000001000)])
    ∧ ((regs []).place 0x7FFFFE0000101000#64).holds 256 = true ∧ crosses 0x7FFFFE0000101000#64 256 = false ∧ Ready (.vst 3 1 0) (regs [(1, 0x7FFFFE0000101000)])
    ∧ ((regs []).place 0x800000000000FF80#64).dest ≠ none ∧ ((regs []).place 0x800000000000FF80#64).holds 256 = true
    ∧ crosses 0x800000000000FF80#64 256 = true ∧ Ready (.vst 3 1 0) (regs [(1, 0x800000000000FF80)])
    ∧ Ready (.vdec 3 1 0) (regs [(1, 0x7FFFFE0000101000)]) ∧ Ready (.sthdr 3 1 0) (regs [(1, 0x7FFFFE0000101000)]))
    ∧ ((∀ k, k < 64 → ((regs []).mask 0).getLsbD k = true → (0x7FFFFE0000101000#64 + BitVec.ofNat 64 k * 4#64).toNat % 4 = 0
        ∧ ((regs []).place (0x7FFFFE0000101000#64 + BitVec.ofNat 64 k * 4#64)).dest ≠ none)
      ∧ ((regs []).mask 0).getLsbD 0 = true ∧ Ready (.vlds 3 1 2 0) (regs [(1, 0x7FFFFE0000101000), (2, 4)])
      ∧ Ready (.vgather 3 1 2 0) (regs [(1, 0x7FFFFE0000101000)]))
    ∧ (Fmt.ofCode (hdrFmt 1#32) = some .fp32 ∧ Fmt.fp32.encodable = true ∧ Fmt.fp32.narrow = false
      ∧ Ready (.venc 3 1 2) (regs [(3, 0x7FFFFE0000101000), (2, 1)]) ∧ Ready (.vencAuto 3 1 2) (regs [(3, 0x7FFFFE0000101000), (2, 1)])) := by
  decide +kernel

theorem witness_RemoteStoresEnterBuffers :
    ((regs []).place 0x7FFFFE0000101001#64).dest = some (.core 1) ∧ Ready (.stb 3 1 1) (regs [(1, 0x7FFFFE0000101000)])
    ∧ ((regs [(1, 0x7FFFFE0000101004)]).reg 1).toNat % 4 = 0 ∧ Ready (.redAdd 1 2 1) (regs [(1, 0x7FFFFE0000101004)])
    ∧ Ready (.redFadd 1 2) (regs [(1, 0x7FFFFE0000101004)]) := by decide

/-- An OPEN buffer for core 1 with a reduction of one word at 0x1004: RED.ADD merges with it, RED.MIN, RED.ADD of a dword and one of another
CDC value do not. -/
theorem witness_RemoteStoresEnterBuffers_merge :
    let old : Element := ⟨0x7FFFFE0000101004, .redAdd, 4, 7, [(1, 0)], 1, 0, 0⟩
    let s := pair { unit 0 [(1, 0x7FFFFE0000101004), (2, 0xFFFFFFFF00000003)] with ni := { Ni.reset with bufs := (Vector.replicate 16 none).set 2 (some ⟨.core 1, [old], false⟩) } }
    (s.here.ni.bufferOf (.core 1)).isSome = true ∧ (s.here.sharing (s.place (s.reg 1))).merge = true
      ∧ [old].head?.map Element.cdc = some s.me.cdc.toNat
      ∧ ([old].filter (fun e => overlaps (s.here.elemAt s.fab.device e) e.width (s.place (s.reg 1)).at 4)).getLast? = some old
      ∧ s.here.elemAt s.fab.device old = (s.place (s.reg 1)).at ∧ Ready (.redAdd 1 2 1) s ∧ Ready (.redMin 1 2 1) s
      ∧ next (exec (.redAdd 1 2 1) s) (fun t => (t.here.ni.bufferOf (.core 1)).all (fun p => decide (p.2.elems.map Element.value = [10]))) = true := by decide +kernel

/-- A trap entry, and an address off by one. -/
theorem witness_MisalignedTraps : let s := pair { unit 0 [(1, 0x1001)] with ctl := { Control.reset with trapvec := 0x400 } }
    User s ∧ s.here.ctl.trapvec &&& 0xFFFFC#64 ≠ 0 ∧ s.me.intrap = false ∧ (s.reg 1 + (0#16).signExtend 64).toNat % 2 ≠ 0 ∧ Ready (.ldh 3 1 0) s ∧ Ready (.vst 3 1 0) s
      ∧ Ready (.sthdr 3 1 0) s ∧ Ready (.amoadd 3 1 2 0) s ∧ (s.reg 1 + (0#16).signExtend 64).extractLsb' 0 2 ≠ 0#2 ∧ Ready (.jalr 3 1 0) s := by decide

/-- The first offset at LSBYTES, the last of the gang page, the ends of the privileged windows, the ends of the hole, an address of no
form, fetches at both ends, and a fetch under a lock. -/
theorem witness_BadAccessEndsGang :
    (let s := pair { unit 0 [(1, 0x1000)] with page := { page 0 with lsbytes := 0x1000 } }; User s ∧ s.here.page.lsbytes ≤ 0x1000 ∧ Ready (.ldb 3 1 0) s ∧ Ready (.stb 3 1 0) s)
    ∧ Ready (.stb 3 1 0) (regs [(1, 0xFF)]) ∧ Ready (.ldb 3 1 0) (regs [(1, 0xD0000)]) ∧ Ready (.stb 3 1 0) (regs [(1, 0xDBFFF)])
    ∧ Ready (.ldb 3 1 0) (regs [(1, 0x60000)]) ∧ Ready (.stb 3 1 0) (regs [(1, 0x7FFFF)])
    ∧ ((regs []).place 0x0000000000100000#64 = .bad ∧ Ready (.ldb 3 1 0) (regs [(1, 0x100000)]))
    ∧ (let s := pair { unit 0 [] with page := { page 0 with lsbytes := 0x100 } }; s.me.fetched = [] ∧ s.here.page.lsbytes ≤ s.pc.toNat)
    ∧ (let l : Lock := ⟨true, 1, 0, 0x100, 0x140⟩; let s := pair { unit 0 [] with locks := (Vector.replicate 16 none).set 3 (some l), ctl := { Control.reset with trapvec := 0x400 } }
       s.me.fetched = [] ∧ 0x100 ≤ s.pc.toNat ∧ s.pc.toNat + 4 ≤ s.here.page.lsbytes ∧ some l ∈ s.here.locks.toList ∧ l.base ≤ s.pc.toNat ∧ s.pc.toNat < l.limit
         ∧ User s ∧ s.here.ctl.trapvec &&& 0xFFFFC#64 ≠ 0 ∧ s.me.intrap = false ∧ Ready .fetchFault s) := by decide

theorem witness_LaneIntegerResults : Ready (.vsra 1 2 3 4) (regs []) := by decide
theorem witness_LaneFloats : Ready (.vfmaF 1 2 3 4) (regs []) ∧ Ready (.vaddD 1 2 3 0) (regs []) ∧ Ready (.vminF 1 2 3 7) (regs []) := by decide
theorem witness_LaneMoveResults : Ready (.vperm 1 2 3 4) (regs []) ∧ Ready (.vext 1 2 3) (regs []) ∧ Ready (.vcompress 1 2 4) (regs []) := by decide
theorem witness_LaneReductionResults : Ready (.vredsumF 1 2 4) (regs []) ∧ Ready (.vredmaxF 1 2 4) (regs []) := by decide
theorem witness_ComparesAndMasks : Ready (.vcmpltF 1 2 3 4) (regs []) ∧ Ready (.mand 1 2 3) (regs []) ∧ Ready (.mset 1 2) (regs []) := by decide

/-- A stochastic rounding of 1 + 2⁻⁹ to BF16 and the bits of R89's worked case. -/
theorem witness_ConversionResults_stochastic :
    drawn 0x8000000080000000 0 0 false = 0x2CFEC9 ∧ (0 < Fmt.bf16.perBlock ∧ [Fp.fin false 513 (-9)][0]? = some (Fp.fin false 513 (-9)))
    ∧ encodeElement .bf16 0 (.stochastic 0x2CFEC9) (.fin false 513 (-9)) = 0x3F81 ∧ encodeElement .bf16 0 (.stochastic 0x400000) (.fin false 513 (-9)) = 0x3F80 := by
  decide +kernel

theorem witness_ConversionResults :
    (Ready (.vcvt 1 2 0b10111 4) (regs []) ∧ Ready (.vcvt 1 2 0b00010 4) (regs []) ∧ Ready (.vcvt 1 2 0b11000 4) (regs [])
      ∧ Ready (.vcvts 1 2 3 4) (regs [(3, 0x70001)]) ∧ (((regs [(3, 0x70001)]).reg 3).extractLsb' 16 3).toNat = 7)
    ∧ (Fmt.int8.encodable = true ∧ Fmt.int8.scaled = true ∧ plain .int8 = 0x03F80008#32
      ∧ (plain .int8).extractLsb' 19 8 ≠ 0#8 ∧ (0#32).extractLsb' 19 8 = 0#8 ∧ (0x07F80000#32).extractLsb' 19 8 = 255#8)
    ∧ Worth (elementValue .int8 0x80) true 127
    ∧ ((∀ x, x ∈ [Fp.fin true 3 0] → ∀ q, countsAs .fp32 x q → q ≤ 3) ∧ (∃ x, x ∈ [Fp.fin true 3 0] ∧ countsAs .fp32 x 3)
      ∧ (2 : ℚ) ^ ((-5 : Int) + 6) ≤ 3 ∧ (3 : ℚ) < 2 ^ ((-5 : Int) + 6 + 1)) := by
  refine ⟨by decide +kernel, by decide +kernel, ⟨127, 0, by decide +kernel, by norm_num⟩, fun x hx q hq => ?_, ⟨_, List.mem_singleton.mpr rfl, ?_⟩, by norm_num, by norm_num⟩
  · rw [List.mem_singleton] at hx
    subst hx
    simp only [countsAs] at hq
    rw [hq]; norm_num
  · simp [countsAs]

theorem witness_OwnVectors : User (regs [(1, 0x5FF00)]) ∧ Readable (regs [(1, 0x5FF00)]).here 0x5FF00 256 ∧ Writable (regs [(1, 0x5FF00)]).here 0x5FF00 256
    ∧ Ready (.vld 3 1 0) (regs [(1, 0x5FF00)]) ∧ Ready (.vst 3 1 0) (regs [(1, 0x5FF00)]) ∧ (regs []).me.lanes = 0
    ∧ (∀ k, k < 64 → ((regs []).mask 4).getLsbD k = true → False)
    ∧ (∀ k, k < 64 → ((regs [(1, 0x100), (2, 8)]).mask 0).getLsbD k = true →
        ((regs [(1, 0x100), (2, 8)]).reg 1 + BitVec.ofNat 64 k * (regs [(1, 0x100), (2, 8)]).reg 2).toNat % 4 = 0
        ∧ Writable (regs [(1, 0x100), (2, 8)]).here ((regs [(1, 0x100), (2, 8)]).reg 1 + BitVec.ofNat 64 k * (regs [(1, 0x100), (2, 8)]).reg 2).toNat 4)
    ∧ Ready (.vsts 3 1 2 0) (regs [(1, 0x100), (2, 8)]) ∧ Ready (.vgather 3 1 2 0) (regs [(1, 0x100)]) := by
  refine ⟨by decide, readable_in rfl rfl (by omega), writable_in rfl rfl (by omega) (by omega), by decide, by decide, by decide, by decide, fun k hk _ => ?_,
    by decide, by decide +kernel⟩
  have h : ∀ k, k < 64 → ((regs [(1, 0x100), (2, 8)]).reg 1 + BitVec.ofNat 64 k * (regs [(1, 0x100), (2, 8)]).reg 2).toNat % 4 = 0
      ∧ 0x100 ≤ ((regs [(1, 0x100), (2, 8)]).reg 1 + BitVec.ofNat 64 k * (regs [(1, 0x100), (2, 8)]).reg 2).toNat
      ∧ ((regs [(1, 0x100), (2, 8)]).reg 1 + BitVec.ofNat 64 k * (regs [(1, 0x100), (2, 8)]).reg 2).toNat + 4 ≤ 0x60000 := by decide +kernel
  exact ⟨(h k hk).1, writable_in rfl rfl (h k hk).2.1 (h k hk).2.2⟩

/-- A RAW block, a CB2 block whose table lies above LSBYTES, an encodable target and a RAW one, a 4-bit target with a = 31. -/
theorem witness_OwnBlocks :
    (User (regs [(1, 0x140)]) ∧ Readable (regs [(1, 0x140)]).here 0x140 64 ∧ (regs [(1, 0x140)]).here.cbFault (viewBlock .fp32 ((regs []).here.header 0x140)) = none
      ∧ Ready (.vdec 3 1 0) (regs [(1, 0x140)]))
    ∧ (let s := pair { unit 0 [(1, 0x140)] with lsHdr := [(5, 10)], ctl := { Control.reset with cbtab := 0x5FC00 }, page := { page 0 with lsbytes := 0x1000 } }
       s.here.cbFault (viewBlock .fp32 (s.here.header 0x140)) ≠ none ∧ Ready (.vdec 3 1 0) s)
    ∧ (∃ f, Fmt.ofCode (hdrFmt 1#32) = some f ∧ f.encodable = true ∧ f.narrow = false) ∧ Writable (regs [(3, 0x140)]).here 0x140 64 ∧ Ready (.venc 3 1 2) (regs [(3, 0x140)])
    ∧ (∀ f, Fmt.ofCode (hdrFmt 0#32) = some f → f.encodable = false ∨ (f.narrow = true ∧ (1 : BitVec 5) = 31#5)) := by
  refine ⟨⟨by decide, readable_in rfl rfl (by omega), by decide, by decide⟩, by decide, ⟨.fp32, by decide⟩, writable_in rfl rfl (by omega) (by omega), by decide, ?_⟩
  intro f hf
  have h : Fmt.ofCode (hdrFmt 0#32) = some .raw := by decide
  rw [h] at hf
  cases hf
  exact Or.inl (by decide)

/-- The unit with one channel declared, and a trap entry. -/
def chanUnit (c : Fin 64) (x : Channel) (rs : List (Nat × Dword)) : Core :=
  { unit 0 rs with chans := (Vector.replicate 64 Channel.reset).set c { x with decl := true }, ctl := { Control.reset with trapvec := 0x400 } }

/-- A message for an empty and for a full hardware queue, at the first and the last channel; counts; kinds that do not fit; no room; offsets
on either side of the windows. -/
theorem witness_Sends :
    (let s := pair (chanUnit 0 Channel.reset [(1, 0xC0000)])
     User s ∧ s.place (s.reg 1) = .own (s.reg 1).toNat ∧ s.here.isMsg 0 = true ∧ (s.here.chan 0).held < 8 ∧ (s.here.chan 0).spill = 0 ∧ Ready (.send 1 2 0) s
       ∧ s.here.isCount 0 = false ∧ Ready (.sendc 1 2 0) s ∧ s.here.ctl.trapvec &&& 0xFFFFC#64 ≠ 0)
    ∧ (let s := pair (chanUnit 63 { Channel.reset with rent := 4, roff := 0x200, msgs := List.replicate 8 (0, 0) } [(1, 0xC03F0)])
       s.here.isMsg 63 = true ∧ (s.here.chan 63).held < 8 + (s.here.chan 63).rent ∧ ¬ ((s.here.chan 63).spill = 0 ∧ (s.here.chan 63).msgs.length < 8) ∧ Ready (.send 1 2 0) s)
    ∧ (let s := pair (chanUnit 63 { Channel.reset with msgs := List.replicate 8 (0, 0) } [(1, 0xC03F0)])
       s.here.isMsg 63 = true ∧ 8 + (s.here.chan 63).rent ≤ (s.here.chan 63).held ∧ Ready (.send 1 2 0) s)
    ∧ (let s := pair (chanUnit 5 { Channel.reset with count := true, cnt := 2 ^ 48 - 1 } [(1, 0xC0050), (2, 1), (3, 0)])
       s.here.isCount 5 = true ∧ 2 ^ 48 ≤ (s.here.chan 5).cnt + ((s.reg 2).extractLsb' 0 48).toNat ∧ (s.here.chan 5).cnt + ((s.reg 3).extractLsb' 0 48).toNat < 2 ^ 48
         ∧ s.here.isMsg 5 = false ∧ Ready (.sendc 1 2 0) s)
    ∧ (let s := regs [(1, 0xBFFF0)]; s.place (s.reg 1) = .own (s.reg 1).toNat ∧ (s.reg 1).toNat % 16 = 0 ∧ Ready (.send 1 2 0) s)
    ∧ (let s := regs [(1, 0xC0400)]; s.place (s.reg 1) = .own (s.reg 1).toNat ∧ (s.reg 1).toNat % 16 = 0 ∧ Ready (.sendc 1 2 0) s)
    ∧ (let s := regs [(1, 0x7FFFFE00001C0010)]; s.place (s.reg 1) = .peer 1 0xC0010 ∧ (s.reg 1).toNat % 16 = 0 ∧ Ready (.send 1 2 0) s)
    ∧ (let s := pair { chanUnit 0 Channel.reset [(1, 0xC0008)] with asid := 0 }; (s.reg 1).toNat % 16 ≠ 0 ∧ s.me.intrap = false ∧ Ready (.send 1 2 0) s)
    ∧ (let s := regs [(1, 0x8000000000001000)]; s.place (s.reg 1) = .va 0x1000 ∧ (s.reg 1).toNat % 16 = 0 ∧ Ready (.send 1 2 0) s) := by decide

theorem witness_Sends_settled : Settled (pair (chanUnit 0 Channel.reset [(1, 0xC0000)])) := ⟨rfl, nothing_out_in rfl rfl rfl rfl⟩

/-- A SEND.REL to another core with room, and with a store full of other slots' packets or a HOLD. -/
theorem witness_Sends_released :
    let full := pair { unit 0 [(1, 0x7FFFFE00001C0010)] with ni := { Ni.reset with retained := List.replicate 32 ⟨0, .core 1, [], none, false, none⟩ } }
    let held := pair { unit 0 [(1, 0x7FFFFE00001C0010)] with ni := { Ni.reset with hold := true } }
    (Settled (regs [(1, 0x7FFFFE00001C0010)]) ∧ Ready (.send 1 2 1) (regs [(1, 0x7FFFFE00001C0010)]))
    ∧ (Settled full ∧ 32 ≤ full.here.ni.retained.length ∧ Ready (.send 1 2 1) full) ∧ (Settled held ∧ held.here.ni.hold = true ∧ Ready (.sendc 1 2 1) held) := by
  intro full held
  refine ⟨⟨⟨rfl, nothing_out_in rfl rfl rfl rfl⟩, by decide⟩, ⟨⟨rfl, rfl, fun i hi => ?_, fun q hq => ?_, fun r hr x hx => ?_⟩, by decide, by decide⟩,
    ⟨⟨rfl, nothing_out_in rfl rfl rfl rfl⟩, rfl, by decide⟩⟩
  · have h : full.here.ni.bufs = Vector.replicate 16 none := rfl
    rw [h, Vector.toList_replicate, List.getElem?_replicate, if_pos hi]
  · have h : full.here.ni.reqs = [] := rfl
    rw [h] at hq; cases hq
  · have h : full.here.ni.retained = List.replicate 32 ⟨0, .core 1, [], none, false, none⟩ := rfl
    rw [h] at hr
    rw [List.eq_of_mem_replicate hr] at hx; cases hx

/-- The last channel and the first past NCHAN; a good, a malformed word; a descriptor at 0x100, at the end, misplaced, and one that fails;
the last pattern and the first past NPAT. -/
theorem witness_ChannelsAndPatterns :
    (let s := regs [(1, 64), (2, 0)]; s.here.page.nchan ≤ (s.reg 1).toNat ∧ Ready (.chcfg 3 1 2) s ∧ Ready (.chcnt 3 1) s)
    ∧ (let s := regs [(1, 63), (2, 0x8000000000000000)]; (s.reg 1).toNat < s.here.page.nchan ∧ s.here.chcfgIllegal 63 (s.reg 2) = true ∧ Ready (.chcfg 3 1 2) s)
    ∧ (let s := regs [(1, 63), (2, 0x8000000000000005)]; (s.reg 1).toNat < s.here.page.nchan ∧ s.here.page.nchan ≤ 64 ∧ s.here.chcfgIllegal 63 (s.reg 2) = false ∧ Ready (.chcfg 3 1 2) s)
    ∧ (let s := regs [(1, 0x5FFE0)]; (s.reg 1).toNat % 32 = 0 ∧ (s.reg 1).toNat + 32 ≤ s.here.page.lsbytes ∧ s.here.patCode 0 = some 2 ∧ Ready (.patset 3 1) s)
    ∧ (let s := regs [(1, 0x60000)]; s.here.page.lsbytes < (s.reg 1).toNat + 32 ∧ Ready (.patset 3 1) s)
    ∧ (let s := pair { chanUnit 0 Channel.reset [(1, 0x100)] with ls := [(0x101, 1), (0x105, 1), (0x106, 1), (0x10A, 1)] }
       User s ∧ s.here.patCode (dwordOf8 s 0x118 ++ dwordOf8 s 0x110 ++ dwordOf8 s 0x108 ++ dwordOf8 s 0x100) = none ∧ Ready (.patset 3 1) s)
    ∧ (let s := regs [(1, 32)]; s.here.page.npat ≤ (s.reg 1).toNat ∧ Ready (.patclr 1) s) ∧ (let s := regs [(1, 31)]; (s.reg 1).toNat < s.here.page.npat ∧ Ready (.patclr 1) s) := by
  decide +kernel

theorem witness_ChannelsAndPatterns_readable : Readable (regs [(1, 0x100)]).here 0x100 32 ∧ Readable (regs [(1, 0x5FFE0)]).here 0x5FFE0 32 :=
  ⟨readable_in rfl rfl (by omega), readable_in rfl rfl (by omega)⟩

theorem witness_FencesAndFlush :
    (∀ i, i < 16 → (regs [(1, 0x7FFFFE0000101000)]).here.ni.bufs.toList[i]? = some none) ∧ Ready .flush (regs [])
    ∧ (regs [(1, 0x7FFFFE0000101000)]).place 0x7FFFFE0000101000#64 ≠ .bad ∧ Ready (.flushd 1) (regs [(1, 0x7FFFFE0000101000)])
    ∧ (regs []).place 0x100000#64 = .bad ∧ Ready (.flushd 1) (regs [(1, 0x100000)])
    ∧ Ready .fenceAcq (regs []) ∧ (regs []).me.acquire = false ∧ (regs []).here.ni.reqs = [] ∧ Ready (.aggcfg 1 2) (regs []) ∧ Ready (.aggst 3) (regs [])
    ∧ (let s := pair { unit 0 [] with ni := { Ni.reset with bufs := (Vector.replicate 16 none).set 2 (some ⟨.core 1, [], false⟩) } }
       s.here.ni.hold = false ∧ s.here.ni.retained.length + (s.here.ni.bufs.toList.filter Option.isSome).length ≤ 32 ∧ Ready .flush s) := by decide

/-- The same slot, and one that has waited at its fence. -/
theorem witness_FencesAndFlush_settled : Settled (regs [])
    ∧ (let s := pair { unit 0 [] with slots := Core.reset.slots.set 0 { runner [] with fencing := true } }
       s.me.fencing = true ∧ NothingOut s ∧ Ready .fenceRel s ∧ Ready .fenceAll s) :=
  ⟨⟨rfl, nothing_out_in rfl rfl rfl rfl⟩, rfl, nothing_out_in rfl rfl rfl rfl, by decide, by decide⟩

theorem witness_PendingAggfTraps :
    let s := pair { unit 0 [] with ctl := { Control.reset with trapvec := 0x400 }, slots := Core.reset.slots.set 0 { runner [] with aggf := some 7, st := #v[0x100, 0, 0, 0] } }
    User s ∧ s.here.ctl.trapvec &&& 0xFFFFC#64 ≠ 0 ∧ s.me.intrap = false ∧ s.me.aggf = some 7 ∧ Ready .fenceRel s ∧ Ready (.launch 3 1) s
      ∧ Ready (.enq 3 1) s ∧ (s.me.st[0]).getLsbD 8 = true := by decide

/-- An engine's last legal number, a command that is refused and one that is accepted; tickets that are known, running and queued. -/
def queued (running : Bool) (armed : Option (List (Nat × Nat))) : Command :=
  { engine := 1, ticket := 0, word := 0x10, seed := 0, slot := 0, pc := 0, order := 0, armed := armed, running := running, progress := 0, row := 0, pos := 0, rpos := 0,
    kept := 0, xfer := .idle, wait := 0, bufs := [], reads := [], writes := [], todo := [], unit := 0, parked := none, stopped := false, stopping := false,
    done := none, eset := 0, closed := 0, halted := none, own := [], refusal := none }

theorem witness_CommandsAndCancel :
    Ready (.stg 3 1) (regs []) ∧ (let s := regs [(1, 0x5FFE0)]; (s.reg 1).toNat % 32 = 0 ∧ (s.reg 1).toNat < 0x60000 ∧ Ready (.ldstg 1) s)
    ∧ (let s := regs []; s.me.st[0].getLsbD 8 = false ∧ (s.here.enqCode s.fab.device 2 (s.me.st[3] ++ s.me.st[2] ++ s.me.st[1] ++ s.me.st[0])).isSome = true ∧ Ready (.enq 3 2) s)
    ∧ (let s := pair { unit 0 [] with slots := Core.reset.slots.set 0 { runner [] with st := #v[0x810, 0x200, 0x400, 0x100040] } }
       s.here.enqCode s.fab.device 1 (s.me.st[3] ++ s.me.st[2] ++ s.me.st[1] ++ s.me.st[0]) = none ∧ Ready (.enq 3 1) s)
    ∧ Ready (.enq 3 3) (regs []) ∧ (regs []).here.command 0 = none ∧ Ready (.tkst 3 1) (regs []) ∧ Ready (.ecancel 3 1) (regs [])
    ∧ (let s := pair { unit 0 [] with eng := ⟨[queued true none], 1, 1, 0⟩ }; s.here.command 0 = some (queued true none) ∧ Ready (.tkst 3 1) s ∧ Ready (.ecancel 3 1) s)
    ∧ (let s := pair { unit 0 [] with eng := ⟨[queued false (some [(2, 5)])], 1, 1, 0⟩ }
       s.here.command 0 = some (queued false (some [(2, 5)])) ∧ (s.here.chan 2).cnt + 5 < 2 ^ 48 ∧ ([(2, 5)].map Prod.fst).Nodup ∧ Ready (.ecancel 3 1) s)
    ∧ (let m := { queued false none with word := 0x14#256 ||| (7#256 <<< 212) }
       let s := pair { unit 0 [] with eng := ⟨[m], 1, 1, 0⟩, dir := Core.reset.dir.set 7 { Core.reset.dir[7] with state := .forward } }
       s.here.command 0 = some m ∧ m.word.extractLsb' 0 8 = 0x14#8 ∧ (m.word.extractLsb' 212 6).toNat = 7 ∧ Ready (.ecancel 3 1) s
         ∧ next (exec (.ecancel 3 1) s) (fun t => decide (t.here.dir[7].state = .active)) = true) := by decide +kernel

theorem witness_ControlRegisters :
    Ready (.mfc 3 0x032) (regs []) ∧ Ready (.mtc 1 0x032) (regs []) ∧ User (regs []) ∧ Ready (.mfc 3 0x100) (regs []) ∧ Ready (.mtc 1 0xFFF) (regs [])
    ∧ ¬ User { regs [] with issuer := (0, 4) } ∧ Ready (.mfc 3 0x104) { regs [] with issuer := (0, 4) } ∧ Ready (.mtc 1 0x103) { regs [] with issuer := (0, 4) }
    ∧ (pair { unit 0 [] with ctl := { Control.reset with pre := .stopping } }).here.ctl.pre ≠ .none
    ∧ (pair { unit 0 [] with ctl := { Control.reset with repairs := 1 } }).here.ctl.repairs ≠ 0 ∧ Ready (.mfc 3 0x0FF) (regs []) ∧ Ready (.mtc 1 0x042) (regs []) := by decide

/-- A window of a user slot, the first and the last; a register window and the control window, for a user slot and for the supervisor slot:
a stopped slot, the pc dword, the last dword, a pattern, a channel, an entry of the directory, a lock, FAULTRING, a reserved offset. -/
theorem witness_ControlRegisters_windows :
    (let s := regs [(1, 0xE0000)]; User s ∧ (s.reg 1 + (0#16).signExtend 64).toNat = 0xE0000 + 8 * 0 ∧ Ready (.ldd 3 1 0) s ∧ Ready (.std 3 1 0) s ∧ Ready (.stw 3 1 0) s)
    ∧ (let s := regs [(1, 0xE0038)]; (s.reg 1 + (0#16).signExtend 64).toNat = 0xE0000 + 8 * 7 ∧ Ready (.std 3 1 0) s)
    ∧ (let s := regs [(1, 0xDBFF8)]; (s.reg 1).toNat % 8 = 0 ∧ (s.reg 1).toNat < 0xDC000 ∧ Ready (.std 3 1 0) s)
    ∧ (let s := regs [(1, 0xEFFF8)]; (s.reg 1).toNat % 8 = 0 ∧ 0xE0040 ≤ (s.reg 1).toNat ∧ Ready (.ldd 3 1 0) s)
    ∧ [0xD0000#64, 0xD30F8, 0xD6100, 0xDB160, 0xD2FF8, 0xE0000, 0xE07F8, 0xE0800, 0xE0BF8, 0xE1000, 0xE17F8, 0xE1878, 0xE1900, 0xE0C00, 0xEFFF8].all (fun o =>
        let s : State := { State.reset with cores := [(0, { unit 0 [] with slots := Core.reset.slots.set 4 (runner [(1, o)]) })], issuer := (0, 4) }
        decide (¬ User s ∧ s.reg 1 = o ∧ o.toNat % 8 = 0 ∧ (s.here.slot 1).state = .free ∧ Ready (.ldd 3 1 0) s ∧ Ready (.std 3 1 0) s ∧ Ready (.ldw 3 1 0) s)) = true := by
  decide +kernel

theorem witness_TrapsAndReturns :
    (let s := pair { unit 0 [] with ctl := { Control.reset with trapvec := 0x400 } }
     User s ∧ s.here.ctl.trapvec &&& 0xFFFFC#64 ≠ 0 ∧ s.me.intrap = false ∧ Ready (.trap 0xFFF) s ∧ s.debugging 0 = false ∧ Ready .brk s)
    ∧ (regs []).here.ctl.trapvec &&& 0xFFFFC#64 = 0 ∧ Ready (.trap 0) (regs [])
    ∧ (let s := { regs [] with hub := { Hub.reset with tenants := [newTenant 5 0 0 2 1 0 true 0 1] } }; s.debugging 0 = true ∧ Ready .brk s)
    ∧ (let s := pair { unit 0 [] with slots := Core.reset.slots.set 0 { runner [] with intrap := true, epc := 0x104 } }
       s.me.intrap = true ∧ (s.me.epc &&& 0xFFFFF#64).extractLsb' 0 2 = 0#2 ∧ Ready .rte s)
    ∧ (let s := pair { unit 0 [] with slots := Core.reset.slots.set 0 { runner [] with intrap := true, epc := 0x105 } }
       s.me.intrap = true ∧ (s.me.epc &&& 0xFFFFF#64).extractLsb' 0 2 ≠ 0#2 ∧ Ready .rte s) := by decide

theorem witness_EndsAndSupervision :
    Ready .nop (regs []) ∧ Ready .ifence (regs []) ∧ (regs []).me.aggf = none ∧ Ready .endAct (regs []) ∧ (regs []).here.exited = false ∧ Ready .endExit (regs [])
    ∧ (pair { unit 0 [] with exited := true }).here.exited = true ∧ Ready .endExit (pair { unit 0 [] with exited := true })
    ∧ User (regs []) ∧ Ready .retry (regs []) ∧ ¬ User { regs [] with issuer := (0, 4) } ∧ Ready .retry { regs [] with issuer := (0, 4) }
    ∧ Ready (.cancel 0) (regs []) ∧ Ready (.cancel 3) (regs []) := by decide

/-- A tenant of the pair with a record. -/
def tenantOf (pool : List PoolRec) : Tenant := { newTenant 5 0 0 2 1 0 false 0 1 with pool := pool }

/-- A record in the pool. -/
def inPool (st : RecState) (g : Option Nat) : PoolRec :=
  { index := 3, record := 0, asid := 0x500, state := st, order := 0, header := 0, depth := 0, job := 1, graph := 1, issuer := none, host := true, gang := g }

/-- A full pool. -/
def fullPool : List PoolRec := (List.range 1024).map (fun i => { inPool .waiting none with index := i })

theorem witness_LaunchEntersPool :
    (let s := { regs [(1, 0x100)] with hub := { Hub.reset with tenants := [tenantOf []] } }
     User s ∧ s.here.page.lsbytes ≤ 0x60000 ∧ (s.reg 1).toNat % 64 = 0 ∧ recordOk (BitVec.ofNat 512 (s.here.ownLE 0x100 64)) = true ∧ s.here.page.depth ≠ 8
       ∧ s.tenant 5 = some (tenantOf []) ∧ (tenantOf []).freeIndexes ≠ [] ∧ Ready (.launch 3 1) s)
    ∧ Ready (.launch 3 1) (regs [(1, 0x5FFE0)]) ∧ (regs [(1, 0x5FFE0)]).here.page.lsbytes < ((regs [(1, 0x5FFE0)]).reg 1).toNat + 64
    ∧ (let s := pair { unit 0 [(1, 0x100)] with ls := [(0x100, 1)] }; recordOk (BitVec.ofNat 512 (s.here.ownLE 0x100 64)) = false ∧ Ready (.launch 3 1) s)
    ∧ (let s := pair { unit 0 [(1, 0x100)] with page := { page 0 with depth := 8 } }; s.here.page.depth = 8 ∧ Ready (.launch 3 1) s) := by decide +kernel

theorem witness_LaunchEntersPool_full : (tenantOf fullPool).freeIndexes = [] := by
  unfold Tenant.freeIndexes tenantOf fullPool newTenant
  simp only [List.filter_eq_nil_iff, List.mem_range, List.any_map, Bool.not_eq_true']
  intro i hi
  simp only [Bool.not_eq_false, List.any_eq_true, List.mem_range]
  exact ⟨i, hi, by simp [Function.comp]⟩

theorem witness_LaunchEntersPool_settled : Settled (regs [(1, 0x100)]) ∧ Readable (regs [(1, 0x100)]).here 0x100 64 :=
  ⟨⟨rfl, nothing_out_in rfl rfl rfl rfl⟩, readable_in rfl rfl (by omega)⟩

/-- Local-store bytes of dwords in memory order, from an offset, zero bytes left out. -/
def bytesAt (off : Nat) (ds : List Dword) : Memory :=
  ((List.range (8 * ds.length)).map (fun i => (off + i, (ds.getD (i / 8) 0).extractLsb' (8 * (i % 8)) 8))).filter (fun c => decide (c.2 ≠ 0))

/-- A core of the gang with memory, a message channel 3, and a gang slot 1 that maps to tenant slot 9. -/
def censusUnit (rs : List (Nat × Dword)) (ds : List Dword) : Core :=
  { chanUnit 3 Channel.reset rs with ls := bytesAt 0x100 ds, cenMap := [8, 9] }

/-- A good descriptor; a door past the last; a slot past NCEN; closes of an open, a done and a free slot. -/
theorem witness_CensusesOpenAndClose :
    (let s := pair (censusUnit [(1, 0x100)] [0, 0, 0, 0x4C0030]); let w := descriptor s 0x100; let door := (w.extractLsb' 192 20).toNat
     User s ∧ door = 0xC0030 ∧ (w.extractLsb' (192 + 22) 4).toNat = 1 ∧ s.here.isMsg 3 = true ∧ s.here.page.rank = 0 ∧ (s.here.cen 1).state = .free
       ∧ s.here.cenMap[1]? = some 9 ∧ Ready (.solicit 3 1) s)
    ∧ (let s := pair (censusUnit [(1, 0x100)] [0, 0, 0, 0x4C0400]); ((descriptor s 0x100).extractLsb' 192 20).toNat = 0xC0400 ∧ Ready (.solicit 3 1) s)
    ∧ (let s := pair { censusUnit [(1, 0x100)] [0, 0, 0, 0x4C0030] with page := { page 0 with ncen := 1 } }
       s.here.page.ncen ≤ ((descriptor s 0x100).extractLsb' (192 + 22) 4).toNat ∧ Ready (.solicit 3 1) s)
    ∧ (let s := pair (censusUnit [(1, 15)] []); (s.here.cen 15).state = .free ∧ Ready (.cenclose 1) s ∧ Ready (.censt 3 1) s)
    ∧ (let s := pair { censusUnit [(1, 1)] [] with cens := Core.reset.cens.set 1 { CenSlot.reset with state := .opened } }
       s.here.page.rank = 0 ∧ 1 < s.here.page.ncen ∧ (s.here.cen 1).state = .opened ∧ Ready (.cenclose 1) s)
    ∧ (let s := pair { censusUnit [(1, 1)] [] with cens := Core.reset.cens.set 1 { CenSlot.reset with state := .done } }
       (s.here.cen 1).state = .done ∧ s.here.cenMap[1]? = some 9 ∧ Ready (.cenclose 1) s) := by decide +kernel

/-- A token that is owed, the last debt of its slot, and one whose high bits are set. -/
theorem witness_RespondSettlesDebt :
    (let s := pair { unit 0 [(1, 0x3F0F)] with dir := Core.reset.dir.set 63 { Entry.reset with state := .active, owed := 0x8000 }, leaves := Core.reset.leaves.set 15 ⟨.arrived, 1, 0, []⟩ }
     User s ∧ (s.reg 1).extractLsb' 14 2 = 0#2 ∧ (s.reg 1).extractLsb' 4 4 = 0#4 ∧ (s.here.entry 63).owed.getLsbD 15 = true ∧ Ready (.respond 1 2) s)
    ∧ (let s := pair { chanUnit 0 Channel.reset [(1, 0x4F0F)] with exited := false }
       s.here.ctl.trapvec &&& 0xFFFFC#64 ≠ 0 ∧ s.me.intrap = false ∧ (s.reg 1).extractLsb' 14 2 ≠ 0#2 ∧ Ready (.respond 1 2) s) := by decide +kernel

theorem witness_RespondSettlesDebt_settled : Settled (regs [(1, 0x3F0F)]) := ⟨rfl, nothing_out_in rfl rfl rfl rfl⟩

/-- An entry owned, a full directory, the failures, the entry that is freed and the one that moves. -/
theorem witness_DirectoriesChange :
    (let s := pair (censusUnit [(1, 0x100)] [0x0003000000000001, 0, 0x400000200, 0]); User s ∧ s.here.diraddCode (descriptor s 0x100) = none ∧ Ready (.diradd 3 1) s)
    ∧ (let s := pair (censusUnit [(1, 0x100)] [0x0003000000000001, 0, 0x400000208, 0]); s.here.diraddCode (descriptor s 0x100) = some 4 ∧ Ready (.diradd 3 1) s)
    ∧ (let s := regs [(1, 0x5FFE8)]; (s.reg 1).toNat % 32 ≠ 0 ∧ s.here.page.lsbytes ≤ 0x60000 ∧ Ready (.diradd 3 1) s)
    ∧ (let s := regs [(1, 63)]; (s.here.entry 63).state ≠ .active ∧ Ready (.dirdel 3 1) s ∧ s.here.dirmoveCode (s.reg 1) (s.reg 2) = some 2 ∧ Ready (.dirmove 3 1 2) s)
    ∧ (let s := pair { unit 0 [(1, 63), (2, 0x7FFFFE0000100200)] with dir := Core.reset.dir.set 63 { Entry.reset with state := .active, addr := 0x200, len := 64 } }
       (s.here.entry 63).state = .active ∧ (s.here.entry 63).owed = 0 ∧ Ready (.dirdel 3 1) s ∧ s.here.dirmoveCode (s.reg 1) (s.reg 2) = none ∧ Ready (.dirmove 3 1 2) s) := by decide +kernel

theorem witness_DirectoriesChange_names : Names (regs [(1, 0x100)]).here 0x100 32 ∧ Names (regs [(1, 0x5FFE0)]).here 0x5FFE0 32 :=
  ⟨⟨by decide, by decide, by decide, readable_in rfl rfl (by omega)⟩, by decide, by decide, by decide, readable_in rfl rfl (by omega)⟩

/-- The gang of the pair. -/
def gangOf (st : GangState) : Gang :=
  { id := 1, tenant := 5, index := 3, x0 := 0, y0 := 0, w := 2, h := 1, state := st, live := 2, fault := none, cancelled := false, dropped := 0,
    bars := List.replicate 64 ⟨false, [], [], false, 0⟩, cslots := [8, 9], clusters := [], preemptLater := false, saved := [], restoring := false }

/-- The pair with its gang and its tenant at the hub. -/
def placed (k : Core) (st : GangState) : State :=
  { pair k with hub := { Hub.reset with tenants := [tenantOf [inPool .running (some 1)]], gangs := [gangOf st] } }

theorem witness_BarriersAllocateAndArrive :
    (let s := pair { unit 0 [(1, 63)] with page := { page 0 with nbar := 63 } }; User s ∧ s.here.page.nbar ≤ 63 ∧ Ready (.barfree 1) s ∧ Ready (.barst 3 1) s)
    ∧ (let s := pair { unit 0 [(1, 63)] with bars := Core.reset.bars.set 63 ⟨true, true, false, false, false, 3, 0⟩ }
       63 < s.here.page.nbar ∧ (s.here.bar 63).alloc = true ∧ (s.here.bar 63).arrived = false ∧ Ready (.arrive 1) s ∧ Ready (.arrived 1) s ∧ Ready (.barfree 1) s)
    ∧ (let s := pair (chanUnit 0 Channel.reset [(1, 63)])
       s.here.ctl.trapvec &&& 0xFFFFC#64 ≠ 0 ∧ (s.here.bar 63).alloc = false ∧ Ready (.arrive 1) s ∧ Ready (.arrived 1) s)
    ∧ (let s := placed { unit 0 [(1, 0x100)] with ls := [(0x101, 1)] } .running
       s.offer = none ∧ barMembers s.here 0x100 = [0, 1] ∧ ((dwordOf8 s 0x100).extractLsb' 0 6).toNat < s.here.page.nchan ∧ s.here.gang.bind s.gang = some (gangOf .running) ∧ Ready (.baralloc 3 1) s)
    ∧ (let s := placed { unit 0 [(1, 0x100)] with offers := [⟨0, 0, 0, [0, 1], [(0, true), (1, true)], 0⟩] } .running
       s.offer = some ⟨0, 0, 0, [0, 1], [(0, true), (1, true)], 0⟩ ∧ (gangOf .running).freeBar = some 0 ∧ Ready (.baralloc 3 1) s)
    ∧ (let s := placed { unit 0 [(1, 0x100)] with offers := [⟨0, 0, 0, [0, 1], [(0, true), (1, false)], 0⟩] } .running
       s.offer = some ⟨0, 0, 0, [0, 1], [(0, true), (1, false)], 0⟩ ∧ Ready (.baralloc 3 1) s) := by decide +kernel

theorem witness_BarriersAllocateAndArrive_settled : Settled (regs []) ∧ Names (regs [(1, 0x100)]).here 0x100 8 :=
  ⟨⟨rfl, nothing_out_in rfl rfl rfl rfl⟩, by decide, by decide, by decide, readable_in rfl rfl (by omega)⟩

/-- A core with one command. -/
def withCommand (m : Command) : Core := { unit 0 [] with eng := ⟨[m], 1, 1, 0⟩ }

/-- A command of an engine: its word, and whether it runs. -/
def command (engine : Nat) (word : BitVec 256) (running : Bool) : Command := { queued running none with engine := engine, word := word }

/-- A word of four staging registers. -/
def words (a b c d : Dword) : BitVec 256 := d ++ c ++ b ++ a

theorem witness_CommandsStart :
    (let m := command 1 (words 0x810 0x200 0x400 0x100040) false; let s := pair (withCommand m)
     (s.core 0).command 0 = some m ∧ cmdCode m.word = 0x10 ∧ (s.core 0).placeFree 1 = true ∧ (s.core 0).startable 0 m = true)
    ∧ (let m := command 0 (words 0x803 0 0 0) false; let s := pair (withCommand m)
       (s.core 0).command 0 = some m ∧ cmdCode m.word = 0x03 ∧ (s.core 0).placeFree 0 = true ∧ (s.core 0).mxeChoice 0 = some (m, 0)) := by decide +kernel

/-- A running command that has read up to `r`: its blocks by key, each 64 bytes of `b`. -/
def hasRead (m : Command) (r : Nat) (keys : List Nat) (b : Byte) : Command :=
  { m with rpos := r, bufs := keys.map (fun q => ⟨q, List.replicate 64 b, 0, none, none⟩) }

/-- A local COPY and its remote one, a BCAST, a DMOVE, a GATHER, a FILT of two records of 64 bytes, a CONV and an ACCST. -/
def aCopy : Command := command 1 (words 0x810 0x200 0x400 0x100040) true
def farCopy : Command := command 1 (words 0x010 0x7FFFFE0000100200 0x7FFFFE0000100400 0x100040) true
def aBcast : Command := command 1 (words 0x013 0x200 0x400 0x100040) true
def aMove : Command := command 1 (words 0x014 0x200 0x7FFFFE0000100400 64) true
def aGather : Command := command 1 (words 0x811 0x200 0x400 0x4000100300) true
def aFilt : Command := command 2 (words 0x20000000000820 0x0100020030000200 0x400 0xFFFFFFFF01010101) true
def aConv : Command := command 2 (words 0x821 0x200 0x400 0x10) true
def anAccst : Command := command 0 (words 0x804 0 0x100001 0x400) true

/-- Blocks that are read and written, in the core and beyond it; a write behind another to its destination; an index list, and an element. -/
theorem witness_UnitsMove :
    (Runs (pair (withCommand aCopy)) 0 0 0x10 aCopy ∧ aCopy.pos < (copyShape aCopy.word).len ∧ aCopy.rpos < (copyShape aCopy.word).len
      ∧ aCopy.have ((copyShape aCopy.word).needs (withCommand aCopy) 0 0) = false ∧ decodeAddr (page 0) 0 ((copyShape aCopy.word).srcAt 0) = .own 0x200)
    ∧ (let m := hasRead aCopy 64 [0] 1; Runs (pair (withCommand m)) 0 0 0x10 m ∧ m.have ((copyShape m.word).needs (withCommand m) 0 0) = true
       ∧ decodeAddr (page 0) 0 ((copyShape m.word).dstAt 0) = .own 0x400 ∧ cmdDstchen m.word = false)
    ∧ (Runs (pair (withCommand farCopy)) 0 0 0x10 farCopy ∧ farCopy.have ((copyShape farCopy.word).needs (withCommand farCopy) 0 0) = false
       ∧ (decodeAddr (page 0) 0 ((copyShape farCopy.word).srcAt 0)).dest = some (.core 1) ∧ (withCommand farCopy).mayLeave (.core 1) = true)
    ∧ (let m := hasRead farCopy 64 [0] 1; Runs (pair (withCommand m)) 0 0 0x10 m ∧ m.have ((copyShape m.word).needs (withCommand m) 0 0) = true
       ∧ (decodeAddr (page 0) 0 ((copyShape m.word).dstAt 0)).dest = some (.core 1) ∧ m.writes = []) := by decide +kernel

/-- A write behind another to its destination, a BCAST and a DMOVE. -/
theorem witness_UnitsMove_more :
    (let m := { hasRead farCopy 64 [0] 1 with pos := 32, unit := 1, writes := [⟨1, 0, 0, ⟨0x7FFFFE0000100400, [], .keep, false⟩, true⟩] }
     Runs (pair (withCommand m)) 0 0 0x10 m ∧ m.pos < (copyShape m.word).len ∧ m.have ((copyShape m.word).needs (withCommand m) 0 32) = true
       ∧ m.writes.any (fun y => decide ((decodeAddr (page 0) 0 y.write.addr).dest = some (.core 1))) = true)
    ∧ (let m := hasRead aBcast 64 [0] 1; Runs (pair (withCommand m)) 0 0 0x13 m ∧ m.pos < (copyShape m.word).len
       ∧ m.have ((copyShape m.word).needs (withCommand m) 0 0) = true ∧ m.writes = [] ∧ (withCommand m).ni.hold = false ∧ cmdDstchen m.word = false
       ∧ ((copyShape m.word).dstAt m.pos).toNat < 2 ^ 20)
    ∧ (Runs (pair (withCommand aMove)) 0 0 0x14 aMove ∧ aMove.kept = 0 ∧ (decodeAddr (page 0) 0 (dwordAt aMove.word 2)).dest = some (.core 1)
       ∧ (withCommand aMove).mayLeave (.core 1) = true) := by decide +kernel

/-- An index list that is read, an element that is read and one that is written. -/
theorem witness_UnitsMove_indexed :
    (Runs (pair (withCommand aGather)) 0 0 0x11 aGather ∧ aGather.rpos < (indexedOf aGather.word).n * (indexedOf aGather.word).es
       ∧ aGather.todo.length ≤ aGather.rpos / (indexedOf aGather.word).es)
    ∧ (let m := { aGather with todo := [0] }; let h := indexedOf m.word; Runs (pair (withCommand m)) 0 0 0x11 m ∧ m.rpos / h.es < m.todo.length
       ∧ h.check (withCommand m) 0 m m.rpos = none ∧ ¬ (h.local = true ∧ m.pos < m.rpos - m.rpos % h.es))
    ∧ (let m := { hasRead aGather 64 [0] 1 with todo := [0] }; let h := indexedOf m.word; Runs (pair (withCommand m)) 0 0 0x11 m ∧ m.pos < h.n * h.es
       ∧ m.pos < m.rpos ∧ m.have (h.needs (withCommand m) 0 m m.pos) = true) := by decide +kernel

/-- A record that is read, one that passes, one that does not, and its place in the list; a block of CONV and of ACCST. -/
theorem witness_UnitsMove_streams :
    (let h := filterOf aFilt.word; Runs (pair (withCommand aFilt)) 0 0 0x20 aFilt ∧ aFilt.row ≠ h.n ∧ aFilt.have (h.size * 1) = false)
    ∧ (let m := hasRead aFilt 64 [0] 1; let h := filterOf m.word; Runs (pair (withCommand m)) 0 0 0x20 m ∧ m.have (h.size * 1) = true ∧ m.pos < h.size
       ∧ h.pass (leNat ((List.range 4).map (fun j => heldByte m 0 j))) = true)
    ∧ (let m := hasRead aFilt 64 [0] 0; let h := filterOf m.word; Runs (pair (withCommand m)) 0 0 0x20 m ∧ m.have (h.size * 1) = true ∧ m.pos = 0 ∧ 0 < h.size
       ∧ h.pass (leNat ((List.range 4).map (fun j => heldByte m 0 j))) = false)
    ∧ (let m := { hasRead aFilt 64 [0] 1 with pos := 64 }; let h := filterOf m.word; Runs (pair (withCommand m)) 0 0 0x20 m ∧ m.have (h.size * 1) = true ∧ m.pos = h.size) := by decide +kernel

theorem witness_UnitsMove_blocks :
    (let h := convOf aConv.word; Runs (pair (withCommand aConv)) 0 0 0x21 aConv ∧ aConv.row ≠ h.blocks ∧ h.fault aConv = none
       ∧ aConv.have ((min h.tf.perBlock h.ne - 1) / h.df.perBlock + 1) = false ∧ aConv.rpos < blocksFor h.ne h.df.perBlock)
    ∧ (let m := hasRead aConv 1 [0] 1; let h := convOf m.word; Runs (pair (withCommand m)) 0 0 0x21 m ∧ h.fault m = none
       ∧ m.have ((min h.tf.perBlock h.ne - 1) / h.df.perBlock + 1) = true)
    ∧ (Runs (pair (withCommand anAccst)) 0 0 0x04 anAccst ∧ anAccst.row ≠ (accRegion anAccst.word).m) := by decide +kernel

/-- An MMA of one element and one K-group, BF16; a block of it that is still to be read, and its element once both are; ACCZ; an ACCLD that reads,
decodes and writes. -/
theorem witness_AccumulatorUpdates :
    (let m := command 0 (words 0x0303000000000801 0x0010010004000200 0x100000000 0) true
     Runs (pair (withCommand m)) 0 0 0x01 m ∧ m.progress ≠ accKg m.word ∧ ((groupBlocks m.word).find? (fun p => (m.buf (p.1.key p.2 0)).isNone)).isSome = true)
    ∧ (let m := command 0 (words 0x0303000000000802 0x0010010004000200 0x100000000 0) true
       Runs (pair (withCommand m)) 0 0 0x02 m ∧ m.progress ≠ accKg m.word)
    ∧ (let w := words 0x0303000000000801 0x0010010004000200 0x100000000 0
       let m := hasRead (command 0 w true) 0 ((groupBlocks w).map (fun p => p.1.key p.2 0)) 1
       Runs (pair (withCommand m)) 0 0 0x01 m ∧ (groupBlocks w).all (fun p => (m.buf (p.1.key p.2 0)).isSome) = true ∧ (accRegion w).elements ≠ []
       ∧ groupFault m 0 0 0 = none) := by decide +kernel

theorem witness_AccumulatorUpdates_moves :
    (let m := command 0 (words 0x803 0 0x100001 0) true; Runs (pair (withCommand m)) 0 0 0x03 m ∧ m.row ≠ (accRegion m.word).m)
    ∧ (let m := command 0 (words 0x805 0x400 0x100001 0) true; let h := accLoadOf m.word; Runs (pair (withCommand m)) 0 0 0x05 m ∧ m.row ≠ (accRegion m.word).m
       ∧ m.todo = [] ∧ m.have 1 = false ∧ m.rpos < (accRegion m.word).m * h.nb)
    ∧ (let m := hasRead (command 0 (words 0x805 0x400 0x100001 0) true) 1 [0] 1; let h := accLoadOf m.word; Runs (pair (withCommand m)) 0 0 0x05 m
       ∧ m.have 1 = true ∧ (m.buf 0).isSome = true ∧ h.fault (accRegion m.word).acc ⟨0, List.replicate 64 1, 0, none, none⟩ (h.addr 0) = none)
    ∧ (let m := { hasRead (command 0 (words 0x805 0x400 0x100001 0) true) 1 [0] 1 with todo := [7] }; Runs (pair (withCommand m)) 0 0 0x05 m ∧ m.todo ≠ []) := by decide +kernel

theorem witness_CommandsArmStopAndFinish :
    (let m := command 1 (words 0xA10 0x200 0x400 0x100040) false
     let s := pair { withCommand m with chans := Vector.replicate 64 { Channel.reset with decl := true, count := true, cnt := 9, arm := 4 } }
     m.ticket = 0 ∧ (s.core 0).command 0 = some m ∧ (s.core 0).armNext m = true ∧ 0 ∈ armChans m.word)
    ∧ (let m := { aCopy with stopping := true }; let s := pair (withCommand m)
       (s.core 0).command 0 = some m ∧ m.running = true ∧ m.stopped = false ∧ m.done = none ∧ m.halted = none ∧ m.reads = [] ∧ m.writes = [] ∧ m.xfer = .idle
         ∧ atBoundary m = true)
    ∧ (let m := { aCopy with stopping := true, parked := some (none, 0x8000000000000000), reads := [⟨0, 0, 0x8000000000000000, 64, false⟩] }; let s := pair (withCommand m)
       (s.core 0).command 0 = some m ∧ m.parked.isSome = true ∧ m.reads.all (fun x => !x.sent) = true) := by decide +kernel

theorem witness_CommandsArmStopAndFinish_ends :
    (let m := { aCopy with pos := 64, rpos := 64 }; let s := pair (withCommand m)
       Runs s 0 0 0x10 m ∧ nextAct (s.core 0) 0 m 0 = .finish 64 ∧ cmdNotify m.word = false)
    ∧ (let m := { command 1 (words 0xC10 0x200 0x400 0x100040) true with pos := 64, rpos := 64 }
       let s := pair { withCommand m with chans := Vector.replicate 64 { Channel.reset with decl := true } }
       Runs s 0 0 0x10 m ∧ nextAct (s.core 0) 0 m 0 = .finish 64 ∧ cmdNotify m.word = true ∧ (s.core 0).isMsg (cmdDone m.word) = true
         ∧ ((s.core 0).chan (cmdDone m.word)).held < 8 ∧ (s.core 0).held = [])
    ∧ (let m := { aMove with kept := 1, pos := 64, rpos := 64 }; let s := pair (withCommand m)
       Runs s 0 0 0x14 m ∧ m.kept = 1 ∧ m.reads = [] ∧ m.writes = [] ∧ m.pos = (m.word.extractLsb' 192 20).toNat ∧ ((s.core 0).entry 0).owed = 0
         ∧ (s.core 0).moveSettled m = true ∧ (decodeAddr (page 0) 0 (dwordAt m.word 2)).dest = some (.core 1)) := by decide +kernel

/-- A packet from a core to a node. -/
def packet (src : Nat) (dst : Node) (tag : Tag) (b : Body) : Packet :=
  { src := .core src, dst := dst, vc := .req, tenant := 5, asid := 0x500, gang := 1, slot := 0, tag := tag, body := b }

/-- A part with one packet on its way. -/
def sending (s : State) (p : Packet) : State := { s with net := [p] }

/-- The one packet on its way arrives. -/
theorem arrives_only (s : State) (p : Packet) (h1 : heldBack (sending s p) p = false) (h2 : outbound p = false) (h3 : s.crossed p = true) :
    Arrives (sending s p) 0 p { s with net := [] } := by
  have h4 : (sending s p).crossed p = true := h3
  have h5 : (sending s p).behind 0 p = false := by simp [State.behind]
  unfold Arrives State.arrival
  rw [show (sending s p).net[0]? = some p from rfl]
  simp only [h1, h2, h4, h5]
  rfl

/-- What `arrives_only` asks for. -/
def comes (s : State) (p : Packet) : Bool := !heldBack (sending s p) p && !outbound p && s.crossed p

/-- A pattern of two terms, ONESHOT: count channel 0 at 4 or more, and a message of channel 1; handler 0x200, priority 3. -/
def twoTerms : BitVec 256 := words 0x0003020300000200 0x0001000000040000 1 0

/-- A core whose pattern 0 it is, with both terms held. -/
def matching : Core :=
  { unit 0 [] with pats := (Vector.replicate 32 0).set 0 twoTerms,
                   chans := ((Vector.replicate 64 Channel.reset).set 0 { Channel.reset with decl := true, count := true, cnt := 5 }).set 1
                     { Channel.reset with decl := true, msgs := [(0x55, 1)] } }

theorem witness_CoreStepsRun_matcher :
    matching.matching = true ∧ matching.ctl.pre = .none ∧ matching.winner = some 0 ∧ matching.freeSlot = some 1 ∧ matching.armTakes 0 = false
    ∧ patTerms twoTerms = 2 ∧ patOneshot twoTerms = true ∧ patChan twoTerms 0 = 0 ∧ patChan twoTerms 1 = 1 ∧ patThresh twoTerms 0 = 4
    ∧ matching.isCount 0 = true ∧ matching.isMsg 1 = true ∧ (matching.chan 1).msgs = [(0x55, 1)] ∧ (matching.chan 1).spill = 0 := by decide +kernel

theorem witness_CoreStepsRun :
    (let s := pair { unit 0 [] with ctl := { Control.reset with trapvec := 0x400 }, slots := Core.reset.slots.set 3 { runner [] with pendTraps := [(5, 0x77)] } }
     (slotNo 3 : Fin 5) = 3 ∧ ((s.core 0).slot 3).pendTraps = [(5, 0x77)] ∧ ((s.core 0).slot 3).intrap = false ∧ ((s.core 0).slot 3).state = .active ∧ (s.core 0).midway 3 = false ∧ (s.core 0).trapEntry ≠ 0)
    ∧ (let s := pair { unit 0 [] with chans := Vector.replicate 64 { Channel.reset with decl := true }, held := [⟨63, 7, 0, .notice⟩] }
       (s.core 0).held.find? (fun x => decide (x.ch = 63)) = some ⟨63, 7, 0, .notice⟩ ∧ (s.core 0).isMsg 63 = true ∧ ((s.core 0).chan 63).held < 8 + ((s.core 0).chan 63).rent)
    ∧ (let s := pair { unit 0 [] with cycle := 256, ni := { Ni.reset with bufs := (Vector.replicate 16 none).set 15 (some ⟨.core 1, [⟨0x7FFFFE0000101000, .store, 4, 1, [(0, 0)], 1, 0, 0⟩], true⟩) } }
       (bufNo 15 : Fin 16) = 15 ∧ (s.core 0).ni.bufs[(bufNo 15)] = some ⟨.core 1, [⟨0x7FFFFE0000101000, .store, 4, 1, [(0, 0)], 1, 0, 0⟩], true⟩ ∧ (s.core 0).ni.room (.core 1) 1 = true
         ∧ (⟨.core 1, [⟨0x7FFFFE0000101000, .store, 4, 1, [(0, 0)], 1, 0, 0⟩], true⟩ : Buffer).oldest + (s.core 0).ctl.agemax ≤ (s.core 0).cycle) := by decide +kernel

/-- The window of the gang itself, as the launch leaves it. -/
def opened (k : Core) : Core := { k with windows := (Vector.replicate 8 0).set 0 0x8002E06000000100 }

/-- A read of the last bytes, one past them, writes, a full channel, a gang page. -/
theorem witness_CoresServeRequests :
    (let p := packet 0 (.core 1) (.request 0 0) (.load 0x7FFFFE000015FFF8 8 false); let s := sending { regs [] with cores := [(0, unit 0 []), (1, opened (unit 1 []))] } p
     comes s p = true ∧ admitted (s.core 1) p 0x5FFF8 8 readRight = true ∧ admitted (s.core 1) p 0x5FFFC 8 readRight = false
       ∧ admitted (s.core 1) p 0xF8 8 readRight = true ∧ admitsWrite (s.core 1) p 0x100 4 ⟨false, true, false, false, false⟩ = true
       ∧ admitsWrite (s.core 1) p 0xFC 4 ⟨false, true, false, false, false⟩ = false ∧ admitsWrite (s.core 1) p 0x5FFFC 4 ⟨true, false, true, false, false⟩ = true)
    ∧ (let p := packet 0 (.core 1) (.request 0 0) (.send 0x7FFFFE00001C03F0 false 7)
       let s := sending { regs [] with cores := [(0, unit 0 []), (1, { unit 1 [] with windows := (Vector.replicate 8 0).set 7 0x800100C0400C0000, chans := (Vector.replicate 64 Channel.reset).set 63 { Channel.reset with decl := true } })] } p
       comes s p = true ∧ admitted (s.core 1) p 0xC03F0 16 ⟨false, false, false, true, false⟩ = true ∧ (s.core 1).isMsg 63 = true
         ∧ ((s.core 1).chan 63).held < 8 + ((s.core 1).chan 63).rent)
    ∧ ((regs []).core 1).windows.toList.all (fun w => !w.getLsbD 63) = true
    ∧ (let p := packet 0 (.core 1) (.engine 0 1) (.block 0x7FFFFE0000100400 (List.replicate 64 1) .keep .engine none)
       let s := sending { regs [] with cores := [(0, unit 0 []), (1, { opened (unit 1 []) with locks := (Vector.replicate 16 none).set 3 (some ⟨true, 1, 0, 0x400, 0x440⟩) })] } p
       comes s p = true ∧ admitted (s.core 1) p 0x400 64 (blockRights .keep) = true ∧ admitsWrite (s.core 1) p 0x400 64 (blockRights .keep) = false) := by decide +kernel

/-- A page table: ASID 0x500 maps the first GiB to PA 0x4000_0000, read and write, under key slot 1 of tenant 5. -/
def paged (s : State) : State :=
  { s with mem := { DevMem.reset with bytes := [(0x1001, 0x20), (0x1007, 0x80), (0x2003, 0x40), (0x2006, 0x0D), (0x2007, 0xE0)], roots := [(0x500, 0x1001)], keys := [(1, 6)] } }

/-- Was a range translated, with nothing sent? -/
def mapped (r : State × Except (Nat × Dword) (List Mapped)) (pas : List Nat) : Bool :=
  match r with
  | (s, .ok ms) => decide (s.net = []) && decide (ms.map Mapped.pa = pas)
  | _ => false

theorem witness_StationsServeRequests :
    (let p := packet 0 (.station 3) (.request 0 0) (.load 0x800000000000FFF8 8 false); let s := sending (paged (regs [])) p; let s1 := { s with net := [] }
     comes s p = true ∧ mapped (mapRange s1 3 0x500 0x800000000000FFF8 false false (pageParts 0x800000000000FFF8 8)) [0x4000FFF8] = true
       ∧ mapped (mapRange s1 3 0x500 0x800000003FFFFFF8 true false [(0, 8)]) [0x7FFFFFF8] = true) := by decide +kernel

/-- A load's one outstanding request, a retained packet, a park older than 1,024 cycles. -/
theorem witness_AnswersTakeEffect :
    (let q : Request := ⟨7, 0, 0, .load 3 4 true, [⟨.core 1, 0x7FFFFE0000101000, 4, 0, .sent⟩], 0x7FFFFE0000101000, none, false, false⟩
     let p := packet 1 (.core 0) (.request 7 0) (.reply [1, 2, 3, 4] 0); let s := sending (pair { unit 0 [] with ni := { Ni.reset with reqs := [q] } }) p
     comes s p = true ∧ (s.core 0).ni.reqs = [q] ∧ q.parts.length = 1 ∧ q.discard = false ∧ q.refused = none ∧ (s.core 0).runs q.slot q.act = true)
    ∧ (let r : Retained := ⟨4, .core 1, [⟨.elem, ⟨0x7FFFFE0000101000, .store, 4, 1, [(0, 0)], 1, 0, 0⟩, .sent⟩], none, false, none⟩
       let p := packet 1 (.core 0) (.retained 4 [0]) (.ack []); let s := sending (pair { unit 0 [] with ni := { Ni.reset with retained := [r] } }) p
       comes s p = true ∧ p.tag = .retained 4 (List.range r.items.length) ∧ (s.core 0).ni.retained = [r])
    ∧ (let p := { packet 1 (.core 0) .none (.repair 0x500 1) with src := .station 3 }; let s := sending (regs []) p
       comes s p = true ∧ (s.core 0).ctl.pre.isSealed = false)
    ∧ (let s := pair { withCommand { command 1 (words 0x810 0x200 0x400 0x100040) true with parked := some (some 5, 0x800000) } with cycle := 1029 }
       (s.core 0).ctl.pre = .none ∧ 5 ∈ (s.core 0).noParks ∧ 5 + 1024 ≤ (s.core 0).cycle) := by decide +kernel

/-- A page with its waiting cores, the last block of the memory, a held part; a request whose page will not be mapped. -/
theorem witness_PagesChange : State.reset.fw.absent 2 = false ∧ 2 ^ 39 - 1 < 2 ^ 39 ∧ ((2 ^ 39 - 1) / 64) ∉ State.reset.mem.bad
    ∧ (let s := { State.reset with mem := { DevMem.reset with parks := [⟨3, 0x500, 9, 0, [0]⟩] } }; ⟨3, 0x500, 9, 0, [0]⟩ ∈ s.mem.parks)
    ∧ (let p : Packet := packet 0 (.station 3) (.request 1 0) (.heldLoad 0 64)
       let s := { State.reset with mem := { DevMem.reset with heldParts := [⟨3, p, 0, [(0, 0)], 0, 0⟩] } }
       s.mem.heldParts.any (fun h => decide (h.packet.asid = 0x500)) = true ∧ s.mem.heldParts.all (fun h => decide (h.packet.asid ≠ 0x501)) = true ∧ s.fw.absent 2 = false)
    ∧ (let s := { State.reset with net := [{ packet 0 (.core 0) (.retained 1 [0]) (.ack [(9, 1)]) with src := .station 3 }] }
       s.net.any (fun p => decide (p.asid = 0x500) && decide (p.body = .ack [(9, 1)])) = true ∧ s.net.all (fun p => decide (p.asid ≠ 0x501)) = true)
    ∧ (let q : Request := ⟨7, 0, 0, .load 3 4 true, [⟨.station 3, 0x8000000000090000, 4, 0, .repair none 0x8000000000090000⟩], 0x8000000000090000, none, false, true⟩
       let nak := { packet 0 (.core 0) (.request 7 0) (.nak 0x07 false 0x8000000000090000) with src := .station 3 }
       let s := { pair { unit 0 [] with ni := { Ni.reset with reqs := [q] } } with mem := { DevMem.reset with parks := [⟨3, 0x500, 9, 0, [0]⟩] }, net := [nak] }
       (s.core 0).asid = 0x500 ∧ (s.core 0).ni.reqs = [q] ∧ q.split = false ∧ (0x8000000000090000#64).getLsbD 63 = true
         ∧ ((0x8000000000090000#64).extractLsb' 16 40).toNat = 9 ∧ (s.core 0).gang = some 1) := by decide +kernel

/-- A tree packet of gang 1. -/
def treePacket (src dst : Node) (m : TreeMsg) : Packet :=
  { src := src, dst := dst, vc := .hub, tenant := 5, asid := 0x500, gang := 1, slot := 0, tag := .none, body := .tree 1 m }

/-- A census in tenant slot 9. -/
def census (sent got : List Report) : Census := { tenant := 5, slot := 9, op := 0, gang := 1, gslot := 1, key := 0, kmask := 0, arg := 0, sent := sent, got := got }

/-- A core of the gang whose leaf of slot 9 has reported. -/
def reported (k : Core) : Core := { k with leaves := Core.reset.leaves.set 9 ⟨.reported, 0, 0, []⟩ }

/-- Every packet of the trees comes; a barrier whose last member arrives, and one with more to come. -/
theorem witness_TreesTravel :
    [(treePacket .hub (.core 0) (.solicit 15 0 1 1 0)), (treePacket .hub (.core 0) (.close 15)), (treePacket (.core 0) .hub (.closeAck 9)),
      (treePacket (.core 1) (.core 0) (.closeAck 9)), (treePacket (.core 1) (.core 0) (.offer 0 3)), (treePacket (.core 0) .hub (.arrival 63 0 true)),
      (treePacket .hub (.core 0) (.completion 63 1 1)), (treePacket (.core 0) .hub (.solicit 9 0 1 1 0)), (treePacket (.core 0) .hub (.freeUp 63)),
      (treePacket .hub (.core 0) (.freeDown 63)), { treePacket (.core 1) (.core 0) (.close 9) with body := .move (.forwardedClose 9 3) }].all
        (fun p => comes (placed (unit 0 []) .running) p) = true
    ∧ treeReaches (placed (unit 0 []) .running) (treePacket .hub (.core 0) (.completion 63 1 1)) true = true
    ∧ treeReaches (placed (unit 0 []) .running) (treePacket .hub (.core 0) (.close 15)) (forGang (.close 15)) = true
    ∧ (let b : BarRoot := ⟨true, [0, 1], [(1, false)], false, 0⟩; b.alloc = true ∧ 0 ∈ b.members ∧ b.arrived.length + 1 = b.members.length)
    ∧ (let b : BarRoot := ⟨true, [0, 1], [], false, 0⟩; b.alloc = true ∧ 0 ∈ b.members ∧ b.arrived.length + 1 ≠ b.members.length)
    ∧ (let k := { unit 0 [] with chans := Vector.replicate 64 { Channel.reset with decl := true }, bars := Core.reset.bars.set 63 ⟨true, true, true, false, false, 3, 0⟩ }
       k.gang = some 1 ∧ (k.bar 63).alloc = true ∧ k.isMsg (k.bar 63).ch = true ∧ (k.chan (k.bar 63).ch).held < 8 + (k.chan (k.bar 63).ch).rent ∧ k.held = []) := by decide +kernel

/-- The asker of a census, its own leaf having reported, and the part with it. -/
def asker : Core := { reported (censusUnit [] []) with cens := Core.reset.cens.set 1 { CenSlot.reset with state := .opened, door := 3 } }
def asked (sent got : List Report) (closings : List Closing) : State :=
  { placed asker .running with cores := [(0, asker), (1, reported (unit 1 []))], hub := { (placed asker .running).hub with census := [census sent got], closings := closings } }

/-- Reports: of a gang that is gone, one that is not the last, the last. -/
theorem witness_TreesTravel_reports :
    (let s : State := { State.reset with hub := { Hub.reset with census := [census [⟨0, 1, 2⟩] []] } }; s.hub.census = [census [⟨0, 1, 2⟩] []] ∧ s.gang 1 = none)
    ∧ (let x := census [⟨0, 1, 2⟩, ⟨1, 1, 2⟩] []; x.sent[0]? = some ⟨0, 1, 2⟩ ∧ x.sent.eraseIdx 0 ≠ [])
    ∧ (let s := asked [⟨0, 1, 2⟩] [⟨1, 0, 0⟩] []; s.gang 1 = some (gangOf .running) ∧ s.hub.gangs.all (fun y => !y.away) = true ∧ s.subMesh 5 = [0, 1]
       ∧ (s.subMesh 5).all (fun b => decide (((s.core b).leaf 9).state = .reported)) = true ∧ s.net = [] ∧ coreAt 0 0 = 0)
    ∧ (asker.ctl.pre.isSealed = false ∧ asker.gang = some 1 ∧ asker.gangSlotOf 9 = some 1 ∧ (asker.cen 1).closePending = false ∧ (asker.cen 1).door = 3
       ∧ asker.isMsg 3 = true ∧ (asker.chan 3).spill = 0 ∧ (asker.chan 3).msgs.length < 8 ∧ asker.held = []) := by decide +kernel

/-- Closes with no commit on its way and with one; acknowledgements with two cores left, and with one, of a gang that is there and of one that is
gone. -/
theorem witness_TreesTravel_closes :
    (unit 0 []).commits = []
    ∧ (let m := { aMove with kept := 1, pos := 64, rpos := 64, xfer := .committing, wait := 1 }; let e := (tenantOf []).meshEntry false
       let s := { placed (withCommand m) .running with mesh := { Mesh.reset with members := [(5, e.toNat)], bank0 := [(5, e)] } }
       (s.core 0).commits = [m] ∧ (decodeAddr (page 0) 0 (dwordAt m.word 2)).dest = some (.core 1)
         ∧ s.routable 0 (treePacket (.core 0) (.core 1) (.close 9)) = true)
    ∧ [0, 1].erase 0 ≠ []
    ∧ (let s := asked [] [] [⟨5, 9, 1, 15, [0]⟩]; s.hub.closings = [⟨5, 9, 1, 15, [0]⟩] ∧ s.gang 1 = some (gangOf .running) ∧ [0].erase 0 = []
       ∧ s.hub.gangs.all (fun y => decide (y.state ≠ .saved)) = true ∧ (s.core (coreAt 0 0)).gang = some 1)
    ∧ (let s : State := { State.reset with hub := { Hub.reset with tenants := [tenantOf []], closings := [⟨5, 9, 1, 15, [0]⟩] } }
       s.gang 1 = none ∧ s.tenant 5 = some (tenantOf [])) := by decide +kernel

theorem witness_MovesTravel :
    [(packet 1 (.core 0) (.engine 0 1) (.move (.openMove 1 1 3 64 0x200 1 0 63))), (packet 1 (.core 0) (.engine 0 1) (.move (.openReply 0))),
      (packet 1 (.core 0) (.engine 0 2) (.move (.commit 1 63))), (packet 1 (.core 0) (.engine 0 2) (.move (.abort 63)))].all (fun p => comes (regs []) p) = true
    ∧ (let k := { unit 0 [] with chans := Vector.replicate 64 { Channel.reset with decl := true } }; (k.entry 63).state = .free ∧ k.isMsg 3 = true ∧ k.isMsg 64 = false)
    ∧ (let k := { unit 0 [] with dir := Core.reset.dir.set 63 { Entry.reset with state := .pending, peer := 1 } }; (k.entry 63).state = .pending ∧ (k.entry 63).peer = (unit 1 []).page.rank)
    ∧ (let m := { aMove with wait := 1, unit := 1, xfer := .opening }; (withCommand m).command 0 = some m ∧ m.unit = 1 ∧ m.xfer = .opening) := by decide +kernel

/-- An image of 2 by 1 cores with 1024 bytes of local store. -/
def image : BitVec 512 := words 0x01020001464F4C31 0x0000000000000400 0x10000 0 |>.zeroExtend 512

/-- The tenant with its record, a hub that holds no gang. -/
def waiting (st : RecState) : State :=
  { paged (regs []) with cores := [], hub := { Hub.reset with tenants := [{ tenantOf [{ inPool st none with record := 0x8000000000000000#512, header := image }] with passDue := true }] } }

theorem witness_GangsLaunch :
    headerOk image = true
    ∧ ((waiting .headerWait).tenant 5).bind (fun t => t.record 3) = some { inPool .headerWait none with record := 0x8000000000000000#512, header := image }
    ∧ (let s := waiting .ready; s.fw.absent 1 = false ∧ (s.tenant 5).map (passReady s) = some true ∧ s.hub.gangs = [] ∧ imgW image = 2 ∧ imgH image = 1 ∧ (s.core 0).gang = none)
    ∧ ((gangOf .loading).state = .loading ∧ (placed (unit 0 []) .loading).gang 1 = some (gangOf .loading))
    ∧ (let s := { waiting .running with hub := { (waiting .running).hub with gangs := [gangOf .loading] } }
       s.gang 1 = some (gangOf .loading) ∧ ((s.tenant 5).bind (fun t => t.record 3)).isSome = true ∧ (gangOf .loading).x0 + (gangOf .loading).w ≤ 72)
    ∧ ({ gangOf .releasing with clusters := [0] }.clusters = 0 :: [] ∧ (gangOf .releasing).restoring = false) := by decide +kernel

theorem witness_GangsLaunch_reads : (match hubRead (waiting .headerWait) 0x500 0x8000000000000000 64 with | (s, .ok b) => decide (s.hub = (waiting .headerWait).hub) && decide (b.1.length = 64) | _ => false) = true := by decide +kernel

/-- Does a read of the hub under a cached translation succeed, whether the translation is still held or not (log 34)? -/
theorem cached_read {s : State} {va : Dword} {t : Tlb} {pa sc lv : Nat} {e : Dword}
    (h1 : field va 63 56 = 0x80) (h2 : 64 ≤ 65536 - va.toNat % 65536)
    (h3 : s.mem.tlb.find? (fun t => t.hits (stationOf (nbits va.toNat 55 0)) 0x500 (nbits va.toNat 55 0)) = some t)
    (h4 : checkLeaf s.mem 0x500 (nbits va.toNat 55 0) false t.level t.leaf = .ok pa sc lv e)
    (h5 : s.mem.walk 0x500 (nbits va.toNat 55 0) false = .ok pa sc lv e)
    (h6 : (s.mem.claim (asidTenant 0x500) pa).isBad pa 64 = false) :
    ∃ b, hubRead s 0x500 va 64 = ({ s.draw with mem := s.mem.claim (asidTenant 0x500) pa }, .ok b) := by
  have h7 : Sys2Proof.Machine.lookup s (stationOf (nbits va.toNat 55 0)) 0x500 (nbits va.toNat 55 0) false false = (.ok pa sc lv e, s.draw) := by
    unfold Sys2Proof.Machine.lookup
    rw [h3]
    simp only [h4, h5, ite_self]
  have h8 : pageParts va 64 = [(0, 64)] := by simp only [pageParts, if_pos h2]
  have h9 : va + BitVec.ofNat 64 0 = va := by simp
  unfold hubRead
  rw [if_neg (by simpa using h1), h8]
  unfold mapRange mapAccess
  unfold mapParts
  simp only [h9, Sys2Proof.Machine.translate, h7]
  unfold mapParts
  rw [show s.draw.mem = s.mem from rfl]
  simp [h6, Mapped.mixes]

/-- The record of an image at VA 0. -/
def imaged : PoolRec := { inPool .running none with record := 0x8000000000000000#512, header := image }

/-- The image of the record in the pool is read. -/
theorem witness_GangsLaunch_image : ∃ s m, readImage (waiting .running) imaged = (s, .ok m) ∧ s.hub = (waiting .running).hub ∧ s.cores = (waiting .running).cores := by
  have h1 : ∃ b, hubRead (waiting .running) 0x500 0x8000000000000080 64 = ((hubRead (waiting .running) 0x500 0x8000000000000080 64).1, .ok b) := ⟨_, rfl⟩
  obtain ⟨b, h1⟩ := h1
  obtain ⟨b', h2⟩ := cached_read (s := (hubRead (waiting .running) 0x500 0x8000000000000080 64).1) (va := 0x80000000000000C0)
    (t := ⟨0, 0x500, 2, 0, 0xE00D000040000000⟩) (pa := 0x400000C0) (sc := 0) (lv := 2) (e := 0xE00D000040000000)
    (by decide +kernel) (by decide +kernel) (by decide +kernel) (by decide +kernel) (by decide +kernel) (by decide +kernel)
  have h3 : ∃ u l, hubBlocks 0x500 2 0x8000000000000080 (waiting .running) = (u, .ok l) ∧ u.hub = (waiting .running).hub ∧ u.cores = (waiting .running).cores := by
    refine ⟨{ (hubRead (waiting .running) 0x500 0x8000000000000080 64).1.draw with
      mem := (hubRead (waiting .running) 0x500 0x8000000000000080 64).1.mem.claim (asidTenant 0x500) 0x400000C0 }, [b, b'], ?_, rfl, rfl⟩
    unfold hubBlocks
    rw [h1]
    simp only
    unfold hubBlocks
    rw [show (0x8000000000000080 : Dword) + 64 = 0x80000000000000C0 from rfl, h2]
    rfl
  obtain ⟨u, l, h3, h5, h6⟩ := h3
  have h4 : imgChanOff imaged.header = 0 ∧ imgPatOff imaged.header = 0 ∧ imgLoadLen imaged.header = 0 := by decide +kernel
  refine ⟨u, ⟨tableCore imaged.header, BitVec.ofNat 1024 (leNat (blockBytes l)), []⟩, ?_, h5, h6⟩
  unfold readImage
  simp only [h4.1, h4.2.1, h4.2.2, if_true, Option.bind]
  rw [if_neg (by decide), show imaged.asid = 0x500 from rfl,
    show recImage imaged.record + BitVec.ofNat 64 128 = 0x8000000000000080 from by decide +kernel, show (128 + 63) / 64 = 2 from rfl, h3]
  rfl

/-- A gang that ends: its record with a counter and a completion record, both in the page that the table maps. -/
def ended : PoolRec := { inPool .running (some 1) with record := BitVec.ofNat 512 (0x8000000000001000 * 2 ^ 192 + 0x8000000000002000 * 2 ^ 256) }

/-- The part with it. -/
def ending : State := { paged (regs []) with cores := [], hub := { Hub.reset with tenants := [tenantOf [ended]], gangs := [gangOf .ending], counters := [⟨0x500, 0x8000000000001000, 0, false⟩] } }

theorem witness_GangsEndAndMove_settled :
    (occupied ending (gangOf .ending)).all (fun c => (ending.core c).endSettled) = true ∧ hubWordsOf ending 1 = false
      ∧ ending.tenant 5 = some (tenantOf [ended]) ∧ (tenantOf [ended]).record 3 = some ended ∧ recSigCtr ended.record ≠ 0 ∧ recCompRec ended.record ≠ 0
      ∧ (match loadCounter (freeGang ending (gangOf .ending)) 0x500 (recSigCtr ended.record) with
          | (s2, .ok v) => decide (v = 0) && (match hubWrite s2 0x500 (recCompRec ended.record) (completionBytes (gangOf .ending)) with | (_, none) => true | _ => false)
          | _ => false) = true := by decide +kernel

theorem witness_GangsEndAndMove :
    ((placed (unit 0 []) .ending).gang 1 = some (gangOf .ending))
    ∧ (let s := { placed { unit 0 [] with matching := false, slots := Core.reset.slots } .ending with cores := [], hub := { Hub.reset with gangs := [gangOf .ending] } }
       occupied s (gangOf .ending) = [] ∧ hubWordsOf s 1 = false ∧ s.tenant 5 = none)
    ∧ (let p := { treePacket .hub (.core 0) (.close 0) with body := .hub 1 (.preempt 0x8000000000001000) }; comes (placed (unit 0 []) .running) p = true ∧ (unit 0 []).ctl.pre = .none)
    ∧ (let s := pair { unit 0 [] with ctl := { Control.reset with pre := .stopping } }; (s.core 0).ctl.pre = .stopping ∧ (s.core 0).eng.cmds = [])
    ∧ (let s := pair { unit 0 [] with ctl := { Control.reset with pre := .draining } }; (s.core 0).ctl.pre = .draining ∧ (s.core 0).drained = true ∧ treesQuiet s 0 = true)
    ∧ (let k := { Control.reset with pre := .sealed }; let s := { placed (unit 0 []) .preempting with cores := [(0, { unit 0 [] with ctl := k }), (1, { unit 1 [] with ctl := k })] }
       (gangOf .preempting).cores = [0, 1] ∧ (s.core 0).ctl.pre = .sealed ∧ (s.core 1).ctl.pre = .sealed)
    ∧ (let g := { gangOf .saved with restoring := true, saved := [unit 0 [], unit 1 []] }; g.state = .saved ∧ g.saved.length = g.w * g.h ∧ g.x0 + g.w ≤ 72) := by decide +kernel

theorem witness_HubPacketsTakeEffect :
    [(Body.hub 1 (.exit 0)), (.hub 1 (.cancel 1)), (.reserved 7 0 0)].all (fun b => comes (placed (unit 0 []) .running) { treePacket (.core 0) .hub (.close 0) with body := b }) = true
    ∧ (placed (unit 0 []) .running).gang 1 = some (gangOf .running) ∧ (tenantOf [inPool .running (some 1)]).record 3 = some (inPool .running (some 1))
    ∧ (1 < (gangOf .running).live ∧ (⟨5, 9, 1, 1, [0]⟩ : Closing).gang = (gangOf .running).id)
    ∧ [(Body.hub 1 (.notice 63 7)), (.hub 1 (.preempt 0)), (.tree 1 (.solicit 9 0 1 1 0))].all (fun b =>
        let p := { treePacket (.core 1) (.core 0) (.solicit 9 0 1 1 0) with body := b }
        comes (placed (unit 0 []) .running) p && treeReaches (placed (unit 0 []) .running) p (forGang (.solicit 9 0 1 1 0))) = true
    ∧ (let k := { unit 0 [] with chans := Vector.replicate 64 { Channel.reset with decl := true } }; let s := placed k .running
       let p := { treePacket .hub (.core 0) (.close 0) with body := .hub 1 (.notice 63 7) }
       comes s p = true ∧ noticeHeld s p 0 = false ∧ (s.core 0).gang = some 1 ∧ (s.core 0).isMsg 63 = true ∧ ((s.core 0).chan 63).held < 8 + ((s.core 0).chan 63).rent ∧ (s.core 0).held = [])
    ∧ (let p := packet 0 (.foreign 7 0) .none (.load 0 8 false); let s := { sending (regs []) p with fab := { Fabric.reset with flows := [⟨5, 7, 0, [⟨0, .request 0 0, 1⟩], [], some 1, 1⟩] } }
       s.net[0]? = some p ∧ s.crossed p = true ∧ (s.fab.flow 5 7).next.isSome = true) := by decide +kernel

theorem witness_MeshChanges :
    (let s := { State.reset with mesh := { Mesh.reset with modeNext := some 2, gating := [(7, .on 2), (8, .waking 0)] } }
     s.mesh.modeNext = some 2 ∧ s.fw.absent 5 = false ∧ s.mesh.router 7 = .on 2 ∧ s.mesh.router 8 = .waking 0)
    ∧ (let s := { State.reset with mesh := { Mesh.reset with modeLater := some 1 } }; s.mesh.modeNext = none ∧ s.mesh.modeLater = some 1 ∧ s.fw.absent 5 = false)
    ∧ (let t := tenantOf []; let e := t.meshEntry false; let s := placed (unit 0 []) .running; (s.tenant 5).map (fun t => t.owns e) = some true ∧ s.fw.absent 4 = false ∧ entryCores e ≠ []
       ∧ (e ||| 0x3C000000FFFFFFFF#64) &&& 0xC3FFFFFF00000000#64 = e)
    ∧ (let e := (tenantOf []).meshEntry false; let h := fun (k : Core) => { k with ni := { Ni.reset with hold := true } }
       let s := { placed (unit 0 []) .running with cores := [(0, h (unit 0 [])), (1, h (unit 1 []))], mesh := { Mesh.reset with bank1 := [(5, e)] } }
       s.mesh.idleEntry 5 = e ∧ (swapCores s 5 e).all (fun c => (s.core c).ni.hold) = true ∧ s.net = []) := by decide +kernel

/-- A session, confirmed: the operator's, or number 1 of tenant 5. -/
def session (n tenant : Nat) (ws : List Window) : Session := ⟨n, tenant, true, 0, 0, 0, 0, none, ws, []⟩

/-- The header of a command: session, opcode, SEQ, and LEN; and the first one of a session for an instruction. -/
def cmd (n op seq len : Nat) : CmdHdr := ⟨n, BitVec.ofNat 128 (op + seq * 2 ^ 64 + len * 2 ^ 96)⟩
def cmdOf (n op : Nat) (i : CmdHdr → Instr) : CmdHdr := cmd n op 1 (bodyOf (i (cmd n op 1 0))).length

/-- A state whose session has received bytes, and no other session is open. -/
def receiving (s : State) (x : Session) (bs : List Byte) : State :=
  { s with fab := { s.fab with sessions := [x], links := [{ LinkState.reset (.prenor x.id) with rxBytes := bs }] } }

/-- The bytes of a session's first command. -/
def firstBytes (n op : Nat) (i : CmdHdr → Instr) : List Byte := leBytes 16 (cmdOf n op i).header.toNat ++ bodyOf (i (cmdOf n op i))

/-- The operator, and the tenant in session 1, with a first command. -/
def operating (s : State) (op : Nat) (i : CmdHdr → Instr) : State := receiving s (session 0 0 []) (firstBytes 0 op i)
def hosted (ws : List Window) (op : Nat) (i : CmdHdr → Instr) : State := receiving (placed (unit 0 []) .running) (session 1 5 ws) (firstBytes 1 op i)

/-- What `InOrder` asks for but for the session. -/
def standsNext (s : State) (h : CmdHdr) (op : Nat) (body : List Byte) : Bool :=
  !s.fw.absent 0 && (s.received h op body).isSome && decide (cmdLen h % 8 = 0 ∧ cmdLen h ≤ 65536 ∧ cmdLen h = body.length ∧ field h.header 63 16 = 0)
    && decide (cmdSeq h = (sget 0 s.hub.seqs h.session + 1) % 2 ^ 32)

theorem in_order {s : State} {i : Instr} {h : CmdHdr} {op : Nat} {x : Session} (h1 : s.session h.session = some x) (h2 : x.confirmed = true)
    (h3 : standsNext s h op (bodyOf i) = true) : ∃ t, InOrder s i h op t := by
  simp only [standsNext, Bool.and_eq_true, Bool.not_eq_true', decide_eq_true_eq] at h3
  obtain ⟨⟨⟨a, b⟩, c⟩, d⟩ := h3
  have h4 : s.fab.sessions.find? (fun x => decide (x.id = h.session)) = some x := h1
  exact ⟨(s.received h op (bodyOf i)).get b, a, by simp, .inl ⟨x, List.mem_of_find?_eq_some h4, by simpa using List.find?_some h4, h2⟩, c, d⟩

theorem from_operator {s : State} {op : Nat} {i : CmdHdr → Instr} (h : standsNext (operating s op i) (cmdOf 0 op i) op (bodyOf (i (cmdOf 0 op i))) = true) :
    ∃ t, FromOperator (operating s op i) (i (cmdOf 0 op i)) (cmdOf 0 op i) op t := by
  obtain ⟨t, ht⟩ := in_order (s := operating s op i) (i := i (cmdOf 0 op i)) (x := session 0 0 []) rfl rfl h
  exact ⟨t, ht, rfl⟩

theorem from_tenant {ws : List Window} {op : Nat} {i : CmdHdr → Instr} (h : standsNext (hosted ws op i) (cmdOf 1 op i) op (bodyOf (i (cmdOf 1 op i))) = true) :
    ∃ t, FromTenant (hosted ws op i) (i (cmdOf 1 op i)) (cmdOf 1 op i) 5 op t := by
  obtain ⟨t, ht⟩ := in_order (s := hosted ws op i) (i := i (cmdOf 1 op i)) (x := session 1 5 ws) rfl rfl h
  exact ⟨t, ht, by show (1 : Nat) ≠ 0; decide, rfl⟩

/-- An image for function 3, its SVN 1. -/
def driver : FwImage := ⟨3, 2, 1, [(0, 1, 1)], [1, 2, 3], 0⟩

/-- Every command stands next in its session: from the operator, from the tenant. -/
theorem witness_commands :
    ([(0x01, fun h => .tenantset h 255 70 0 2 64 1 true 0), (0x02, fun h => .tenantclose h 5), (0x12, fun h => .preemptCmd h 1), (0x20, fun h => .mode h 1),
      (0x21, fun h => .bypass h 2), (0x30, fun h => .stage h driver), (0x31, fun h => .update h), (0x32, fun h => .upstat h), (0x40, fun h => .attest h 1),
      (0x41, fun h => .sessopen h 5 1 1), (0x42, fun h => .sessconf h 0 1), (0x43, fun h => .sessclose h 1), (0x60, fun h => .logread h)] :
        List (Nat × (CmdHdr → Instr))).all (fun y => standsNext (operating State.reset y.1 y.2) (cmdOf 0 y.1 y.2) y.1 (bodyOf (y.2 (cmdOf 0 y.1 y.2)))) = true
    ∧ ([(0x10, fun h => .submit h 0 1), (0x11, fun h => .cancelCmd h 1 1), (0x12, fun h => .preemptCmd h 1), (0x40, fun h => .attest h 1), (0x43, fun h => .sessclose h 1),
      (0x50, fun h => .winopen h 0x8000000000001000 64 0x9000 0), (0x51, fun h => .winclose h 0), (0x60, fun h => .logread h), (0x70, fun h => .resumeCmd h 4607 3)] :
        List (Nat × (CmdHdr → Instr))).all (fun y => standsNext (hosted [] y.1 y.2) (cmdOf 1 y.1 y.2) y.1 (bodyOf (y.2 (cmdOf 1 y.1 y.2)))) = true := by decide +kernel

/-- A session that is not open, a LEN that is malformed, one that is not the body's and the largest, a SEQ that is not next, opcodes that are none,
bytes that are not there yet. -/
theorem witness_CommandsRefused :
    let body := bodyOf (.submit (cmd 1 0x10 1 80) 0 1); let open_ (bs : List Byte) := receiving State.reset (session 1 5 []) bs
    let head (op seq len : Nat) := leBytes 16 (cmd 1 op seq len).header.toNat
    (open_ []).fw.absent 0 = false ∧ ((open_ []).session 1).map Session.confirmed = some true ∧ body.length = 80
    ∧ (cmdLen (cmd 1 0x10 1 7) % 8 ≠ 0 ∧ cmdLen (cmd 1 0x10 1 65544) > 65536 ∧ cmdLen (cmd 1 0x10 1 65536) ≤ 65536 ∧ cmdLen (cmd 1 0x10 1 8) ≠ 80)
    ∧ cmdSeq (cmd 1 0x10 2 80) ≠ (sget 0 (open_ []).hub.seqs 1 + 1) % 2 ^ 32
    ∧ (open_ (head 0x10 1 7 ++ List.replicate 7 0)).received (cmd 1 0x10 1 7) 0x10 body ≠ none
    ∧ (open_ (head 0x10 1 8)).received (cmd 1 0x10 1 8) 0x10 body = none ∧ (open_ (head 0x10 1 8 ++ List.replicate 8 0)).received (cmd 1 0x10 1 8) 0x10 body ≠ none
    ∧ (open_ (head 0x10 2 80 ++ body)).received (cmd 1 0x10 2 80) 0x10 body ≠ none
    ∧ (open_ (head 0x03 1 0)).received (cmd 1 0x03 1 0) 0x03 [] ≠ none
    ∧ (0x03 : Nat) ∉ opcodes ∧ 0x71 ∉ opcodes ∧ cmdOpcode (cmd 1 0x03 1 0) = 0x03
    ∧ (let s := receiving State.reset { session 1 5 [] with confirmed := false } (head 0x10 1 80 ++ body)
       s.received (cmd 1 0x10 1 80) 0x10 body ≠ none ∧ (s.session 1).map Session.confirmed = some false ∧ s.session 2 = none)
    ∧ (let l := { LinkState.reset (.prenor 1) with rxBytes := head 0x10 1 80 ++ body }; (open_ (head 0x10 1 80 ++ body)).fab.link (.prenor 1) = some l
       ∧ l.rxBytes.take 16 = head 0x10 1 80 ∧ 16 + 80 ≤ l.rxBytes.length ∧ l.rxBytes.take (16 + 80) = head 0x10 1 80 ++ body) := by decide +kernel

theorem witness_TenantsAndSessions :
    (State.reset.tenant 255 = none ∧ State.reset.fw.absent 6 = false ∧ sget 0 State.reset.mem.keys 255 = 0 ∧ 70 + 2 ≤ 72 ∧ 0 + 64 ≤ 64)
    ∧ (let i h := Instr.tenantset h 255 70 0 2 64 1 true 0; ∃ t, FromOperator (operating State.reset 0x01 i) (i (cmdOf 0 0x01 i)) (cmdOf 0 0x01 i) 0x01 t)
    ∧ (let i h := Instr.tenantset h 5 0 0 2 1 65535 true 0; let s := operating (placed (unit 0 []) .running) 0x01 i
       (∃ t, FromOperator s (i (cmdOf 0 0x01 i)) (cmdOf 0 0x01 i) 0x01 t) ∧ s.tenant 5 = some (tenantOf [inPool .running (some 1)]) ∧ (∃ g, g ∈ s.hub.gangs ∧ g.tenant = 5))
    ∧ (let i h := Instr.tenantclose h 5; ∃ t, FromOperator (operating (placed (unit 0 []) .running) 0x02 i) (i (cmdOf 0 0x02 i)) (cmdOf 0 0x02 i) 0x02 t)
    ∧ (let i h := Instr.sessopen h 5 1 1; (∃ t, FromOperator (operating (placed (unit 0 []) .running) 0x41 i) (i (cmdOf 0 0x41 i)) (cmdOf 0 0x41 i) 0x41 t)
       ∧ (∃ t, FromOperator State.reset (i (cmdOf 0 0x41 i)) (cmdOf 0 0x41 i) 0x41 t) ∧ State.reset.session 0 = none ∧ (operating (placed (unit 0 []) .running) 0x41 i).session 1 = none)
    ∧ (let i h := Instr.sessconf h 0 1; (∃ t, FromOperator State.reset (i (cmdOf 0 0x42 i)) (cmdOf 0 0x42 i) 0x42 t))
    ∧ (let i h := Instr.sessclose h 1; (∃ t, InOrder (hosted [] 0x43 i) (i (cmdOf 1 0x43 i)) (cmdOf 1 0x43 i) 0x43 t) ∧ (hosted [] 0x43 i).session 1 ≠ none) := by
  refine ⟨by decide +kernel, from_operator (by decide +kernel), ⟨from_operator (by decide +kernel), by decide +kernel, gangOf .running, by decide +kernel⟩,
    from_operator (by decide +kernel), ⟨from_operator (by decide +kernel), ⟨State.reset, ⟨by decide +kernel, by decide +kernel, .inr ⟨rfl, .inl rfl⟩, ?_, by decide +kernel⟩, rfl⟩,
      by decide +kernel, by decide +kernel⟩,
    ⟨State.reset, ⟨by decide +kernel, by decide +kernel, .inr ⟨rfl, .inr rfl⟩, ?_, by decide +kernel⟩, rfl⟩,
    ⟨in_order (x := session 1 5 []) rfl rfl (by decide +kernel), by decide +kernel⟩⟩
  · unfold WellFormedCmd; decide +kernel
  · unfold WellFormedCmd; decide +kernel

/-- A session that awaits its SESSCONF; without a key written the operator's is not proven. -/
theorem witness_TenantsAndSessions_unproven :
    (let s := { State.reset with fab := { Fabric.reset with sessions := [{ session 0 0 [] with confirmed := false }] } }; let i h := Instr.sessconf h 0 1
     (s.session 0).map Session.confirmed = some false ∧ s.fw.absent 6 = false ∧ s.hub.operatorKey = none
       ∧ s.received (cmdOf 0 0x42 i) 0x42 (bodyOf (i (cmdOf 0 0x42 i))) ≠ none) := by decide +kernel

theorem witness_TenantCommandsAct :
    (let i h := Instr.submit h 0 (1#128 <<< 64); ∃ t, FromTenant (hosted [] 0x10 i) (i (cmdOf 1 0x10 i)) (cmdOf 1 0x10 i) 5 0x10 t)
    ∧ (let i h := Instr.cancelCmd h 1 1; (∃ t, FromTenant (hosted [] 0x11 i) (i (cmdOf 1 0x11 i)) (cmdOf 1 0x11 i) 5 0x11 t) ∧ (hosted [] 0x11 i).hub.gangs = [gangOf .running]
       ∧ (gangOf .running).leaving = false)
    ∧ (let i h := Instr.preemptCmd h 1; ∃ t, FromTenant (hosted [] 0x12 i) (i (cmdOf 1 0x12 i)) (cmdOf 1 0x12 i) 5 0x12 t)
    ∧ (let i h := Instr.resumeCmd h 4607 3; (∃ t, FromTenant (hosted [] 0x70 i) (i (cmdOf 1 0x70 i)) (cmdOf 1 0x70 i) 5 0x70 t)
       ∧ (let s := { hosted [] 0x70 i with cores := [(4607, { unit 0 [] with slots := Core.reset.slots.set 3 { runner [] with state := .debug } })] }
          (s.core 4607).gang ≠ none ∧ (s.core 4607).tenant = 5 ∧ ((s.core 4607).slot (slotNo 3)).state = .debug ∧ (s.core 4607).ctl.pre = .none
            ∧ ((s.core 0).slot (slotNo 0)).state ≠ .debug))
    ∧ (let i h := Instr.winopen h 0x8000000000001000 64 0x9000 0; ∃ t, FromTenant (hosted [] 0x50 i) (i (cmdOf 1 0x50 i)) (cmdOf 1 0x50 i) 5 0x50 t)
    ∧ (let i h := Instr.winclose h 0; let w : Window := ⟨0, 0x1000, 64, 0x9000, 0x500⟩; (∃ t, FromTenant (hosted [w] 0x51 i) (i (cmdOf 1 0x51 i)) (cmdOf 1 0x51 i) 5 0x51 t)
       ∧ (hosted [w] 0x51 i).session 1 = some (session 1 5 [w]))
    ∧ ((jobOf (tenantOf []) 0 7).isNone = true ∧ (jobOf (tenantOf []) 0 (1#128 <<< 64)).isSome = true ∧ (tenantOf []).freeIndexes ≠ [] ∧ (tenantOf []).jobs = []
      ∧ (tenantOf []).nextJob = 1 ∧ (tenantOf []).nextGraph = 1) := by
  refine ⟨from_tenant (by decide +kernel), ⟨from_tenant (by decide +kernel), by decide +kernel, rfl⟩, from_tenant (by decide +kernel),
    ⟨from_tenant (by decide +kernel), by decide +kernel⟩, from_tenant (by decide +kernel), ⟨from_tenant (by decide +kernel), by decide +kernel⟩, by decide +kernel⟩

/-- The same page table with scope HOST. -/
def hostPaged (s : State) : State := { paged s with mem := { (paged s).mem with bytes := [(0x1001, 0x20), (0x1007, 0x80), (0x2003, 0x40), (0x2006, 0x0D), (0x2007, 0xF8)] } }

/-- A window of 64 bytes, of 64 bytes over a page's end and of an unmapped page; an access of the session through it that has just come, in a state whose session has received its bytes. -/
def window (va : Nat) : Window := ⟨0, va, 64, 0x9000, 0x500⟩
def write8 (va : Nat) : HostAccess := ⟨window va, 0x9000, some (leBytes 8 7), 8, none, []⟩
def through (s : State) (va : Nat) : State := receiving s { session 1 5 [window va] with waiting := [write8 va] } []

theorem hostWrite_taken (s : State) (va : Nat) : (receiving s (session 1 5 [window va]) (Config.accessBytes 0x9000 (some (leBytes 8 7)) 0)).takeBytes 1
    (Config.accessBytes 0x9000 (some (leBytes 8 7)) 0) 0 = some (receiving s (session 1 5 [window va]) []) := by
  simp [State.takeBytes, State.setLink, receiving, Fabric.link, session, LinkState.reset]

/-- A write through the first bytes of a window: its bytes are what the session has received; one block, and two; a page that is not HOST, and one that
is not mapped; a block in error. -/
theorem witness_TenantCommandsAct_window :
    (0x9000 ≤ (0x9000#64).toNat ∧ (0x9000#64).toNat + (leBytes 8 7).length ≤ 0x9000 + 64
      ∧ (receiving (hostPaged (regs [])) (session 1 5 [window 0x1000]) []).modSession 1 (fun y => { y with waiting := y.waiting ++ [write8 0x1000] }) = through (hostPaged (regs [])) 0x1000)
    ∧ (match hostMap (through (hostPaged (regs [])) 0x1000) (write8 0x1000) with
        | (s, .ok ms) => decide ((hostBlocks (write8 0x1000) ms).map HostBlock.pa = [0x40001000]) && !s.mem.isBad 0x40001000 8 | _ => false) = true
    ∧ (match hostMap (through (hostPaged (regs [])) 0x103C) (write8 0x103C) with
        | (s, .ok ms) => decide ((hostBlocks (write8 0x103C) ms).map HostBlock.pa = [0x4000103C, 0x40001040]) && !s.mem.isBad 0x4000103C 4 | _ => false) = true
    ∧ (match hostMap (through (paged (regs [])) 0x1000) (write8 0x1000) with | (_, .error c) => decide (c ≠ 7) | _ => false) = true
    ∧ (match hostMap (through (hostPaged (regs [])) 0x40000000) (write8 0x40000000) with | (_, .error c) => decide (c = 7) | _ => false) = true
    ∧ (hostParts 0x1000 64).all (fun p => !hostRefused (hostPaged (regs [])).mem 0x500 p.1) = true := by decide +kernel

/-- A translated access of two blocks at two stations, and one that has come before it and has still to do at the second; at its last block; a block in error. -/
theorem witness_TenantCommandsAct_blocks :
    let w : Window := ⟨0, 0xFFC0, 128, 0x9000, 0x500⟩
    let b : List HostBlock := [⟨0xFFC0, stationOf 0xFFC0, 0x4000FFC0, 0, 64⟩, ⟨0x10000, stationOf 0x10000, 0x40010000, 64, 64⟩]
    let a : HostAccess := ⟨w, 0x9000, some (List.replicate 128 7), 128, some b, []⟩; let r : HostAccess := ⟨w, 0x9000, none, 128, some b, []⟩
    let one : HostAccess := ⟨w, 0x9000, none, 128, some [⟨0x10000, stationOf 0x10000, 0x40010000, 64, 64⟩], [(0, List.replicate 64 7)]⟩
    let x : Session := { session 1 5 [w] with waiting := [one, a, r] }; let s := receiving (hostPaged (regs [])) x []
    s.session 1 = some x ∧ x.waiting[1]? = some a ∧ x.waiting[2]? = some r ∧ one.holds (stationOf 0x10000) = true ∧ one.holds (stationOf 0xFFC0) = false
      ∧ a.holds (stationOf 0xFFC0) = true ∧ s.mem.isBad 0x40010000 64 = false ∧ 1 < b.length ∧ one.len ≤ 65536
      ∧ { s.mem with bad := [0x40010000 / 64] }.isBad 0x40010000 64 = true := by decide +kernel

/-- The commands come (`witness_commands`); an image whose SVN is below the minimum does not verify (whether a signature does, no run of the model tells: log 20). -/
theorem witness_OperatorCommandsAct :
    (State.reset.fw.absent 4 = false ∧ State.reset.fw.absent 5 = false ∧ State.reset.fw.absent 7 = false ∧ State.reset.fw.absent 6 = false ∧ State.reset.fw.update = .idle
      ∧ State.reset.fw.micro = .none ∧ State.reset.mesh.modeNext = none)
    ∧ ¬ Verifies { Firmware.reset with svnMin := [(3, 2)] } driver
    ∧ (let w := { Firmware.reset with stagedImg := some driver, update := .staged }; w.stagedImg = some driver ∧ w.absent 7 = false ∧ (w.box 7 3).length < 16)
    ∧ (let w := { Firmware.reset with update := .quiescing, target := 3 }; w.absent 7 = false ∧ w.absent 6 = false) := by
  refine ⟨by decide +kernel, fun h => absurd h.2 (by decide +kernel), by decide +kernel, by decide +kernel⟩

/-- A hand-over record that image `driver` accepts: header and no section. -/
def accepts : List Byte :=
  leBytes 4 0x4F4D4552 ++ leBytes 2 3 ++ leBytes 2 1 ++ leBytes 4 0 ++ leBytes 12 0 ++ leBytes 8 128 ++ leBytes 48 0 ++ leBytes 48 (Config.sha384 []).toNat

/-- The hand-over machine in a state, its target function 3, a word in the mailbox to it. -/
def handing (u : Update) (mails : List Dword) (stopped : List Nat) (gate : Bool) : State :=
  { State.reset with fw := { Firmware.reset.setBox 7 3 mails with update := u, target := 3, stagedImg := some driver, watchdog := some 0, asker := some (0, 0x31, 1), stopped := stopped, gate := gate } }

theorem witness_FirmwareActs :
    (let w := State.reset.fw; 7 ∉ w.stopped ∧ 7 ∉ w.failedFns ∧ w.update = .idle ∧ (w.box 7 7).length < 16 ∧ w.gate = false)
    ∧ (let w := { Firmware.reset with boxes := Vector.replicate 64 (List.replicate 16 0) }; 16 ≤ (w.box 7 7).length)
    ∧ (let s := handing .quiescing [0xF000000000000000] [] false; s.fw.headType s.fw.runner 3 = 0xF0)
    ∧ (let s := handing .quiescing [] [] false; s.watched = true ∧ s.fw.box 7 3 = [] ∧ (s.fw.box 3 7).length < 16 ∧ s.fw.stagedImg = some driver
       ∧ 3 ∉ s.fw.stopped ∧ 3 ∉ s.fw.failedFns ∧ 3 < s.fw.measures.length)
    ∧ (let s := handing .starting [0xF200000000000000] [3] true; s.fw.update = .starting ∧ 3 ∈ s.fw.stopped ∧ s.fw.headType s.fw.runner 3 = 0xF2
       ∧ s.fw.recordAccepted = false ∧ (s.fw.box 3 s.fw.runner).length < 16)
    ∧ (let s := handing .resuming [0xF200000000000000] [3] false; s.fw.update = .resuming ∧ 3 ∈ s.fw.stopped ∧ s.fw.headType s.fw.runner 3 = 0xF2)
    ∧ (let s := { handing .resuming [] [] false with hub := { Hub.reset with cycles := Vector.replicate 8 (2 ^ 27) } }; s.watched = false)
    ∧ (let s := handing .starting [] [] true; let w := s.fw.setBox 3 7 (List.replicate 16 0); 16 ≤ (w.box 3 w.runner).length ∧ { s with fw := w }.watched = true)
    ∧ (let s := handing .starting [] [] true; s.watched = true ∧ 3 ∉ s.fw.stopped ∧ 3 ∉ s.fw.failedFns ∧ s.fw.gate = true ∧ (s.fw.box 3 s.fw.runner).length < 16
       ∧ s.fw.recordAccepted = false)
    ∧ (let s := handing .resuming [] [] false; s.watched = true ∧ s.fw.update = .resuming ∧ 3 ∉ s.fw.stopped ∧ 3 ∉ s.fw.failedFns ∧ (s.fw.box 3 s.fw.runner).length < 16
       ∧ wordType 0xF300000000000000 = 0xF3)
    ∧ (let s := handing .quiescing [0xF500000000000000] [] false; s.fw.headType s.fw.runner 3 = 0xF5) := by decide +kernel

theorem witness_FirmwareActs_accepted : { (handing .starting [0xF200000000000000] [3] true).fw with recordBytes := accepts }.recordAccepted = true := by
  have h1 : recordField accepts 0 4 = 0x4F4D4552 ∧ recordField accepts 4 1 = 3 ∧ recordField accepts 6 2 = 1 ∧ recordField accepts 8 4 = 0 := by decide +kernel
  have h2 : (accepts.drop 128).take (recordField accepts 0x18 8 - 128) = [] := by rfl
  have h3 : recordField accepts 0x50 48 = (Config.sha384 []).toNat := by
    show leNat (leBytes 48 (Config.sha384 []).toNat) = _
    rw [leNat_leBytes, Nat.mod_eq_of_lt (by have := (Config.sha384 []).isLt; omega)]
  show acceptsRecord driver accepts = true
  simp only [acceptsRecord, h1, h2, h3]
  decide

/-- The watchdog at 2^27 cycles and before; the switch of microcode at the first core and at the last. -/
theorem witness_FirmwareActs_clocks :
    [Update.quiescing, .starting, .resuming].all (fun u => let s := { handing u [] [3] false with hub := { Hub.reset with cycles := Vector.replicate 8 (2 ^ 27) } }
        decide (s.fw.watchdog = some 0 ∧ 0 + 2 ^ 27 ≤ s.runnerClock ∧ (s.fw.box s.fw.runner 3).length < 16)) = true
    ∧ (let s := { handing .idle [] [] false with hub := { Hub.reset with cycles := Vector.replicate 8 (2 ^ 27 - 1) } }; s.runnerClock < 0 + 2 ^ 27)
    ∧ (let s := { State.reset with fw := { Firmware.reset with micro := .switching, target := 8, watchdog := some 0 } }
       s.fw.micro = .switching ∧ (s.core 4607).scause = 0 ∧ (s.core 4607).ctl.pre = .none ∧ s.watched = true ∧ 4607 ∉ s.fw.reported ∧ s.fw.reported.length + 1 < 4608)
    ∧ (let s := { State.reset with fw := { Firmware.reset with micro := .rollingBack }, cores := [(0, { Core.reset with ctl := { Control.reset with switched := true } })] }
       (s.core 0).ctl.switched = true ∧ (s.core 0).scause = 0) := by decide +kernel

theorem witness_FirmwareActs_last : (List.replicate 4607 (5 : Nat)).length + 1 = 4608 ∧ 4607 ∉ List.replicate 4607 (5 : Nat) :=
  ⟨by rw [List.length_replicate], fun h => absurd (List.eq_of_mem_replicate h) (by decide)⟩

theorem witness_ResetsThePackage : State.reset.hub.operatorKey = none ∧ { State.reset with hub := { Hub.reset with operatorKey := some 1 } }.hub.operatorKey ≠ none := by decide +kernel

/-- Port 0 with both slots loaded and one flit to be acknowledged. -/
def port : LinkState := { LinkState.reset (.port 0) with tx0 := ⟨true, 5, 0, false⟩, tx1 := ⟨true, 0, 0, false⟩, rx0 := ⟨true, 0, 0, false⟩, unacked := [⟨⟨1, 0, 0, 0, 4, 4, [], true⟩, 2⟩], lseq := 5 }

/-- Device 7 with its port, a second port and a route. -/
def device (l : LinkState) : State :=
  { regs [] with fab := { Fabric.reset with device := 7, strapped := true, links := [l, { LinkState.reset (.port 1) with present := true }], routing := [(9, 0x80000000000000000000000000000001#128)] } }

/-- A packet on its way from device 9 to a device. -/
def transit (ddev route : Nat) : FabPacket := ⟨route, 9, ddev, packet 0 (.foreign ddev 0) (.request 0 0) (.load 0x100 8 false)⟩

theorem witness_FabricActs :
    ((device port).fab.link (.port 0) = some port ∧ port.up = true ∧ (port.rx 0).loaded = true ∧ port.cur < 2 ∧ port.txSlot.loaded = true ∧ (port.tx 1).loaded = true)
    ∧ (let f : Flit := ⟨3, 0, 0, 4, 0, 0, leBytes 4 4, true⟩; f.session = linkSession (.port 0) ∧ f.authentic = true ∧ f.len ≤ 224 ∧ leNat (f.payload.take 4) = 4)
    ∧ (let f : Flit := ⟨1, 0, 0, 224, 1, 0, List.replicate 224 0, false⟩; f.lseq ≠ port.rxSeq)
    ∧ (let s := device port; routeValid (s.fab.entry (devPoint 9)) = true ∧ routePort (s.fab.entry (devPoint 9)) = 1 ∧ devPod 9 = devPod 7 ∧ s.fab.names 9 = true ∧ s.fw.absent 4 = false)
    ∧ (let s := { device port with fab := { (device port).fab with flows := [⟨5, 9, 0, [⟨0, .request 0 0, 1⟩], [], none, 1⟩] } }; (s.fab.flow 5 9).unacked ≠ 0 ∧ (s.fab.flow 5 8).unacked = 0) := by decide +kernel

theorem length_padTo (n : Nat) (l : List Byte) : (padTo n l).length = n := by
  unfold padTo
  rw [List.length_take, List.length_append, List.length_replicate]
  omega

theorem length_headerBytes (p : Packet) : (headerBytes p).length = 16 := by
  unfold headerBytes
  simp only [List.length_append, length_leBytes]

/-- The bytes of a fabric packet with a load are as many as its header says. -/
theorem received_fabric {p : FabPacket} {a : Dword} {n : Nat} {e : Bool} (h : p.packet.body = .load a n e) : (fabricBytes p).take (fabricLen p) = fabricBytes p := by
  have h1 : (fabricBytes p).length = fabricLen p := by
    unfold fabricBytes fabricLen fabricHeader packetBytes packetLen
    simp only [List.length_append, length_leBytes, h, length_headerBytes, length_padTo, dataFlits]
  rw [← h1, List.take_length]

theorem witness_FabricActs_bytes : (fabricBytes (transit 7 0)).take (fabricLen (transit 7 0)) = fabricBytes (transit 7 0)
    ∧ (fabricBytes (transit 9 0)).take (fabricLen (transit 9 0)) = fabricBytes (transit 9 0)
    ∧ (fabricBytes (transit 7 9)).take (fabricLen (transit 7 9)) = fabricBytes (transit 7 9)
    ∧ { port with rxBytes := fabricBytes (transit 7 0) }.rxBytes = fabricBytes (transit 7 0) := by
  refine ⟨received_fabric (a := 0x100) (n := 8) (e := false) rfl, received_fabric (a := 0x100) (n := 8) (e := false) rfl,
    received_fabric (a := 0x100) (n := 8) (e := false) rfl, rfl⟩

/-- A packet for this device from a device of its tenant's partition, one from another; one for another device; one with a reserved ROUTE. -/
theorem witness_FabricActs_packets :
    (transit 7 0).ddev = (device port).fab.device ∧ (transit 7 0).route < 9 ∧ devPoint 7 ≤ 1056 ∧ (transit 7 0).packet.src = .core 0
    ∧ (transit 7 0).packet.dst = .foreign 7 0 ∧ isAnswer (transit 7 0).packet = false ∧ (5, 9) ∉ (device port).fab.partition
    ∧ (5, 9) ∈ { (device port).fab with partition := [(5, 9)] }.partition
    ∧ (transit 9 0).ddev ≠ (device port).fab.device ∧ devPoint 9 ≤ 1056 ∧ 9 ≤ (transit 7 9).route ∧ (transit 7 9).sdev = 9
    ∧ ((device port).fab.link (.port 1)).any (fun k => k.present && k.up) = true ∧ (1 : Nat) ≠ 0 := by decide +kernel

/-- A flit of a Prenor link that is not there; the last replay of a flit. -/
theorem witness_FabricActs_links :
    (State.reset.fab.link (.prenor 0)).map LinkState.up = some true ∧ State.reset.fab.link (.prenor 5) = none
    ∧ (let l := { port with unacked := [⟨⟨1, 0, 0, 0, 4, 4, [], true⟩, 3⟩] }; let f : Flit := ⟨4, 0, 0, 4, 0, 0, leBytes 4 4, true⟩
       f.session = linkSession l.link ∧ f.authentic = true ∧ (l.rx f.ks).loaded = true ∧ leNat (f.payload.take 4) = 4 ∧ l.unacked.all (fun x => decide (3 ≤ x.replays)) = true) := by decide +kernel

theorem witness_DecodeEncode : (Instr.addi 31 31 0xFFFF).wellFormed = true ∧ (encode (.addi 31 31 0xFFFF)).isSome = true := by decide

theorem witness_StepRunsDecoded :
    (let s := { pair { unit 0 [] with ls := [(0x102, 0x21), (0x103, 0x0C)] } with agenda := [.cycle 0] }; let s1 := tickCore { s with agenda := [] } 0
     s1.chooseSlot 0 = some 0 ∧ ((s1.core 0).slot 0).fetched = [] ∧ ((s1.core 0).slot 0).pendTraps = [] ∧ (match decodeWord (wordIn (s1.core 0) 0x100) with | .ok i => decide (i = .addi 1 1 0) | _ => false) = true)
    ∧ (let s1 := tickCore (pair { unit 0 [] with ls := [] }) 0; s1.chooseSlot 0 = some 0 ∧ (match decodeWord (wordIn (s1.core 0) 0x100) with | .error _ => true | .ok _ => false) = true)
    ∧ (let s := pair { unit 0 [] with ctl := { Control.reset with trapvec := 0x400 }, slots := Core.reset.slots.set 3 { runner [] with pendTraps := [(5, 0x77)] } }
       (tickCore s 0).chooseSlot 0 = some 3 ∧ (((tickCore s 0).core 0).slot 3).pendTraps ≠ [] ∧ ((tickCore s 0).core 0).midway 3 = false)
    ∧ (tickCore State.reset 0).chooseSlot 0 = none
    ∧ (8 ∉ State.reset.fw.failedFns ∧ (match decodeWord 0x0C210000#32 with | .ok i => decide (i = .addi 1 1 0) | _ => false) = true ∧ encode (.matcherFiring 0) = none) := by decide +kernel

/-- A repair outstanding with nothing parked; a supervisor word that waits at a fence, and one that does not. -/
theorem witness_StepRunsDecoded_supervisor :
    (let s := pair { unit 0 [] with ctl := { Control.reset with repairs := 1 } }; (tickCore s 0).retryDue 0 = true ∧ 0 < ((tickCore s 0).core 0).ctl.repairs)
    ∧ (tickCore (regs []) 0).retryDue 0 = false
    ∧ (match decodeWord 0x0C210000#32 with | .ok i => decide (waitsAt i { tickCore (regs []) 0 with issuer := (0, 4) } = false) | _ => false) = true := by decide +kernel

theorem canonical_core (k : Core) (h1 : k.ls = []) (h2 : k.acc = []) (h3 : k.lsHdr = []) (h4 : k.accHdr = []) : CoreCanonical k := by
  unfold CoreCanonical
  rw [h1, h2, h3, h4]
  exact ⟨rfl, rfl, rfl, rfl⟩

theorem witness_StepKeepsCanonical : Canonical State.reset ∧ next (step State.reset) (fun _ => true) = true := by
  refine ⟨⟨rfl, fun c => canonical_core _ rfl rfl rfl rfl, rfl, rfl, fun g hg => ?_⟩, by decide +kernel⟩
  cases hg
/-- Packets of elements at a core: the last of two with credit, all applied; the last of one refused; a first one without a COUNT channel for it. -/
theorem witness_CoresServeRequests_elements :
    (let e : Element := ⟨0x7FFFFE0000100104, .store, 4, 1, [(0, 0)], 7, 0, 0⟩
     let p := packet 0 (.core 1) (.retained 1 [0, 1]) (.applying [e] 0x45 [.applied 4 0 0])
     let k := { opened (unit 1 []) with chans := (Vector.replicate 64 Channel.reset).set 5 { Channel.reset with decl := true, count := true } }
     let s := sending { regs [] with cores := [(0, unit 0 []), (1, k)] } p
     comes s p = true ∧ elementsOf p.body = some ([e], 0x45, [.applied 4 0 0]) ∧ (0x45 : Nat).testBit 6 = true ∧ (s.core 1).isCount (0x45 % 64) = true
       ∧ admitsWrite (s.core 1) p 0x104 4 (elementRights e.op) = true ∧ ElemResult.isApplied (.applied 4 0 0) = true
       ∧ ((s.core 1).chan 5).cnt + creditedBytes [.applied 4 0 0, .applied (e.width * e.mult) 0 0] < 2 ^ 48)
    ∧ (let e : Element := ⟨0x7FFFFE0000100104, .store, 4, 1, [(0, 0)], 7, 0, 0⟩
       let p := packet 0 (.core 1) (.retained 1 [0]) (.elements [e] 0x45); let s := sending (regs []) p
       comes s p = true ∧ elementsOf p.body = some ([e], 0x45, []) ∧ (s.core 1).isCount (0x45 % 64) = false
         ∧ admitsWrite (s.core 1) p 0x104 4 (elementRights e.op) = false) := by decide +kernel

/-- The first of two elements at a station, and the last one. -/
theorem witness_StationsServeRequests_elements :
    (let e (v : Dword) : Element := ⟨0x800000000000FFF8 + v, .store, 4, 1, [(0, 0)], 7, 0, 0⟩
     let p := packet 0 (.station 3) (.retained 1 [0, 1]) (.elements [e 0, e 4] 0); let s := sending (paged (regs [])) p
     comes s p = true ∧ elementsOf p.body = some ([e 0, e 4], 0, []) ∧ mapped (mapRange { s with net := [] } 3 0x500 (e 0).addr true false [(0, 4)]) [0x4000FFF8] = true)
    ∧ (let e : Element := ⟨0x800000000000FFFC, .store, 4, 1, [(0, 0)], 7, 0, 0⟩
       let p := packet 0 (.station 3) (.retained 1 [0, 1]) (.applying [e] 0 [.applied 0 0 0]); let s := sending (paged (regs [])) p
       comes s p = true ∧ elementsOf p.body = some ([e], 0, [.applied 0 0 0]) ∧ ElemResult.isApplied (.applied 0 0 0) = true
         ∧ mapped (mapRange { s with net := [] } 3 0x500 e.addr true false [(0, 4)]) [0x4000FFFC] = true) := by decide +kernel

/-- A packet that a station is applying holds an invalidation of its page back, and of the whole ASID; nothing holds back that of another. -/
theorem witness_PagesChange_applying :
    (let s := { State.reset with net := [packet 0 (.station 3) (.retained 1 [0]) (.applying [⟨0x800000000000FFFC, .store, 4, 1, [(0, 0)], 7, 0, 0⟩] 0 [.applied 0 9 1])] }
     s.net.any (fun p => decide (p.asid = 0x500) && (match p.body with | .applying _ _ done => done.contains (.applied 0 9 1) | _ => false)) = true
       ∧ samePage 0 9 9 = true ∧ samePage 1 31 9 = true ∧ samePage 0 8 9 = false ∧ s.mem.heldParts = [] ∧ s.fw.absent 2 = false) := by decide +kernel

/-- The blocks that UnitsMove's clauses ask for: what is in hand, what is asked for next, and what an element waits for. -/
theorem witness_UnitsMove_inHand :
    (let h := copyShape aCopy.word; h.inHand aCopy 0 (h.needs (withCommand aCopy) 0 0) = false ∧ aCopy.rpos = 0 ∧ 0 < h.len ∧ aCopy.asked (h.piece (h.srcAt 0)).lo = false)
    ∧ (let h := copyShape aCopy.word; let m := hasRead aCopy 64 [0x200] 1; h.inHand m 0 (h.needs (withCommand m) 0 0) = true ∧ 0 < h.len)
    ∧ (let m := hasRead farCopy 64 [0x7FFFFE0000100200] 1; let h := copyShape m.word; Runs (pair (withCommand m)) 0 0 0x10 m ∧ h.inHand m 0 (h.needs (withCommand m) 0 0) = true)
    ∧ (let m := hasRead aBcast 64 [0x200] 1; let h := copyShape m.word; Runs (pair (withCommand m)) 0 0 0x13 m ∧ h.inHand m 0 (h.needs (withCommand m) 0 0) = true
       ∧ m.writes = [] ∧ (withCommand m).page.orgx + (withCommand m).page.width ≤ 72 ∧ bcastSelf (withCommand m) m.word = false)
    ∧ (let m := { hasRead aGather 64 [0x200] 1 with todo := [0] }; let h := indexedOf m.word; Runs (pair (withCommand m)) 0 0 0x11 m ∧ m.pos < m.rpos
       ∧ h.inHand m m.pos (h.needs (withCommand m) 0 m m.pos) = true)
    ∧ (let m := { aGather with todo := [0] }; let h := indexedOf m.word; m.pos = m.rpos ∧ m.rpos / h.es < m.todo.length ∧ h.settled m (m.rpos / h.es) = true
       ∧ h.check (withCommand m) 0 m m.rpos = none ∧ ¬ (h.local = true ∧ m.pos < h.start m.rpos) ∧ m.asked (h.piece m m.rpos).lo = false)
    ∧ (let m := { hasRead aGather 0 [0x200] 1 with todo := [0] }; let h := indexedOf m.word; m.asked (h.piece m m.rpos).lo = true) := by decide +kernel

/-- Readings of an ACCLD in order; its block in hand. -/
theorem witness_AccumulatorUpdates_keys :
    (let m := command 0 (words 0x805 0x400 0x100001 0) true; let h := accLoadOf m.word; m.todo = [] ∧ m.buf (h.key 0) = none ∧ m.rpos = 0
       ∧ 0 < (accRegion m.word).m * h.nb ∧ m.asked (h.key 0) = false)
    ∧ (let w := words 0x805 0x400 0x100001 0; let h := accLoadOf w; let m := hasRead (command 0 w true) 1 [h.key 0] 1; Runs (pair (withCommand m)) 0 0 0x05 m
       ∧ (m.buf (h.key 0)).isSome = true ∧ h.fault (accRegion w).acc ⟨h.key 0, List.replicate 64 1, 0, none, none⟩ (h.addr 0) = none) := by decide +kernel

/-- A gang whose last exit the hub has, with a close under way and without one. -/
theorem witness_GangsEndAndMove_leaving :
    (let g := { gangOf .running with leaving := true }; let s := { placed (unit 0 []) .running with hub := { (placed (unit 0 []) .running).hub with gangs := [g] } }
     s.gang 1 = some g ∧ g.state ≠ .ending ∧ s.hub.closings.all (fun x => decide (x.gang ≠ 1)) = true)
    ∧ (⟨5, 9, 1, 15, [0]⟩ : Closing).gang = 1 := by decide +kernel

/-- A packet for device 9 and its flow: nothing unacknowledged; something, out of the same port, and out of another. -/
theorem witness_HubPacketsTakeEffect_flows :
    (let p := packet 0 (.foreign 9 0) .none (.load 0 8 false); let s := { sending (device port) p with mesh := (regs []).mesh }; let fl := s.fab.flow 5 9
     s.net[0]? = some p ∧ s.crossed p = true ∧ fl.next = none ∧ fl.held = [] ∧ fl.unacked = 0
       ∧ (match (s.fab.hop false ⟨fl.route, s.fab.device, 9, p⟩).2 with | .port m => decide (m = 1) | _ => false) = true ∧ (s.fab.link (.port 1)).isSome = true)
    ∧ (let s := { device port with fab := { (device port).fab with flows := [⟨5, 9, 0, [⟨0, .request 0 0, 1⟩], [], none, 2⟩] } }
       let fl := s.fab.flow 5 9; fl.next = none ∧ fl.held = [] ∧ fl.unacked ≠ 0 ∧ fl.port ≠ 1)
    ∧ (let s := { device port with fab := { (device port).fab with flows := [⟨5, 9, 0, [⟨0, .request 0 0, 1⟩], [], none, 1⟩] } }
       let fl := s.fab.flow 5 9; fl.next = none ∧ fl.held = [] ∧ fl.unacked ≠ 0 ∧ fl.port = 1) := by decide +kernel

/-- An answer that settles the flow of its asker, here the only one to ask; a packet of a reserved kind; a flit of the operator's link, session 0 open. -/
theorem witness_FabricActs_answers :
    (let q := { packet 0 (.core 0) (.request 0 0) (.reply [] 0) with src := .foreign 9 0, vc := .hub }; let fl : Flow := ⟨5, 9, 0, [⟨0, tagKey q.tag, 1⟩], [], none, 1⟩
     let s := { device port with fab := { (device port).fab with flows := [fl] } }
     s.fab.asking q = some fl ∧ isAnswer q = true ∧ answersOf q.tag ≤ 1)
    ∧ isReserved (packet 0 (.core 0) .none (.reserved 1 0 0)) = true
    ∧ (receiving State.reset (session 0 0 []) []).fab.sessions = [session 0 0 []] ∧ (session 0 0 []).confirmed = true := by decide +kernel

/-! Witnesses of clauses at the ends of their ranges -/

/-- Loads and stores of each width at the first and last offset of each range that a clause names; an access that crosses LSBYTES. -/
theorem witness_BadAccessEndsGang_ranges :
    [(0x60000, 1), (0x7FFFE, 2), (0x90000, 4), (0xBFFF8, 8), (0xC0000, 8), (0xC03FC, 4), (0xC0400, 2), (0xCFFFF, 1), (0xDC000, 8), (0xDFFF8, 8), (0xF0000, 4), (0xFFFFF, 1),
      (0xD0000, 8), (0xDBFFC, 4), (0xE0040, 8), (0xEFFFE, 2), (0x80000, 8), (0x8FFF8, 8), (0xF8, 8)].all (fun y =>
        let s := regs [(1, BitVec.ofNat 64 y.1)]
        decide ((s.reg 1 + (0#16).signExtend 64).toNat = y.1 ∧ y.1 % y.2 = 0 ∧ Ready (.ldb 3 1 0) s ∧ Ready (.ldh 3 1 0) s ∧ Ready (.ldw 3 1 0) s ∧ Ready (.ldd 3 1 0) s
          ∧ Ready (.stb 3 1 0) s ∧ Ready (.sth 3 1 0) s ∧ Ready (.stw 3 1 0) s ∧ Ready (.std 3 1 0) s)) = true
    ∧ (let s := pair { unit 0 [(1, 0x1000)] with page := { page 0 with lsbytes := 0x1004 } }
       User s ∧ (s.reg 1).toNat < s.here.page.lsbytes ∧ s.here.page.lsbytes < (s.reg 1).toNat + 8 ∧ Ready (.ldd 3 1 0) s ∧ Ready (.std 3 1 0) s) := by decide +kernel

theorem witness_BadAccessEndsGang_crossing : let k : Core := { unit 0 [] with page := { page 0 with lsbytes := 0x1004 } }
    Readable k 0x1000 (0x1004 - 0x1000) ∧ Writable k 0x1000 (0x1004 - 0x1000) := by
  intro k
  refine ⟨fun j h1 h2 => ⟨.inr (.inl ?_), fun l hm => absurd hm ?_⟩, fun j h1 h2 => ⟨?_, fun l hm => absurd hm ?_⟩⟩
  · show 0x100 ≤ j ∧ j < 0x60000 ∧ j < 0x1004; omega
  · exact some_mem_replicate l
  · show 0x100 ≤ j ∧ j < 0x60000 ∧ j < 0x1004; omega
  · exact some_mem_replicate l

/-- The first lane at LSBYTES; a lane whose last byte lies under a lock, in a slot with a trap entry. -/
theorem witness_OwnVectors_fails :
    (let s := pair { unit 0 [(1, 0x1000), (2, 4)] with page := { page 0 with lsbytes := 0x1000 } }
     (s.mask 0).getLsbD 0 = true ∧ (s.reg 1 + BitVec.ofNat 64 0 * s.reg 2).toNat = 0x1000 ∧ s.here.page.lsbytes ≤ 0x1000 ∧ Ready (.vlds 3 1 2 0) s ∧ Ready (.vsts 3 1 2 0) s
       ∧ Ready (.vgather 3 1 4 0) s ∧ Ready (.vscatter 3 1 4 0) s ∧ s.me.lanes = 0)
    ∧ (let l : Lock := ⟨true, 1, 0, 0x1003, 0x1004⟩
       let s := pair { unit 0 [(1, 0x1000), (2, 4)] with locks := (Vector.replicate 16 none).set 3 (some l), ctl := { Control.reset with trapvec := 0x400 } }
       (s.mask 0).getLsbD 0 = true ∧ 0x1000 + 4 ≤ s.here.page.lsbytes ∧ some l ∈ s.here.locks.toList ∧ l.dest = true ∧ l.base < 0x1000 + 4 ∧ 0x1000 < l.limit ∧ l.base < l.limit
         ∧ s.here.ctl.trapvec &&& 0xFFFFC#64 ≠ 0 ∧ s.me.intrap = false ∧ Ready (.vlds 3 1 2 0) s ∧ Ready (.vscatter 3 1 4 0) s) := by decide +kernel

/-- A gather of which every lane but the last is in this core: the last, of a peer core. -/
theorem witness_RemoteRequests_lanes :
    let s := pair { unit 0 [] with slots := Core.reset.slots.set 0 { runner [(1, 0x1000), (2, 0x7FFFFE0000100000)] with m := (Vector.replicate 8 0).set 1 3#64 } }
    (s.mask 1).getLsbD 0 = true ∧ (s.mask 1).getLsbD 1 = true ∧ (s.mask 1).getLsbD 2 = false
      ∧ (s.place (s.reg 1 + BitVec.ofNat 64 0 * s.reg 2)).dest = none ∧ (s.place (s.reg 1 + BitVec.ofNat 64 1 * s.reg 2)).dest = some (.core 1)
      ∧ (s.reg 1 + BitVec.ofNat 64 1 * s.reg 2).toNat % 4 = 0 ∧ User s ∧ Ready (.vlds 3 1 2 1) s := by decide +kernel

theorem witness_RemoteRequests_own : Readable (unit 0 []) 0x1000 4 := readable_in rfl rfl (by omega)

/-- SENDC to device memory. -/
theorem witness_Sends_device : let s := regs [(1, 0x80000000000FFFF0)]
    s.place (s.reg 1) = .va 0xFFFF0 ∧ (s.reg 1).toNat % 16 = 0 ∧ Ready (.sendc 1 2 0) s := by decide

/-- A descriptor of each failure: no term, a handler below 0x100, a channel at NCHAN, an index at NPAT; a malformed word, a KEEP that changes the kind, a channel
that a barrier uses. -/
theorem witness_ChannelsAndPatterns_codes :
    ([((words 0x0000000000000200 0 0 0), some 2), ((words 0x00000101000000FC 0x10001 0 0), some 4), ((words 0x0000010000000200 0x10040 0 0), some 6),
       ((words 0x2000010000000200 0x10000 0 0), some 7), ((words 0x1F00010000000200 0x10000 0 0), none)] : List (BitVec 256 × Option Nat)).all (fun y =>
         decide ((pair { chanUnit 0 { Channel.reset with count := true } [] with page := page 0 }).here.patCode y.1 = y.2)) = true
    ∧ (let k := (pair { chanUnit 5 { Channel.reset with count := true } [] with bars := Core.reset.bars.set 3 ⟨true, true, false, false, false, 5, 0⟩ }).here
       (k.chan 5).count ≠ (0#64).getLsbD 63 ∧ (k.bars.toList.any (fun b => b.member && decide (b.ch = 5))) = true ∧ k.chcfgIllegal 5 0x4000000000000000 = true
         ∧ k.chcfgIllegal 5 0 = true ∧ k.chcfgIllegal 6 0 = false) := by decide +kernel

/-- FLUSHD of the first offset of a reserved range of the window, and of one beside it. -/
theorem witness_FencesAndFlush_reserved :
    (let s := regs [(1, 0x60000)]; s.place (s.reg 1) = .own 0x60000 ∧ Ready (.flushd 1) s) ∧ (let s := regs [(1, 0x5FFFF)]; s.place (s.reg 1) = .own 0x5FFFF ∧ Ready (.flushd 1) s)
    ∧ ReservedAt 0x60000 ∧ ¬ ReservedAt 0x5FFFF := by
  refine ⟨by decide, by decide, ?_, ?_⟩ <;> unfold ReservedAt <;> omega

/-- ENQ of a command with each failure of its own order, and of one that is taken: a good word, an engine that is not its, an operand past LSBYTES, a DONECH that is
none, no lock entry, no room. -/
theorem witness_CommandsAndCancel_codes :
    let k := (regs []).here; let good := words 0x810 0x200 0x400 0x100040; let full : Core := { k with eng := ⟨List.replicate 16 (queued false none), 16, 16, 0⟩ }
    k.enqCode 0 1 good = none ∧ k.enqCode 0 2 good = some 2 ∧ k.enqCode 0 1 (words 0x810 0x200 0x5FFF0 0x100040) = some 4
      ∧ k.enqCode 0 1 (words 0xC10 0x200 0x400 0x100040) = some 6
      ∧ { k with locks := Vector.replicate 16 (some ⟨true, 1, 9, 0, 0⟩) }.enqCode 0 1 good = some 3 ∧ full.enqCode 0 1 good = some 1 := by decide +kernel

/-- A command that waits for an arm level, one that waits for a lock of an earlier one, one that neither holds. -/
theorem witness_CommandsAndCancel_states :
    (let m := command 1 (words 0xA10 0x200 0x400 0x100040) false; m.word.getLsbD 9 = true ∧ m.armed = none ∧ (withCommand m).isCount 0 = false)
    ∧ (let x := { command 1 (words 0x810 0x200 0x400 0x100040) true with ticket := 1 }; let m := { command 1 (words 0x810 0x400 0x800 0x100040) false with order := 1 }
       let k : Core := { withCommand m with eng := ⟨[x, m], 2, 2, 0⟩, locks := (Vector.replicate 16 none).set 0 (some ⟨true, 1, 1, 0x400, 0x440⟩) }
       (k.operands 0 m.word).any (fun o => decide (o.lo < 0x440 ∧ 0x400 < o.hi)) = true ∧ x.order < m.order ∧ k.lockHazard 0 m = true ∧ k.startable 0 m = false)
    ∧ (let m := command 1 (words 0x810 0x200 0x400 0x100040) false; m.running = false ∧ (withCommand m).lockHazard 0 m = false ∧ m.word.getLsbD 9 = false)
    ∧ Ready (.mfc 3 0x041) (regs []) := by decide +kernel

/-- CENST of a slot that is open, done, free; at a core that is not the root. -/
theorem witness_CensusesOpenAndClose_words :
    (let s := pair { censusUnit [(1, 1), (2, 0x11)] [] with cens := Core.reset.cens.set 1 { CenSlot.reset with state := .done, value := 7, count := 2 } }
     1 < s.here.page.ncen ∧ (s.reg 1).getLsbD 4 = false ∧ (s.reg 2).getLsbD 4 = true ∧ s.here.page.rank = 0 ∧ (s.here.cen 1).state = .done ∧ Ready (.censt 3 1) s ∧ Ready (.censt 3 2) s)
    ∧ (let s := pair { censusUnit [(1, 15)] [] with page := page 1 }; ¬ s.here.page.rank = 0 ∧ 15 < s.here.page.ncen ∧ Ready (.censt 3 1) s) := by decide +kernel

/-- Values in ascending entry order; a maximum with a NaN among its values, and without one. -/
theorem witness_RespondSettlesDebt_values :
    Ascending [(3, 1), (3, 2), (63, 0)] ∧ ¬ Ascending [(4, 1), (3, 2)]
    ∧ (let lf : Leaf := ⟨.arrived, 3, 0, [(3, 0x3F800000), (4, 0x7FC00001)]⟩; 1 < lf.vals.length ∧ nanLane ((0x7FC00001#64).extractLsb' 0 32) ∧ lf.report = (2, 0x7FC00000))
    ∧ (let lf : Leaf := ⟨.arrived, 3, 0, [(3, 0x80000000), (4, 0)]⟩; lf.report = (2, 0)) := by
  refine ⟨by unfold Ascending; decide, by unfold Ascending; decide, ?_, by decide +kernel⟩
  exact ⟨by decide, by unfold nanLane; decide +kernel, by decide +kernel⟩

/-- DIRADD and DIRMOVE with each failure: a tile that is no run of blocks, no MSG channel, no free entry; no ACTIVE entry, a rank past the gang's, its own rank, a
NOTIFY channel that is none, no lock entry, no room. -/
theorem witness_DirectoriesChange_codes :
    (let k := censusUnit [] []; let good := words 0x0003000000000001 0 0x4000000200 0
     k.diraddCode good = none ∧ k.diraddCode (words 0x0003000000000001 0 0x200 0) = some 4 ∧ k.diraddCode (words 0x0004000000000001 0 0x4000000200 0) = some 6
       ∧ { k with dir := Vector.replicate 64 { Entry.reset with state := .active } }.diraddCode good = some 1)
    ∧ (let k : Core := { unit 0 [] with dir := Core.reset.dir.set 63 { Entry.reset with state := .active, addr := 0x200, len := 64 } }; let b : Dword := 0x7FFFFE0000100200
       k.dirmoveCode 63 b = none ∧ k.dirmoveCode 62 b = some 2 ∧ k.dirmoveCode 63 0x7FFFFE0000200200 = some 4 ∧ k.dirmoveCode 63 0x7FFFFE0000000200 = some 4
         ∧ k.dirmoveCode 0x40003F b = some 6 ∧ { k with locks := Vector.replicate 16 (some ⟨true, 1, 9, 0, 0⟩) }.dirmoveCode 63 b = some 3
         ∧ { k with eng := ⟨List.replicate 16 (queued false none), 16, 16, 0⟩ }.dirmoveCode 63 b = some 1) := by decide +kernel

/-- What a word of BARST has to say: a barrier that is held and has arrived, the last one below NBAR. -/
theorem witness_BarriersAllocateAndArrive_words :
    let b : Bar := ⟨true, true, true, true, true, 63, 0xFFFFFFFF⟩; let s := pair { unit 0 [(1, 63)] with bars := Core.reset.bars.set 63 b }
    s.here.bar 63 = b ∧ 63 < s.here.page.nbar ∧ Ready (.barst 3 1) s ∧ next (exec (.barst 3 1) s) (fun t => decide (t.reg 3 = 0xF13F0000FFFFFFFF)) = true := by decide +kernel

theorem meets_iff (a b : AccRegion) : a.meets b = true ↔ ShareBytes a b := by
  unfold AccRegion.meets spansMeet ShareBytes
  simp only [Bool.and_eq_true, decide_eq_true_eq]
  norm_cast
  

/-- `Hazard` says of a command what the model's test does. -/
theorem hazard_iff (k : Core) (dev : Nat) (m : Command) : Hazard k dev m ↔ k.lockHazard dev m = true ∨ k.accHazard m = true := by
  unfold Hazard Core.lockHazard Core.accHazard regionsMeet
  refine or_congr ?_ ?_
  · simp only [List.any_eq_true]
    constructor
    · rintro ⟨o, l, x, ho, hl, hx, h1, h2, h3, h4, h5, h6⟩
      exact ⟨o, ho, some l, hl, by simp only [Bool.and_eq_true, List.any_eq_true, decide_eq_true_eq, Bool.or_eq_true]; exact ⟨⟨⟨⟨x, hx, ⟨h1, h2⟩, h3⟩, h4⟩, h5⟩, h6⟩⟩
    · rintro ⟨o, ho, l, hl, h⟩
      cases l with
      | none => simp at h
      | some l =>
        simp only [Bool.and_eq_true, List.any_eq_true, decide_eq_true_eq, Bool.or_eq_true] at h
        obtain ⟨⟨⟨⟨x, hx, ⟨h1, h2⟩, h3⟩, h4⟩, h5⟩, h6⟩ := h
        exact ⟨o, l, x, ho, hl, hx, h1, h2, h3, h4, h5, h6⟩
  · simp only [Bool.and_eq_true, Bool.or_eq_true, List.any_eq_true, decide_eq_true_eq, meets_iff, Option.isNone_iff_eq_none]
    constructor
    · rintro ⟨h, x, hx, h1, h2, h3, h4⟩
      refine ⟨h, x, hx, ⟨⟨h1, h2⟩, h3⟩, ?_⟩
      rcases h4 with ⟨p, q, hp, hq, h⟩ | ⟨p, q, hp, hq, h⟩
      · exact .inl ⟨p, hp, q, hq, h⟩
      · exact .inr ⟨p, hp, q, hq, h⟩
    · rintro ⟨h, x, hx, ⟨⟨h1, h2⟩, h3⟩, h4⟩
      refine ⟨h, x, hx, h1, h2, h3, ?_⟩
      rcases h4 with ⟨p, hp, q, hq, h⟩ | ⟨p, hp, q, hq, h⟩
      · exact .inl ⟨p, q, hp, hq, h⟩
      · exact .inr ⟨p, q, hp, hq, h⟩

/-- Two heads of the MXE with disjoint regions, of the low queue the older one. -/
def twoHeads (c : Nat) : Core :=
  { unit 0 [] with eng := ⟨[command 0 (words 0x10000803 0 0x100001 0) false, { command 0 (words 0x803 0 0x100041 0) false with ticket := 1, order := 1 }], 2, 2, c⟩ }

/-- What O34's hypotheses say of a command that stands at the head of its queue with no hazard: the one command of COPY; both heads of the MXE, at C 6 and 7. -/
theorem witness_CommandsStart_heads :
    (let m := command 1 (words 0x810 0x200 0x400 0x100040) false; let k := withCommand m
     k.eng.cmds = [] ++ m :: [] ∧ ¬ Hazard k 0 m ∧ k.eng.cmds.countP (fun x => decide (x.engine = 1) && x.running) < 4)
    ∧ (let l := command 0 (words 0x10000803 0 0x100001 0) false; let h := { command 0 (words 0x803 0 0x100041 0) false with ticket := 1, order := 1 }
       (twoHeads 6).eng.cmds = [] ++ l :: [h] ∧ (twoHeads 6).eng.cmds = [l] ++ h :: [] ∧ (l.word.extractLsb' 28 4).toNat = 1 ∧ (h.word.extractLsb' 28 4).toNat = 0
         ∧ ¬ Hazard (twoHeads 6) 0 l ∧ ¬ Hazard (twoHeads 6) 0 h ∧ (twoHeads 6).eng.mxeC ≠ 7 ∧ (twoHeads 7).eng.mxeC = 7
         ∧ ((twoHeads 6).mxeChoice 0).map Prod.fst = some h ∧ ((twoHeads 7).mxeChoice 0).map Prod.fst = some l) := by
  simp only [hazard_iff]; decide +kernel

/-- A BCAST that its own core takes last: its write to this core, and that with the credit; the credit of a write that is placed, and one that is too much; a read end
that is refused with a block in hand, and with nothing more to write. -/
theorem witness_UnitsMove_own :
    (let x : OwnWrite := ⟨0x400, 0, 0, ⟨0x400, List.replicate 64 1, .keep, false⟩, false⟩; let m := { aBcast with pos := 64, rpos := 64, progress := 64, own := [x] }
     (withCommand m).command 0 = some m ∧ m.ticket = 0 ∧ cmdCode m.word = 0x13 ∧ m.running = true ∧ m.halted = none ∧ m.refusal = none ∧ m.done = none ∧ x.placed = false)
    ∧ (let x : OwnWrite := ⟨0x400, 0, 0, ⟨0x400, List.replicate 64 1, .keep, true⟩, true⟩
       let m := { command 1 (words 0x114000000810 0x200 0x400 0x100040) true with pos := 64, rpos := 64, progress := 64, own := [x] }
       let k (n : Nat) : Core := { withCommand m with chans := (Vector.replicate 64 Channel.reset).set 5 { Channel.reset with decl := true, count := true, cnt := n } }
       (k 0).command 0 = some m ∧ cmdCode m.word = 0x10 ∧ m.halted = none ∧ m.refusal = none ∧ m.done = none ∧ x.placed = true ∧ x.write.credit = true
         ∧ cmdCredit m.word = some 5 ∧ (k 0).isCount 5 = true ∧ ((k 0).chan 5).cnt + x.write.bytes.length < 2 ^ 48
         ∧ 2 ^ 48 ≤ ((k (2 ^ 48 - 64)).chan 5).cnt + x.write.bytes.length ∧ lastWrite { m with own := [] } = true ∧ { m with own := [] }.quiet = true
         ∧ { m with own := [] }.moves = true ∧ cmdNotify m.word = false) := by decide +kernel

theorem witness_CommandsArmStopAndFinish_refused :
    (let m := { command 1 (words 0xC10 0x7FFFFE0000100200 0x400 0x100040) true with refusal := some (0, 0x7FFFFE0000100200) }
     let k : Core := { withCommand m with chans := Vector.replicate 64 { Channel.reset with decl := true } }
     k.command 0 = some m ∧ cmdCode m.word = 0x10 ∧ m.running = true ∧ m.moves = true ∧ m.own = [] ∧ m.reads = [] ∧ m.writes = [] ∧ m.refusal.isSome = true
       ∧ cmdNotify m.word = true ∧ k.isMsg (cmdDone m.word) = true ∧ (k.chan (cmdDone m.word)).held < 8 ∧ k.held = []
       ∧ (match nextAct k 0 m 0 with | .rest => true | .finish _ => true | .read _ _ _ _ => true | _ => false) = true)
    ∧ (let m := { aMove with kept := 1, pos := 64, rpos := 64 }; let k := withCommand m
       k.responded ≠ some (0, k.cycle) ∧ { k with responded := some (1, k.cycle) }.responded ≠ some (0, k.cycle) ∧ { k with responded := some (0, k.cycle) }.responded = some (0, k.cycle)) := by
  decide +kernel

/-- A pattern that may fire, and the one that is chosen; the first free slot. -/
theorem witness_CoreStepsRun_chosen : Chosen matching 0 ∧ FreeSlot matching 1 ∧ ¬ FreeSlot matching 0 ∧ ¬ Eligible matching 1 ∧ ¬ Eligible (unit 0 []) 0 := by
  have h0 : Eligible matching 0 := by unfold Eligible; decide +kernel
  have h1 : ∀ j, j < 32 → Eligible matching j → j = 0 := by unfold Eligible; decide +kernel
  refine ⟨⟨h0, fun j hj => ?_⟩, by unfold FreeSlot; decide +kernel, by unfold FreeSlot; decide +kernel, by unfold Eligible; decide +kernel, by unfold Eligible; decide +kernel⟩
  rw [h1 j hj.1 hj]
  exact .inr ⟨rfl, Nat.le_refl _⟩

/-- A buffer that is due, and one whose oldest element has been held AGEMAX cycles. -/
theorem witness_CoreStepsRun_due :
    let b : Buffer := { dest := .core 1, elems := [⟨0x7FFFFE0000101000, .store, 4, 1, [(0, 0)], 1, 0, 0⟩], due := true }
    let k : Core := { unit 0 [] with ni := { Ni.reset with bufs := (Vector.replicate 16 none).set 15 (some b) } }
    (bufNo 15 : Fin 16) = 15 ∧ k.ni.bufs[(bufNo 15)] = some b ∧ k.ni.room b.dest 1 = true ∧ b.due = true := by decide +kernel

/-- What `Admits` asks for of an access that a core of the gang makes through one window. -/
theorem admits_own {k : Core} {p : Packet} {off n : Nat} {r : Rights} {w : Dword} (own : (∃ b, p.src = .core b) ∧ k.gang = some p.gang ∧ p.tenant = k.tenant)
    (h1 : 0x100 < off + n) (h2 : if r.send then 0xC0000 ≤ off ∧ off + 16 ≤ 0xC0400 ∧ off % 16 = 0
      else 0x100 ≤ off ∧ (off + n ≤ 0x60000 ∨ (r.read = true ∧ r.write = false ∧ r.reduce = false ∧ 0x80000 ≤ off ∧ off + n ≤ 0x90000)))
    (h3 : w ∈ k.windows.toList) (h4 : w.getLsbD 63 = true) (h5 : w.extractLsb' 50 2 = 0#2)
    (h6 : (w.extractLsb' 0 20).toNat ≤ off ∧ off + n ≤ (w.extractLsb' 20 20).toNat
        ∧ (r.read = true → w.getLsbD 45 = true) ∧ (r.write = true → w.getLsbD 46 = true) ∧ (r.reduce = true → w.getLsbD 47 = true)
        ∧ (r.send = true → w.getLsbD 48 = true) ∧ (r.header = true → w.getLsbD 49 = true)) : Admits k p off n r :=
  ⟨by rw [own.2.1]; exact Option.some_ne_none _, .inl own, fun h => absurd h (by omega), fun _ => ⟨h2, w, h3, h4, .inl ⟨h5, own⟩, h6⟩⟩

theorem own_reader (k : Core) (h1 : k.gang = some 1) (h2 : k.tenant = 5) (b : Body) :
    (∃ c, (packet 0 (.core 1) (.request 0 0) b).src = .core c) ∧ k.gang = some (packet 0 (.core 1) (.request 0 0) b).gang ∧ (packet 0 (.core 1) (.request 0 0) b).tenant = k.tenant :=
  ⟨⟨0, rfl⟩, h1, h2.symm⟩

/-- Reads and writes that a core admits, at the last byte of its window, at its first, in the gang page, at a door; and what lies just past them. -/
theorem witness_CoresServeRequests_admits (b : Body) :
    let k := opened (unit 1 []); let p := packet 0 (.core 1) (.request 0 0) b
    Admits k p 0x5FFF8 8 readRight ∧ Admits k p 0xF8 8 readRight ∧ ¬ Admits k p 0x5FFFC 8 readRight ∧ AdmitsWrite k p 0x100 4 ⟨false, true, false, false, false⟩
      ∧ ¬ Admits k p 0xFC 4 ⟨false, true, false, false, false⟩
      ∧ Admits { k with windows := (Vector.replicate 8 0).set 7 0x800100C0400C0000 } p 0xC03F0 16 ⟨false, false, false, true, false⟩ := by
  intro k p
  have g : k.gang = some 1 := rfl
  have door : (0x800100C0400C0000#64 : Dword) ∈ ((Vector.replicate 8 0#64).set 7 0x800100C0400C0000#64).toList := by decide +kernel
  have own := own_reader k g rfl b
  refine ⟨admits_own own (by decide) (by decide) (w := 0x8002E06000000100) (by decide +kernel) (by decide) (by decide) (by decide), ?_, ?_, ⟨?_, fun l j hl => ?_⟩, ?_, ?_⟩
  · exact ⟨by rw [g]; exact Option.some_ne_none _, .inl own, fun _ => ⟨own, rfl⟩, fun h => absurd h (by decide)⟩
  · exact fun h => absurd (h.2.2.2 (by decide)).1 (by decide)
  · exact admits_own own (by decide) (by decide) (w := 0x8002E06000000100) (by decide +kernel) (by decide) (by decide) (by decide)
  · have h : k.locks = Vector.replicate 16 none := rfl
    rw [h] at hl
    exact absurd hl (some_mem_replicate l)
  · exact fun h => absurd (h.2.2.1 (by decide)).2 (by decide)
  · exact admits_own (k := { k with windows := (Vector.replicate 8 0).set 7 0x800100C0400C0000 }) own (by decide) (by decide) (w := 0x800100C0400C0000) door (by decide) (by decide) (by decide)

/-- A credit that is to come: with room in the count, and without. -/
theorem witness_CoresServeRequests_crediting :
    let p := packet 0 (.core 1) (.engine 0 1) (.crediting 64 5)
    let k (n : Nat) : Core := { opened (unit 1 []) with chans := (Vector.replicate 64 Channel.reset).set 5 { Channel.reset with decl := true, count := true, cnt := n } }
    comes { regs [] with cores := [(0, unit 0 []), (1, k 0)] } p = true ∧ (k 0).isCount 5 = true ∧ ((k 0).chan 5).cnt + 64 < 2 ^ 48
      ∧ 2 ^ 48 ≤ ((k (2 ^ 48 - 64)).chan 5).cnt + 64
      ∧ (let b := packet 0 (.core 1) (.engine 0 1) (.block 0x7FFFFE0000100400 (List.replicate 64 1) .keep .engine (some 5)); comes { regs [] with cores := [(0, unit 0 []), (1, k 0)] } b = true)
      ∧ (let q := packet 0 (.core 1) (.retained 1 [0]) (.applying [] 0x45 [.applied 4 0 0]); comes { regs [] with cores := [(0, unit 0 []), (1, k 0)] } q = true
          ∧ ElemResult.isApplied (.applied 4 0 0) = true ∧ (0x45 : Nat).testBit 6 = true ∧ 0x45 % 64 = 5)
      ∧ (let q := packet 0 (.core 1) (.retained 1 [0]) (.applying [] 0 [.naked 0x05 false 0x7FFFFE0000100100]); comes (regs []) q = true ∧ (0 : Nat).testBit 6 = false) := by
  decide +kernel

/-- A translation that is cached, where the walk finds the same leaf: whether the station still holds it or not does not matter (log 34). -/
theorem translate_cached {s : State} {st asid x : Nat} {w : Bool} {t : Tlb} {pa sc lv : Nat} {e : Dword}
    (h3 : s.mem.tlb.find? (fun t => t.hits st asid x) = some t) (h4 : checkLeaf s.mem asid x w t.level t.leaf = .ok pa sc lv e)
    (h5 : s.mem.walk asid x w = .ok pa sc lv e) :
    Sys2Proof.Machine.translate s st asid x w false = (.ok pa sc lv e, { s.draw with mem := s.mem.claim (asidTenant asid) pa }) := by
  unfold Sys2Proof.Machine.translate Sys2Proof.Machine.lookup
  rw [h3]
  simp only [h4, h5, ite_self]
  rfl

/-- A part that is translated goes before the rest. -/
theorem mapParts_ok {q : Access} {p : Nat × Nat} {l : List (Nat × Nat)} {s s' : State} {acc : List Mapped} {x pa sc lv : Nat} {e : Dword}
    (h1 : nbits (q.va + BitVec.ofNat 64 p.1).toNat 55 0 = x) (h2 : q.whole = true)
    (h3 : Sys2Proof.Machine.translate s (q.station x) q.asid x q.write false = (.ok pa sc lv e, s')) :
    mapParts q false (p :: l) s acc = mapParts q false l s' (acc ++ [⟨p.1, p.2, pa, sc, x / 65536, lv, e⟩]) := by
  rw [mapParts]
  simp only [h1, h2, h3, Bool.not_true, Bool.false_and, Bool.false_eq_true, if_false]

theorem witness_StationsServeRequests_pages : ∃ s2 ms, mapRange (paged (regs [])) 0 0x500 0x800000000000FF80 true true (pageParts 0x800000000000FF80 256) = (s2, .ok ms)
    ∧ s2.net = [] ∧ ms.map Mapped.pa = [0x4000FF80, 0x40010000] := by
  have h1 : pageParts 0x800000000000FF80 256 = [(0, 128), (128, 128)] := by decide +kernel
  have h2 : Sys2Proof.Machine.translate (paged (regs [])) 0 0x500 0xFF80 true false
      = (.ok 0x4000FF80 0 2 0xE00D000040000000, (Sys2Proof.Machine.translate (paged (regs [])) 0 0x500 0xFF80 true false).2) := by decide +kernel
  have h3 := translate_cached (s := (Sys2Proof.Machine.translate (paged (regs [])) 0 0x500 0xFF80 true false).2) (st := 0) (asid := 0x500) (x := 0x10000) (w := true)
    (t := ⟨0, 0x500, 2, 0, 0xE00D000040000000⟩) (pa := 0x40010000) (sc := 0) (lv := 2) (e := 0xE00D000040000000)
    (by decide +kernel) (by decide +kernel) (by decide +kernel)
  refine ⟨{ (Sys2Proof.Machine.translate (paged (regs [])) 0 0x500 0xFF80 true false).2.draw with mem := (Sys2Proof.Machine.translate (paged (regs [])) 0 0x500 0xFF80 true false).2.mem.claim (asidTenant 0x500) 0x40010000 },
    [⟨0, 128, 0x4000FF80, 0, 0, 2, 0xE00D000040000000⟩, ⟨128, 128, 0x40010000, 0, 1, 2, 0xE00D000040000000⟩], ?_, by decide +kernel, rfl⟩
  unfold mapRange mapAccess
  rw [h1, mapParts_ok (x := 0xFF80) (by decide +kernel) rfl h2, mapParts_ok (x := 0x10000) (by decide +kernel) rfl h3]
  simp only [mapParts]
  rfl

/-- An access to two pages of one station: as it comes, at its first block and at its last, with a block in error before; the release of a held part. -/
theorem witness_StationsServeRequests_partway :
    let here (b : Body) : Packet := packet 0 (.station (stationOf 0xFF80)) (.retained 1 [0]) b; let x (n : Nat) : BlockPart := ⟨0x4000FF80 + 64 * n, 0x800000000000FF80 + BitVec.ofNat 64 (64 * n), 64, List.replicate 64 7⟩
    spans 0x800000000000FF80 256 = true ∧ spans 0x800000000000FF00 256 = false
      ∧ [here (.partway true [x 0, x 1] [] [] none), here (.partway true [x 1] [] [] none), here (.partway true [x 1] [] [] (some 0x800000000000FF80)), here (.partway false [x 1] [] [] none),
          here (.block 0x800000000000FF80 (List.replicate 256 7) .keep .vst none), here (.load 0x800000000000FF80 256 false)].all (comes (paged (regs []))) = true
      ∧ (let h : HeldPart := ⟨3, packet 0 (.station 3) (.retained 1 [0]) (.heldWrite 0x800000000000FF80 (List.replicate 128 7)), 0x4000FF80, [], 1, 0⟩
         let s := { paged (regs []) with mem := { (paged (regs [])).mem with heldParts := [h] } }; let p := packet 0 (.station 3) (.retained 1 [0]) (.release true)
         comes s p = true ∧ s.mem.heldPart 3 p.src p.tag = some h ∧ (List.replicate 128 7 : List Byte) ≠ [] ∧ (List.replicate 128 7 : List Byte).length ≤ 256) := by decide +kernel

/-- Part 0 of two that have asked: the other is out, and is answered. -/
theorem witness_AnswersTakeEffect_parts :
    let y (st : PartState) : ReqPart := ⟨.core 1, 0x7FFFFE0000101080, 128, 128, st⟩
    let q (st : PartState) : Request := ⟨7, 0, 0, .vload 3, [⟨.core 1, 0x7FFFFE0000101000, 128, 0, .sent⟩, y st], 0x7FFFFE0000101000, none, false, false⟩
    let p := packet 1 (.core 0) (.request 7 0) (.reply (List.replicate 128 1) 0); let s (st : PartState) := pair { unit 0 [] with ni := { Ni.reset with reqs := [q st] } }
    comes (s .sent) p = true ∧ (s .sent).here.ni.reqs = [q .sent] ∧ (s .sent).here.runs 0 0 = true ∧ (y .sent).st.final = false ∧ (y (.got (List.replicate 128 2) 0)).st.final = true := by
  decide +kernel

/-- A load that is refused, and one whose page is not mapped; the read end of a command that is refused. -/
theorem witness_AnswersTakeEffect_naks :
    (let q : Request := ⟨7, 0, 0, .load 3 4 true, [⟨.station 3, 0x8000000000090000, 4, 0, .sent⟩], 0x8000000000090000, none, false, false⟩
     let s := pair { unit 0 [] with ni := { Ni.reset with reqs := [q] } }; let nak (c : Nat) : Packet := { packet 1 (.core 0) (.request 7 0) (.nak c false 0x8000000000090000) with src := .station 3 }
     comes s (nak 0x05) = true ∧ comes s (nak 0x07) = true ∧ s.here.ni.reqs = [q] ∧ q.refused = none ∧ q.discard = false ∧ s.here.runs 0 0 = true ∧ s.me.state = .active)
    ∧ (let m := { farCopy with unit := 1, reads := [⟨1, 0x200, 0x7FFFFE0000100200, 64, true⟩] }; let s := pair (withCommand m); let p := packet 1 (.core 0) (.engine 0 1) (.nak 0x05 false 0x7FFFFE0000100200)
       comes s p = true ∧ s.here.command 0 = some m ∧ m.halted = none ∧ m.refusal = none ∧ (m.reads.find? (fun r => r.sent && decide (r.unit = 1))).isSome = true) := by decide +kernel

/-- A request that is part-way through its station, and a host access that is translated, hold back an invalidation of their page. -/
theorem witness_PagesChange_pending :
    (let p := packet 0 (.station 3) (.retained 1 [0]) (.partway true [⟨0x40090000, 0x8000000000090000, 64, []⟩] [] [(9, 1)] none); let s : State := { State.reset with net := [p] }
     s.net = [p] ∧ p.asid = 0x500 ∧ samePage 0 9 9 = true)
    ∧ (let b : HostBlock := ⟨0x90000, 3, 0x40090000, 0, 64⟩; let a : HostAccess := ⟨⟨0, 0x90000, 64, 0x9000, 0x500⟩, 0x9000, none, 64, some [b], []⟩
       let s := receiving State.reset { session 1 5 [a.window] with waiting := [a] } []
       s.fab.sessions.any (fun x => x.waiting.contains a) = true ∧ samePage 0 9 (b.va / 65536) = true ∧ samePage 0 8 (b.va / 65536) = false)
    ∧ (let q : Request := ⟨7, 0, 0, .load 3 4 true, [⟨.station 3, 0x8000000000090000, 4, 0, .repair none 0x8000000000090000⟩], 0x8000000000090000, none, false, false⟩
       let s := { pair { unit 0 [] with ni := { Ni.reset with reqs := [q] } } with mem := { DevMem.reset with parks := [⟨3, 0x500, 9, 0, [0]⟩] } }
       (s.core 0).asid = 0x500 ∧ (s.core 0).ni.reqs = [q] ∧ q.split = false ∧ s.fw.absent 2 = false) := by decide +kernel

/-- A solicit of slot 9 after one of slot 15 in the core's cycle, after one of slot 9, and after one of an earlier cycle; the entries it calls, with room for their
messages and without. -/
theorem witness_TreesTravel_solicits :
    let e : Entry := { Entry.reset with state := .active, key := 1, rch := 3 }
    let k (n : Nat) : Core := { censusUnit [] [] with cycle := 6, dir := (Core.reset.dir.set 3 e).set 63 e, chans := Vector.replicate 64 { Channel.reset with decl := true, msgs := List.replicate n (0, 0) } }
    let p := treePacket .hub (.core 0) (.solicit 9 1 1 0xFFFF 0x50000)
    { k 0 with solicited := some (15, 6) }.solicited = some (15, (k 0).cycle) ∧ 9 < 15 ∧ { k 0 with solicited := some (9, 6) }.solicited = some (9, (k 0).cycle)
      ∧ { k 0 with solicited := some (15, 5) }.solicited ≠ some (15, (k 0).cycle)
      ∧ comes (placed (k 0) .running) p = true ∧ treeReaches (placed (k 0) .running) p (forGang (.solicit 9 1 1 0xFFFF 0x50000)) = true
      ∧ called (k 0) 9 1 0xFFFF 3 = [3, 63] ∧ (k 6).isMsg 3 = true ∧ ((k 6).chan 3).spill = 0 ∧ ((k 6).chan 3).msgs.length + (called (k 6) 9 1 0xFFFF 3).length ≤ 8
      ∧ ¬ ((k 7).chan 3).msgs.length + (called (k 7) 9 1 0xFFFF 3).length ≤ 8 ∧ (k 6).held = [] := by decide +kernel

/-- A commit, and an abort, in a cycle in which a solicit has come, and in one in which none has. -/
theorem witness_MovesTravel_turns :
    let k : Core := { unit 0 [] with cycle := 6, dir := Core.reset.dir.set 63 { Entry.reset with state := .pending, peer := 1, seen := 0x8001 } }
    { k with solicited := some (0, 6) }.solicited = some (0, k.cycle) ∧ k.solicited = none ∧ (k.entry 63).state = .pending ∧ (k.entry 63).peer = (unit 1 []).page.rank
      ∧ [(packet 1 (.core 0) (.engine 0 2) (.move (.commit 1 63))), (packet 1 (.core 0) (.engine 0 2) (.move (.abort 63)))].all (fun p => comes (pair k) p) = true := by decide +kernel

/-- A restored gang before its release: a slot that stopped, one that CANCEL stopped; one that ends with the last exit while a close of it is under way, one that is
pre-empted then. -/
theorem witness_GangsLaunch_restoring :
    (let g := { gangOf .releasing with clusters := [0], restoring := true }
     let k : Core := { unit 0 [] with matching := false, slots := (Core.reset.slots.set 0 { runner [] with state := .stopped }).set 3 { runner [] with state := .stopped, cancelled := true } }
     let s := { placed k .releasing with hub := { (placed k .releasing).hub with gangs := [g] } }
     s.gang 1 = some g ∧ g.clusters = 0 :: [] ∧ g.preemptLater = false ∧ g.x0 + g.w ≤ 72 ∧ clusterOf (g.coreOf 0) = 0 ∧ ((s.core 0).slot 0).state = .stopped ∧ ((s.core 0).slot 0).cancelled = false
       ∧ ((s.core 0).slot 3).cancelled = true)
    ∧ (let g := { gangOf .running with live := 1 }; g.live ≤ 1 ∧ g.state = .running ∧ { gangOf .preempting with live := 1 }.state ≠ .running
        ∧ (⟨5, 9, 1, 1, [0]⟩ : Closing).gang = g.id ∧ (gangOf .preempting).leaving = false) := by decide +kernel

/-- A rectangle past the part's edge and one over another tenant's, of a tenant that is not there. -/
theorem witness_TenantsAndSessions_rectangles :
    (let i h := Instr.tenantset h 255 70 0 3 64 1 true 0; ∃ t, FromOperator (operating State.reset 0x01 i) (i (cmdOf 0 0x01 i)) (cmdOf 0 0x01 i) 0x01 t)
    ∧ (let i h := Instr.tenantset h 255 1 0 2 1 1 true 0; let s := operating (placed (unit 0 []) .running) 0x01 i
       (∃ t, FromOperator s (i (cmdOf 0 0x01 i)) (cmdOf 0 0x01 i) 0x01 t) ∧ s.tenant 255 = none ∧ s.fw.absent 6 = false
         ∧ s.hub.tenants.any (fun t => decide (t.id ≠ 255 ∧ 1 < t.x0 + t.w ∧ t.x0 < 1 + 2 ∧ 0 < t.y0 + t.h ∧ t.y0 < 0 + 1)) = true) := by
  exact ⟨from_operator (by decide +kernel), from_operator (by decide +kernel), by decide +kernel⟩

theorem witness_OperatorCommandsAct_tenant : let i h := Instr.attest h 1
    (∃ t, FromTenant (hosted [] 0x40 i) (i (cmdOf 1 0x40 i)) (cmdOf 1 0x40 i) 5 0x40 t) ∧ (hosted [] 0x40 i).tenant 5 = some (tenantOf [inPool .running (some 1)]) :=
  ⟨from_tenant (by decide +kernel), by decide +kernel⟩

/-- A HANDED while its QUIESCE is unread, and one that finds the mailbox full; its word. -/
theorem witness_FirmwareActs_handed :
    (let s := handing .quiescing [0xF000000000000000] [] false; s.fw.box 7 3 ≠ [] ∧ (s.fw.box 7 3).length < 16 ∧ (s.fw.box 3 7).length < 16 ∧ s.watched = true ∧ s.fw.stagedImg = some driver
      ∧ 3 ∉ s.fw.stopped ∧ 3 ∉ s.fw.failedFns)
    ∧ (let s := handing .quiescing [0xF000000000000000] [] false; let w := s.fw.setBox 3 7 (List.replicate 16 0); { s with fw := w }.watched = true ∧ 16 ≤ (w.box 3 w.runner).length)
    ∧ wordType 0xF100000000000000 = 0xF1 := by decide +kernel

/-- A packet for the first core number that is none; one with the first reserved ROUTE, whose NAK waits behind its flow, and whose NAK leaves. -/
theorem witness_FabricActs_refusals :
    (let p : FabPacket := ⟨0, 9, 7, packet 0 (.foreign 7 4608) (.request 0 0) (.load 0x100 8 false)⟩
     p.ddev = (device port).fab.device ∧ p.route < 9 ∧ devPoint p.ddev ≤ 1056 ∧ p.packet.src = .core 0 ∧ p.packet.dst = .foreign 7 4608 ∧ (4608 : Nat) ≤ 4608
       ∧ { port with rxBytes := fabricBytes p }.rxBytes = fabricBytes p)
    ∧ (let s := { device port with fab := { (device port).fab with flows := [⟨5, 9, 0, [⟨0, .request 0 0, 1⟩], [], some 1, 1⟩] } }
       9 ≤ (transit 7 9).route ∧ (transit 7 9).sdev ≠ s.fab.device ∧ (transit 7 9).packet.src = .core 0 ∧ (s.fab.flow 5 9).next.isSome = true)
    ∧ (let s := device port; let fl := s.fab.flow 5 9; (transit 7 9).packet.tenant = 5 ∧ fl.next = none ∧ fl.held = [] ∧ fl.route = 0 ∧ fl.unacked = 0 ∧ devPod 9 = devPod s.fab.device
       ∧ routeValid (s.fab.entry (devPoint 9)) = true ∧ routePort (s.fab.entry (devPoint 9)) = 1 ∧ (s.fab.link (.port 1)).any (fun k => k.present && k.up) = true) := by
  refine ⟨⟨by decide, by decide, by decide +kernel, rfl, rfl, by decide, rfl⟩, by decide +kernel, by decide +kernel⟩

theorem witness_FabricActs_none : let p : FabPacket := ⟨0, 9, 7, packet 0 (.foreign 7 4608) (.request 0 0) (.load 0x100 8 false)⟩; (fabricBytes p).take (fabricLen p) = fabricBytes p :=
  received_fabric (a := 0x100) (n := 8) (e := false) rfl

end Sys2Proof.Tests
end

section
/-! Vector reductions (R95, R149): VREDSUM.F and VREDMAX.F. The facts about the issuing slot, about a retiring instruction and about
the order of FP32 words stand before them, for every instruction that needs them. -/

namespace Sys2Proof.Proofs

open Sys2Proof.Machine Sys2Proof.Claims

/-! What a change of the issuing slot leaves unchanged -/

theorem sameBeyondCore_modMe (s : State) (f : Slot → Slot) : SameBeyondCore s (s.modMe f) :=
  ⟨rfl, rfl, rfl, rfl, rfl, rfl, rfl, rfl, rfl, fun _ h => core_modMe_other s f h⟩

theorem sameBeyondSlot_modMe (s : State) (f : Slot → Slot) : SameBeyondSlot s (s.modMe f) := by
  refine ⟨sameBeyondCore_modMe s f, fun j hj => ?_, ?_⟩
  · rw [here_modMe]
    exact slot_modSlot_other s.here f hj
  · rw [here_modMe]
    rfl

/-- What is read of every core alike is kept where changing a slot keeps it. -/
theorem core_modMe_keeps {α : Sort*} (g : Core → α) (hg : ∀ k i f, g (Core.modSlot k i f) = g k) (s : State) (f : Slot → Slot) (c : Nat) :
    g ((s.modMe f).core c) = g (s.core c) := by
  by_cases h : c = s.issuer.1
  · subst h
    exact (congrArg g (here_modMe s f)).trans (hg s.here s.issuer.2 f)
  · rw [core_modMe_other s f h]

theorem sameMemory_modMe (s : State) (f : Slot → Slot) : SameMemory s (s.modMe f) :=
  ⟨fun c a => core_modMe_keeps (fun k => readByte k.ls a) (fun _ _ _ => rfl) s f c,
    fun c a => core_modMe_keeps (fun k => readByte k.acc a) (fun _ _ _ => rfl) s f c,
    fun c a => core_modMe_keeps (fun k => k.header a) (fun _ _ _ => rfl) s f c,
    fun _ => rfl, fun _ => rfl⟩

/-- A write to a general register alters no other part of the slot. -/
theorem setReg_keeps (x : Slot) (d : BitVec 5) (v p : Dword) : { x.setReg d v with g := x.g, pc := p } = { x with pc := p } := by
  unfold Slot.setReg
  split <;> rfl

/-- An instruction that issues by retiring with `v` completes with `v` in g `d`. -/
theorem givesG_of_retire {i : Instr} {s : State} {d : BitVec 5} {v : State → Dword}
    (h : exec i s = issue i s (fun s => s.retire d (v s))) : GivesG i s d (v s) := by
  intro ready
  refine ⟨s.retire d (v s), h.trans (issue_ready _ ready), fun r => ?_, ?_, ?_, sameBeyondSlot_modMe s _, sameMemory_modMe s _⟩
  · show (s.retire d (v s)).me.reg r = _
    rw [me_retire]
    exact reg_setReg s.me d r (v s)
  · show (s.retire d (v s)).me.pc = _
    rw [me_retire]
    rfl
  · rw [me_retire]
    exact setReg_keeps s.me d (v s) s.me.pc

/-! The pairwise tree (R95) -/

/-- Node k of level n of the tree over the lanes of `v`, the inactive ones +0. -/
def treeNode (m : Dword) (v : VReg) : Nat → Nat → Word
  | 0, k => if m.getLsbD k then lane v k else 0
  | n + 1, k => fadd .nearestEven (treeNode m v n (2 * k)) (treeNode m v n (2 * k + 1))

/-- One level of the tree halves its nodes. -/
theorem pairSum_map_range (f : Nat → Word) (n : Nat) :
    pairSum ((List.range (2 * n)).map f) = (List.range n).map (fun k => fadd .nearestEven (f (2 * k)) (f (2 * k + 1))) := by
  induction n generalizing f with
  | zero => rfl
  | succ n ih =>
    have two : List.range (2 * (n + 1)) = 0 :: 1 :: (List.range (2 * n)).map (· + 2) := by
      rw [show 2 * (n + 1) = 2 * n + 1 + 1 by omega, List.range_succ_eq_map, List.range_succ_eq_map]
      simp
    rw [two, List.range_succ_eq_map]
    simp only [List.map_cons, List.map_map, pairSum]
    exact congrArg _ (ih (f ∘ (· + 2)))

theorem pairSum_treeNode (m : Dword) (v : VReg) (n w : Nat) :
    pairSum ((List.range (2 * w)).map (treeNode m v n)) = (List.range w).map (treeNode m v (n + 1)) :=
  pairSum_map_range (treeNode m v n) w

/-- VREDSUM.F's sum is the root of the tree. -/
theorem sumTree_eq_treeNode (m : Dword) (v : VReg) : sumTree m v = treeNode m v 6 0 := by
  show (pairSum (pairSum (pairSum (pairSum (pairSum (pairSum ((List.range (2 * 32)).map (treeNode m v 0)))))))).headD 0 = _
  rw [pairSum_treeNode m v 0 32, pairSum_treeNode m v 1 16, pairSum_treeNode m v 2 8, pairSum_treeNode m v 3 4, pairSum_treeNode m v 4 2,
    pairSum_treeNode m v 5 1]
  rfl

/-! Magnitudes of a binary format on one grid -/

/-- The magnitude of a code, sign apart, in units of the subnormal spacing. -/
def gridMag (f : FloatFmt) (c : Nat) : Nat :=
  if c / 2 ^ f.mbits = 0 then c % 2 ^ f.mbits else (2 ^ f.mbits + c % 2 ^ f.mbits) * 2 ^ (c / 2 ^ f.mbits - 1)

/-- The next code has the greater magnitude: within a binade it is one spacing on, and from a binade's last code to the next binade's
first the significand 2M − 1 becomes M on twice the spacing. -/
theorem gridMag_lt_succ (f : FloatFmt) (c : Nat) : gridMag f c < gridMag f (c + 1) := by
  unfold gridMag
  have hM : 0 < 2 ^ f.mbits := by positivity
  generalize 2 ^ f.mbits = M at hM ⊢
  have hr : c % M < M := Nat.mod_lt c hM
  have hc : M * (c / M) + c % M = c := Nat.div_add_mod c M
  generalize c / M = e at hc ⊢
  generalize c % M = r at hc hr ⊢
  subst hc
  by_cases hlast : r + 1 = M
  · have hnext : M * e + r + 1 = M * (e + 1) := by rw [Nat.mul_succ]; omega
    rw [hnext, Nat.mul_div_cancel_left _ hM, Nat.mul_mod_right, if_neg e.succ_ne_zero]
    rcases e with _ | e
    · simpa using hr
    · have := Nat.mul_lt_mul_of_pos_right (show M + r < M * 2 by omega) (Nat.two_pow_pos e)
      simpa [pow_succ, Nat.mul_assoc, Nat.mul_comm] using this
  · have hdiv : (M * e + r + 1) / M = e := by
      rw [Nat.add_assoc, Nat.mul_add_div hM, Nat.div_eq_of_lt (by omega), Nat.add_zero]
    have hmod : (M * e + r + 1) % M = r + 1 := by rw [Nat.add_assoc, Nat.mul_add_mod, Nat.mod_eq_of_lt (by omega)]
    rw [hdiv, hmod]
    split
    · omega
    · exact Nat.mul_lt_mul_of_pos_right (by omega) (Nat.two_pow_pos _)

theorem gridMag_strictMono (f : FloatFmt) : StrictMono (gridMag f) := strictMono_nat_of_lt_succ (gridMag_lt_succ f)

theorem fixMant_shift (neg : Bool) (m : Nat) {e q p : Int} (hq : q ≤ e) (hp : p ≤ q) :
    fixMant neg m e p = fixMant neg m e q * 2 ^ (q - p).toNat := by
  have h : (e - p).toNat = (e - q).toNat + (q - p).toNat := by omega
  cases neg <;> simp [fixMant, h, pow_add, mul_assoc]

/-- Two finite values compare as their mantissas on any common grid. -/
theorem lt_fin (s t : Bool) (m n : Nat) {e f p : Int} (he : p ≤ e) (hf : p ≤ f) :
    (Fp.fin s m e).lt (.fin t n f) = decide (fixMant s m e p < fixMant t n f p) := by
  have hp : p ≤ min e f := le_min he hf
  rw [fixMant_shift s m (min_le_left e f) hp, fixMant_shift t n (min_le_right e f) hp]
  simp only [Fp.lt, mul_lt_mul_iff_left₀ (show (0 : Int) < 2 ^ (min e f - p).toNat by positivity)]

/-- The value of a signed code in units of the subnormal spacing; an infinity counts as the step after the last finite value. -/
def gridValue (f : FloatFmt) (neg : Bool) (c : Nat) : Int := if neg then -(gridMag f c : Int) else gridMag f c

/-- A finite code stands for its grid value. -/
theorem finite_eq_fin (f : FloatFmt) (neg : Bool) (c : Nat) :
    ∃ m e, f.finite neg c = .fin neg m e ∧ f.qmin ≤ e ∧ fixMant neg m e f.qmin = gridValue f neg c := by
  unfold FloatFmt.finite gridValue gridMag
  dsimp only
  split
  · exact ⟨_, _, rfl, le_rfl, by simp [fixMant]⟩
  · exact ⟨_, _, rfl, by omega, by simp [fixMant]⟩

theorem lt_finite (f : FloatFmt) (s t : Bool) (c d : Nat) :
    (f.finite s c).lt (f.finite t d) = decide (gridValue f s c < gridValue f t d) := by
  obtain ⟨m, e, hc, he, hm⟩ := finite_eq_fin f s c
  obtain ⟨n, e', hd, he', hn⟩ := finite_eq_fin f t d
  rw [hc, hd, lt_fin s t m n he he', hm, hn]

/-- What a sign and a code stand for: the finite values, then the infinity, then the NaNs (R78). -/
def codeValue (f : FloatFmt) (neg : Bool) (c : Nat) : Fp :=
  if c < f.infCode then f.finite neg c else if c = f.infCode then .inf neg else .nan

theorem codeValue_lt {f : FloatFmt} (neg : Bool) {c : Nat} (h : c < f.infCode) : codeValue f neg c = f.finite neg c := if_pos h

theorem codeValue_infCode (f : FloatFmt) (neg : Bool) : codeValue f neg f.infCode = .inf neg := by simp [codeValue]

theorem codeValue_gt {f : FloatFmt} (neg : Bool) {c : Nat} (h : f.infCode < c) : codeValue f neg c = .nan := by
  rw [codeValue, if_neg (by omega), if_neg (by omega)]

theorem isNan_codeValue (f : FloatFmt) (neg : Bool) (c : Nat) : (codeValue f neg c).isNan = true ↔ f.infCode < c := by
  rcases lt_trichotomy c f.infCode with h | rfl | h
  · obtain ⟨m, e, hc, -, -⟩ := finite_eq_fin f neg c
    simp [codeValue_lt neg h, hc, Fp.isNan, Nat.le_of_lt h]
  · simp [codeValue_infCode, Fp.isNan]
  · simp [codeValue_gt neg h, Fp.isNan, h]

theorem sign_codeValue {f : FloatFmt} (neg : Bool) {c : Nat} (h : c ≤ f.infCode) : (codeValue f neg c).sign = neg := by
  rcases Nat.lt_or_eq_of_le h with h | rfl
  · obtain ⟨m, e, hc, -, -⟩ := finite_eq_fin f neg c
    rw [codeValue_lt neg h, hc, Fp.sign]
  · rw [codeValue_infCode, Fp.sign]

/-- A code of greater magnitude lies above the other where it is positive, below it where it is negative. -/
theorem gridValue_lt_iff {f : FloatFmt} (s t : Bool) {c d : Nat} (h : c < d) :
    (gridValue f s c < gridValue f t d ↔ t = false) ∧ (gridValue f t d < gridValue f s c ↔ t = true) := by
  have mag := gridMag_strictMono f h
  have bounds : -(gridMag f c : Int) ≤ gridValue f s c ∧ gridValue f s c ≤ gridMag f c := by
    unfold gridValue
    split <;> omega
  cases t with
  | false => simp only [show gridValue f false d = gridMag f d from rfl, iff_true, Bool.false_eq_true, iff_false]; omega
  | true => simp only [show gridValue f true d = -(gridMag f d : Int) from rfl, iff_true, Bool.true_eq_false, iff_false]; omega

theorem lt_codeValue {f : FloatFmt} (hf : 0 < f.infCode) (s t : Bool) {c d : Nat} (hc : c ≤ f.infCode) (hd : d ≤ f.infCode) :
    (codeValue f s c).lt (codeValue f t d) = decide (gridValue f s c < gridValue f t d) := by
  rcases Nat.lt_or_eq_of_le hc with hc | rfl <;> rcases Nat.lt_or_eq_of_le hd with hd | rfl
  · rw [codeValue_lt s hc, codeValue_lt t hd, lt_finite]
  · obtain ⟨m, e, hv, -, -⟩ := finite_eq_fin f s c
    rw [codeValue_lt s hc, codeValue_infCode, hv, decide_eq_decide.mpr (gridValue_lt_iff s t hc).1]
    cases t <;> rfl
  · obtain ⟨m, e, hv, -, -⟩ := finite_eq_fin f t d
    rw [codeValue_lt t hd, codeValue_infCode, hv, decide_eq_decide.mpr (gridValue_lt_iff t s hd).2]
    cases s <;> rfl
  · have top : 0 < gridMag f f.infCode := Nat.zero_lt_of_lt (gridMag_strictMono f hf)
    rw [codeValue_infCode, codeValue_infCode]
    cases s <;> cases t <;> simp [Fp.lt, gridValue, top]

/-! FP32 words in the order of their keys (R145) -/

/-- The code of a word, its sign apart. -/
def magCode (x : Word) : Nat := (x.extractLsb' 0 31).toNat

theorem magCode_eq (x : Word) : magCode x = x.toNat % 2 ^ 31 := by simp [magCode]

theorem sign_eq (x : Word) : x.getLsbD 31 = decide (2 ^ 31 ≤ x.toNat) := BitVec.msb_eq_decide x

theorem orderKey_eq (x : Word) : orderKey x = if x.getLsbD 31 then -(magCode x : Int) - 1 else magCode x := rfl

theorem orderKey_injective {x y : Word} (h : orderKey x = orderKey y) : x = y := by
  simp only [orderKey_eq, sign_eq, magCode_eq, decide_eq_true_eq] at h
  apply BitVec.eq_of_toNat_eq
  have := x.isLt
  have := y.isLt
  split at h <;> split at h <;> omega

theorem nanLane_iff (x : Word) : nanLane x ↔ fp32.infCode < magCode x := by
  have inf : fp32.infCode = 0x7F800000 := by decide
  have := x.isLt
  rw [inf, magCode_eq]
  simp only [nanLane, ne_eq, ← BitVec.toNat_inj, BitVec.extractLsb'_toNat, BitVec.toNat_ofNat, Nat.shiftRight_eq_div_pow]
  omega

theorem ofFp32_eq (x : Word) : ofFp32 x = codeValue fp32 (x.getLsbD 31) (magCode x) := by
  have sign : fp32.signBit = 2 ^ 31 := by decide
  rw [sign_eq, magCode_eq, ofFp32, FloatFmt.value, sign, Nat.mod_eq_of_lt (show x.toNat < 2 * 2 ^ 31 from x.isLt)]
  rfl

theorem isNan_ofFp32 (x : Word) : (ofFp32 x).isNan = true ↔ nanLane x := by
  rw [ofFp32_eq, isNan_codeValue, nanLane_iff]

theorem magCode_le {x : Word} (h : ¬ nanLane x) : magCode x ≤ fp32.infCode := by
  rwa [nanLane_iff, Nat.not_lt] at h

theorem sign_ofFp32 {x : Word} (h : ¬ nanLane x) : (ofFp32 x).sign = x.getLsbD 31 := by
  rw [ofFp32_eq, sign_codeValue _ (magCode_le h)]

/-- Two words that are no NaN compare as their keys, but that −0 is not less than +0. -/
theorem lt_ofFp32_iff {x y : Word} (hx : ¬ nanLane x) (hy : ¬ nanLane y) :
    (ofFp32 x).lt (ofFp32 y) = true ↔ orderKey x < orderKey y ∧ ¬ (orderKey x = -1 ∧ orderKey y = 0) := by
  have zero : gridMag fp32 0 = 0 := by decide
  have mono (c d : Nat) : gridMag fp32 c < gridMag fp32 d ↔ c < d := (gridMag_strictMono fp32).lt_iff_lt
  have h0x := mono 0 (magCode x)
  have h0y := mono 0 (magCode y)
  have hxy := mono (magCode x) (magCode y)
  have hyx := mono (magCode y) (magCode x)
  rw [ofFp32_eq, ofFp32_eq, lt_codeValue (by decide) _ _ (magCode_le hx) (magCode_le hy), decide_eq_true_eq, orderKey_eq, orderKey_eq]
  unfold gridValue
  split <;> split <;> omega

theorem orderKey_neg_iff (x : Word) : orderKey x < 0 ↔ x.getLsbD 31 = true := by
  rw [orderKey_eq]
  split
  next neg => simp only [neg, iff_true]; omega
  next pos => simp only [pos, Bool.false_eq_true, iff_false]; omega

/-! The larger of two words and of a list of them (R145, R149) -/

theorem not_nanLane_infWord : ¬ nanLane (infWord true) := by
  rw [nanLane_iff]
  decide

theorem fmax_of_nan {x y : Word} (h : nanLane x ∨ nanLane y) : fmax x y = nanWord :=
  if_pos (by rwa [Bool.or_eq_true, isNan_ofFp32, isNan_ofFp32])

/-- The larger of two words that are no NaN is the one of the larger key. -/
theorem fmax_eq_of_orderKey {x y : Word} (hx : ¬ nanLane x) (hy : ¬ nanLane y) :
    fmax x y = if orderKey x ≤ orderKey y then y else x := by
  have hnan : ¬ ((ofFp32 x).isNan || (ofFp32 y).isNan) = true := by
    rw [Bool.or_eq_true, isNan_ofFp32, isNan_ofFp32]
    exact not_or.mpr ⟨hx, hy⟩
  unfold fmax
  simp only [if_neg hnan, lt_ofFp32_iff hx hy, lt_ofFp32_iff hy hx, sign_ofFp32 hx, ← orderKey_neg_iff]
  rcases lt_trichotomy (orderKey x) (orderKey y) with below | same | above
  · rw [if_pos below.le]
    by_cases zeros : orderKey x = -1 ∧ orderKey y = 0
    · simp [zeros]
    · simp only [below, zeros, not_false_eq_true, and_self, if_true]
  · simp [orderKey_injective same]
  · rw [if_neg above.not_ge]
    by_cases zeros : orderKey y = -1 ∧ orderKey x = 0
    · simp [zeros]
    · simp only [above, above.not_gt, zeros, not_false_eq_true, and_self, false_and, if_true, if_false]

theorem foldl_fmax_nanWord (l : List Word) : l.foldl fmax nanWord = nanWord := by
  have nan : nanLane nanWord := (nanLane_iff _).mpr (by decide)
  induction l with
  | nil => rfl
  | cons y l ih => rw [List.foldl_cons, fmax_of_nan (.inl nan), ih]

/-- A NaN among the words makes their maximum the canonical NaN. -/
theorem foldl_fmax_of_nan {l : List Word} (acc : Word) {y : Word} (hy : y ∈ l) (nan : nanLane y) : l.foldl fmax acc = nanWord := by
  obtain ⟨l₁, l₂, rfl⟩ := List.append_of_mem hy
  rw [List.foldl_append, List.foldl_cons, fmax_of_nan (.inr nan), foldl_fmax_nanWord]

/-- Without a NaN the maximum is one of the words, of the greatest key. -/
theorem foldl_fmax_greatest {l : List Word} (acc : Word) (h : ∀ y ∈ acc :: l, ¬ nanLane y) :
    l.foldl fmax acc ∈ acc :: l ∧ ∀ y ∈ acc :: l, orderKey y ≤ orderKey (l.foldl fmax acc) := by
  induction l generalizing acc with
  | nil => simp
  | cons z l ih =>
    obtain ⟨hacc, hz, hl⟩ : ¬ nanLane acc ∧ ¬ nanLane z ∧ ∀ y ∈ l, ¬ nanLane y := by simpa using h
    rw [List.foldl_cons, fmax_eq_of_orderKey hacc hz]
    split
    case isTrue le =>
      obtain ⟨mem, ge⟩ := ih z (List.forall_mem_cons.mpr ⟨hz, hl⟩)
      exact ⟨List.mem_cons_of_mem _ mem, List.forall_mem_cons.mpr ⟨le.trans (ge z List.mem_cons_self), ge⟩⟩
    case isFalse gt =>
      obtain ⟨mem, ge⟩ := ih acc (List.forall_mem_cons.mpr ⟨hacc, hl⟩)
      obtain ⟨geAcc, geTail⟩ := List.forall_mem_cons.mp ge
      refine ⟨?_, List.forall_mem_cons.mpr ⟨geAcc, List.forall_mem_cons.mpr ⟨(Int.le_of_not_le gt).trans geAcc, geTail⟩⟩⟩
      exact List.cons_subset_cons acc (List.subset_cons_self z l) mem

/-- The active lanes of a vector register. -/
def activeLanes (m : Dword) (v : VReg) : List Word := ((List.range 64).filter (fun i => m.getLsbD i)).map (lane v)

theorem mem_activeLanes {m : Dword} {v : VReg} {x : Word} : x ∈ activeLanes m v ↔ ∃ k, k < 64 ∧ m.getLsbD k = true ∧ x = lane v k := by
  simp only [activeLanes, List.mem_map, List.mem_filter, List.mem_range, and_assoc, eq_comm]

theorem maxLanes_eq_foldl (m : Dword) (v : VReg) : maxLanes m v = (activeLanes m v).foldl fmax (infWord true) :=
  List.foldl_map.symm

/-- −∞ has the least key of the words that are no NaN. -/
theorem orderKey_infWord_le {x : Word} (h : ¬ nanLane x) : orderKey (infWord true) ≤ orderKey x := by
  have key : orderKey (infWord true) = -(fp32.infCode : Int) - 1 := by decide
  have := magCode_le h
  rw [key, orderKey_eq]
  split <;> omega

theorem maxLanes_of_none {m : Dword} {v : VReg} (h : ∀ k, k < 64 → m.getLsbD k = false) : maxLanes m v = infWord true := by
  have none : activeLanes m v = [] := List.eq_nil_iff_forall_not_mem.mpr fun x hx => by
    obtain ⟨k, hk, hm, -⟩ := mem_activeLanes.mp hx
    exact Bool.false_ne_true ((h k hk).symm.trans hm)
  rw [maxLanes_eq_foldl, none, List.foldl_nil]

theorem maxLanes_of_nan {m : Dword} {v : VReg} {k : Nat} (hk : k < 64) (hm : m.getLsbD k = true) (nan : nanLane (lane v k)) :
    maxLanes m v = nanWord :=
  (maxLanes_eq_foldl m v).trans (foldl_fmax_of_nan _ (mem_activeLanes.mpr ⟨k, hk, hm, rfl⟩) nan)

/-- The −∞ that the maximum starts from is the result only where it is itself an active lane. -/
theorem maxLanes_greatest {m : Dword} {v : VReg} (active : ∃ k, k < 64 ∧ m.getLsbD k = true)
    (h : ∀ k, k < 64 → m.getLsbD k = true → ¬ nanLane (lane v k)) :
    (∃ k, k < 64 ∧ m.getLsbD k = true ∧ maxLanes m v = lane v k)
      ∧ ∀ k, k < 64 → m.getLsbD k = true → orderKey (lane v k) ≤ orderKey (maxLanes m v) := by
  have nums : ∀ y ∈ activeLanes m v, ¬ nanLane y := fun y hy => by
    obtain ⟨k, hk, hm, rfl⟩ := mem_activeLanes.mp hy
    exact h k hk hm
  obtain ⟨mem, ge⟩ := foldl_fmax_greatest (infWord true) (List.forall_mem_cons.mpr ⟨not_nanLane_infWord, nums⟩)
  rw [← maxLanes_eq_foldl] at mem ge
  have bound (k : Nat) (hk : k < 64) (hm : m.getLsbD k = true) : orderKey (lane v k) ≤ orderKey (maxLanes m v) :=
    ge _ (List.mem_cons_of_mem _ (mem_activeLanes.mpr ⟨k, hk, hm, rfl⟩))
  refine ⟨?_, bound⟩
  rcases List.mem_cons.mp mem with start | lanes
  · obtain ⟨k, hk, hm⟩ := active
    exact ⟨k, hk, hm, orderKey_injective ((start ▸ orderKey_infWord_le (h k hk hm)).antisymm (bound k hk hm))⟩
  · exact mem_activeLanes.mp lanes

/-- Settles O15: VREDSUM.F's sum is the root of the tree, VREDMAX.F's maximum the fold of the larger over the active lanes. -/
theorem laneReductionResults : Obligations.LaneReductionResults := by
  unfold Obligations.LaneReductionResults
  intro s d a mr m A
  refine ⟨⟨treeNode m (s.vreg a), fun _ _ => rfl, fun _ _ _ _ => rfl, ?_⟩, ⟨maxLanes m (s.vreg a), maxLanes_of_none, ?_, maxLanes_greatest, ?_⟩⟩
  · rw [← sumTree_eq_treeNode]
    exact givesG_of_retire (v := fun s => zext (sumTree (s.mask mr) (s.vreg a))) (exec_vredsumF d a mr s)
  · rintro ⟨k, hk, hm, nan⟩
    exact maxLanes_of_nan hk hm nan
  · exact givesG_of_retire (v := fun s => zext (maxLanes (s.mask mr) (s.vreg a))) (exec_vredmaxF d a mr s)

end Sys2Proof.Proofs
end

section
/-! Integer instructions (R128 to R132): the register operations, multiplication and division, the immediates and the constants. Each
result of the model is first brought to the form in which the spec gives it. -/

namespace Sys2Proof.Proofs

open Sys2Proof.Machine Sys2Proof.Claims

/-! Completion with a result -/

/-- An instruction of two operands completes with the value of its function. -/
theorem givesG_of_alu {i : Instr} {s : State} {d a b : BitVec 5} {f : Dword → Dword → Dword} {v : Dword}
    (run : exec i s = alu i d a b f s) (value : f (s.reg a) (s.reg b) = v) : GivesG i s d v :=
  value ▸ givesG_of_retire (v := fun s => f (s.reg a) (s.reg b)) run

/-- An instruction of one operand completes with the value of its function. -/
theorem givesG_of_alu1 {i : Instr} {s : State} {d a : BitVec 5} {f : Dword → Dword} {v : Dword}
    (run : exec i s = alu1 i d a f s) (value : f (s.reg a) = v) : GivesG i s d v :=
  value ▸ givesG_of_retire (v := fun s => f (s.reg a)) run

/-! Shifts, comparisons, and the smaller and the larger (R128) -/

/-- A field of a bit vector is the number of its bits. -/
theorem field_eq_toNat {w : Nat} (x : BitVec w) (hi lo : Nat) : field x hi lo = (x.extractLsb' lo (hi + 1 - lo)).toNat :=
  (BitVec.extractLsb'_toNat lo (hi + 1 - lo) x).symm

theorem shamt_eq_toNat (b : Dword) : shamt b = (b.extractLsb' 0 6).toNat := field_eq_toNat b 5 0

/-- A shift with sign fill divides the signed value, rounding down. -/
theorem sshiftRight_eq_ofInt_div (x : Dword) (n : Nat) : x.sshiftRight n = BitVec.ofInt 64 (x.toInt / 2 ^ n) := by
  rw [BitVec.sshiftRight_eq, Int.shiftRight_eq_div_pow]
  norm_cast

theorem sltOf_eq (x y : Dword) : sltOf x y = if x.toInt < y.toInt then 1 else 0 :=
  if_congr BitVec.slt_iff_toInt_lt rfl rfl

theorem sltuOf_eq (x y : Dword) : sltuOf x y = if x.toNat < y.toNat then 1 else 0 :=
  if_congr BitVec.ult_iff_toNat_lt rfl rfl

theorem minOf_eq (x y : Dword) : minOf x y = BitVec.ofInt 64 (min x.toInt y.toInt) := by
  rw [min_def_lt, apply_ite (BitVec.ofInt 64), BitVec.ofInt_toInt, BitVec.ofInt_toInt]
  exact if_congr BitVec.slt_iff_toInt_lt rfl rfl

theorem maxOf_eq (x y : Dword) : maxOf x y = BitVec.ofInt 64 (max x.toInt y.toInt) := by
  rw [max_comm, max_def_lt, apply_ite (BitVec.ofInt 64), BitVec.ofInt_toInt, BitVec.ofInt_toInt]
  exact if_congr BitVec.slt_iff_toInt_lt rfl rfl

theorem minuOf_eq (x y : Dword) : minuOf x y = BitVec.ofNat 64 (min x.toNat y.toNat) := by
  rw [min_def_lt, apply_ite (BitVec.ofNat 64)]
  simp only [BitVec.ofNat_toNat, BitVec.setWidth_eq]
  exact if_congr BitVec.ult_iff_toNat_lt rfl rfl

theorem maxuOf_eq (x y : Dword) : maxuOf x y = BitVec.ofNat 64 (max x.toNat y.toNat) := by
  rw [max_comm, max_def_lt, apply_ite (BitVec.ofNat 64)]
  simp only [BitVec.ofNat_toNat, BitVec.setWidth_eq]
  exact if_congr BitVec.ult_iff_toNat_lt rfl rfl

theorem aluResults : AluResults := by
  intro s d a b A B
  have amount : shamt B = (B.extractLsb' 0 6).toNat := shamt_eq_toNat B
  exact ⟨givesG_of_alu (exec_add d a b s) rfl, givesG_of_alu (exec_sub d a b s) rfl, givesG_of_alu (exec_and d a b s) rfl,
    givesG_of_alu (exec_or d a b s) rfl, givesG_of_alu (exec_xor d a b s) rfl, givesG_of_alu (exec_andn d a b s) rfl,
    givesG_of_alu (exec_sll d a b s) (congrArg (A <<< ·) amount), givesG_of_alu (exec_srl d a b s) (congrArg (A >>> ·) amount),
    givesG_of_alu (exec_sra d a b s) (amount ▸ sshiftRight_eq_ofInt_div A (shamt B)),
    givesG_of_alu (exec_slt d a b s) (sltOf_eq A B), givesG_of_alu (exec_sltu d a b s) (sltuOf_eq A B),
    givesG_of_alu (exec_min d a b s) (minOf_eq A B), givesG_of_alu (exec_max d a b s) (maxOf_eq A B),
    givesG_of_alu (exec_minu d a b s) (minuOf_eq A B), givesG_of_alu (exec_maxu d a b s) (maxuOf_eq A B),
    givesG_of_alu (exec_sel d a b s) rfl⟩

/-! Immediates and constants (R131, R132) -/

theorem immediateResults : ImmediateResults := by
  intro s d a im sh A I
  exact ⟨givesG_of_alu1 (exec_addi d a im s) rfl, givesG_of_alu1 (exec_andi d a im s) rfl, givesG_of_alu1 (exec_ori d a im s) rfl,
    givesG_of_alu1 (exec_xori d a im s) rfl, givesG_of_alu1 (exec_slti d a im s) (sltOf_eq A I),
    givesG_of_alu1 (exec_sltiu d a im s) (sltuOf_eq A I), givesG_of_alu1 (exec_slli d a sh s) rfl,
    givesG_of_alu1 (exec_srli d a sh s) rfl, givesG_of_alu1 (exec_srai d a sh s) (sshiftRight_eq_ofInt_div A sh.toNat)⟩

theorem constantResults : ConstantResults := fun s d im =>
  ⟨givesG_of_retire (v := fun _ => sext im <<< 16) (exec_lih d im s),
    givesG_of_retire (v := fun s => (s.reg d <<< 21) ||| zext im) (exec_lix d im s),
    givesG_of_retire (v := fun s => s.pc + (sext im <<< 2)) (exec_addpc d im s)⟩

/-- Settles O3: the register operations, the immediate forms and the constants, each by the equation of its result. -/
theorem integerResults : Obligations.IntegerResults := ⟨aluResults, immediateResults, constantResults⟩

/-! Multiplication and division (R130) -/

theorem mulhOf_eq (x y : Dword) : mulhOf x y = (x.signExtend 128 * y.signExtend 128).extractLsb' 64 64 := by
  have product : x.signExtend 128 * y.signExtend 128 = BitVec.ofInt 128 (x.toInt * y.toInt) := by
    rw [BitVec.ofInt_mul]
    rfl
  rw [product, mulhOf]
  apply BitVec.eq_of_toNat_eq
  rw [BitVec.extractLsb'_toNat, BitVec.toNat_ofInt, BitVec.toNat_ofInt, Nat.shiftRight_eq_div_pow]
  omega

theorem mulhuOf_eq (x y : Dword) : mulhuOf x y = (x.zeroExtend 128 * y.zeroExtend 128).extractLsb' 64 64 := by
  have product : x.zeroExtend 128 * y.zeroExtend 128 = BitVec.ofNat 128 (x.toNat * y.toNat) := by
    rw [BitVec.ofNat_mul, BitVec.ofNat_toNat, BitVec.ofNat_toNat]
  rw [product, mulhuOf]
  apply BitVec.eq_of_toNat_eq
  rw [BitVec.extractLsb'_toNat, BitVec.toNat_ofNat, BitVec.toNat_ofNat, Nat.shiftRight_eq_div_pow]
  omega

theorem divOf_eq (x y : Dword) : divOf x y = if y = 0 then 0xFFFFFFFFFFFFFFFF#64 else x.sdiv y := by
  have quotient : BitVec.ofInt 64 (x.toInt.tdiv y.toInt) = x.sdiv y := by
    apply BitVec.eq_of_toInt_eq
    rw [BitVec.toInt_ofInt, BitVec.toInt_sdiv]
  rw [divOf, quotient]
  rfl

theorem divuOf_eq (x y : Dword) : divuOf x y = if y = 0 then 0xFFFFFFFFFFFFFFFF#64 else x.udiv y := by
  have quotient : BitVec.ofNat 64 (x.toNat / y.toNat) = x.udiv y := (BitVec.udiv_def).symm
  rw [divuOf, quotient]
  rfl

theorem remOf_eq (x y : Dword) : remOf x y = if y = 0 then x else x.srem y := by
  rw [remOf, ← BitVec.toInt_srem, BitVec.ofInt_toInt]

theorem remuOf_eq (x y : Dword) : remuOf x y = if y = 0 then x else x.umod y := by
  have remainder : BitVec.ofNat 64 (x.toNat % y.toNat) = x.umod y := (BitVec.umod_def).symm
  rw [remuOf, remainder]

/-- Settles O2: each result by its equation; the overflow of −2^63 by −1 is one value of DIV and one of REM. -/
theorem mulDivResults : Obligations.MulDivResults := by
  unfold Obligations.MulDivResults
  intro s d a b A B
  refine ⟨givesG_of_alu (exec_mul d a b s) rfl, givesG_of_alu (exec_mulh d a b s) (mulhOf_eq A B),
    givesG_of_alu (exec_mulhu d a b s) (mulhuOf_eq A B), givesG_of_alu (exec_div d a b s) (divOf_eq A B),
    givesG_of_alu (exec_divu d a b s) (divuOf_eq A B), givesG_of_alu (exec_rem d a b s) (remOf_eq A B),
    givesG_of_alu (exec_remu d a b s) (remuOf_eq A B), fun m n hm hn => ⟨?_, ?_⟩⟩
  · refine givesG_of_alu (exec_div d m n s) ?_
    rw [hm, hn]
    decide
  · refine givesG_of_alu (exec_rem d m n s) ?_
    rw [hm, hn]
    decide

/-! Bits counted (R128) -/

theorem clzOf_counts (x : Dword) :
    ∃ n, n ≤ 64 ∧ (∀ j, j < n → x.getLsbD (63 - j) = false) ∧ (n < 64 → x.getLsbD (63 - n) = true) ∧ clzOf x = BitVec.ofNat 64 n := by
  by_cases zero : x = 0
  · subst zero
    exact ⟨64, le_rfl, by simp, fun h => absurd h (lt_irrefl 64), by decide⟩
  · have pos : x.toNat ≠ 0 := fun h => zero (BitVec.eq_of_toNat_eq h)
    have top : x.toNat.log2 < 64 := (Nat.log2_lt pos).mpr x.isLt
    refine ⟨63 - x.toNat.log2, by omega, fun j hj => ?_, fun _ => ?_, if_neg zero⟩
    · exact Nat.testBit_lt_two_pow ((Nat.log2_lt pos).mp (by omega))
    · rw [show 63 - (63 - x.toNat.log2) = x.toNat.log2 by omega]
      exact Nat.testBit_log2 pos

theorem ctzOf_counts (x : Dword) :
    ∃ n, n ≤ 64 ∧ (∀ j, j < n → x.getLsbD j = false) ∧ (n < 64 → x.getLsbD n = true) ∧ ctzOf x = BitVec.ofNat 64 n := by
  cases found : (List.range 64).find? (fun i => x.getLsbD i) with
  | none =>
    refine ⟨64, le_rfl, fun j hj => ?_, fun h => absurd h (lt_irrefl 64), by rw [ctzOf, found]; rfl⟩
    simpa using List.find?_eq_none.mp found j (List.mem_range.mpr hj)
  | some n =>
    obtain ⟨set, mem, below⟩ := List.find?_range_eq_some.mp found
    exact ⟨n, (List.mem_range.mp mem).le, fun j hj => by simpa using below j hj, fun _ => set, by rw [ctzOf, found]; rfl⟩

theorem popcOf_eq (x : Dword) : popcOf x = BitVec.ofNat 64 ((List.range 64).countP (fun j => x.getLsbD j)) :=
  congrArg _ List.countP_eq_length_filter.symm

theorem bitCountResults : BitCountResults := by
  intro s d a A
  obtain ⟨n, hn, clear, set, leading⟩ := clzOf_counts A
  obtain ⟨m, hm, clear', set', trailing⟩ := ctzOf_counts A
  exact ⟨⟨n, hn, clear, set, givesG_of_alu1 (exec_clz d a s) leading⟩, ⟨m, hm, clear', set', givesG_of_alu1 (exec_ctz d a s) trailing⟩,
    givesG_of_alu1 (exec_popc d a s) (popcOf_eq A)⟩

/-! Bit fields (R129) -/

/-- Sign extension adds the bits above the field where its top bit is set. -/
theorem signExtend_eq_ofNat {len : Nat} (f : BitVec len) :
    f.signExtend 64 = BitVec.ofNat 64 (f.toNat + if f.msb then 2 ^ 64 - 2 ^ len else 0) := by
  apply BitVec.eq_of_toNat_eq
  have small := (f.signExtend 64).isLt
  rw [BitVec.toNat_signExtend, BitVec.toNat_setWidth] at small ⊢
  rw [BitVec.toNat_ofNat, ← Nat.mod_add_mod, Nat.mod_eq_of_lt small]

/-- BFX by the field itself: an empty field has no top bit. -/
theorem bfxOf_eq (x b : Dword) {pos len : Nat} (hpos : field b 5 0 = pos) (hlen : min (field b 14 8) 64 = len) :
    bfxOf x b = if b.getLsbD 15 = true ∧ pos + len ≤ 64 then (x.extractLsb' pos len).signExtend 64
      else (x.extractLsb' pos len).zeroExtend 64 := by
  have value : x.toNat / 2 ^ pos % 2 ^ len = (x.extractLsb' pos len).toNat := by
    rw [BitVec.extractLsb'_toNat, Nat.shiftRight_eq_div_pow]
  simp only [bfxOf, hpos, hlen, value, bit]
  generalize x.extractLsb' pos len = f
  rw [signExtend_eq_ofNat, BitVec.msb_eq_decide]
  rcases Nat.eq_zero_or_pos len with rfl | nonempty
  · simp [BitVec.eq_nil f]
  · rw [if_neg nonempty.ne']
    by_cases signed : b.getLsbD 15 = true ∧ pos + len ≤ 64
    · by_cases top : 2 ^ (len - 1) ≤ f.toNat <;> simp [signed, top]
    · rw [if_neg signed, if_neg fun h => signed ⟨h.1, h.2.1⟩, BitVec.ofNat_toNat]

theorem bitFieldResults : BitFieldResults := by
  intro s d a b A B pos len f M
  have hpos : field B 5 0 = pos := field_eq_toNat B 5 0
  have hlen : min (field B 14 8) 64 = len := congrArg (min · 64) (field_eq_toNat B 14 8)
  refine ⟨givesG_of_alu (exec_bfx d a b s) (bfxOf_eq A B hpos hlen), givesG_of_alu (exec_bfi d a b s) ?_⟩
  show bfiOf (s.reg d) A B = _
  rw [bfiOf, hpos, hlen]

/-- Settles O1: the counts by the bits that are clear and the bit that is set, the fields by their position and length. -/
theorem bitResults : Obligations.BitResults := ⟨bitCountResults, bitFieldResults⟩

end Sys2Proof.Proofs
end

section
/-! Vector registers lane by lane: the integer lane operations (R147), the moves of lanes (R148, R155) and VSEL (R152). How an
instruction completes with a vector register, and what its lanes then hold, stands first. -/

namespace Sys2Proof.Proofs

open Sys2Proof.Machine Sys2Proof.Claims

/-! Completion with a vector register (R143) -/

/-- An instruction that issues by retiring with `v` completes with `v` in v `d`. -/
theorem givesV_of_retireV {i : Instr} {s : State} {d : BitVec 5} {v : State → VReg}
    (run : exec i s = issue i s (fun s => s.retireV d (v s))) : GivesV i s d (v s) := by
  intro ready
  refine ⟨s.retireV d (v s), run.trans (issue_ready _ ready), fun r => ?_, ?_, ?_, sameBeyondSlot_modMe s _, sameMemory_modMe s _⟩
  · show (s.retireV d (v s)).me.vreg r = _
    rw [me_retireV]
    exact vreg_setVreg s.me d r (v s)
  · show (s.retireV d (v s)).me.pc = _
    rw [me_retireV]
    rfl
  · rw [me_retireV]
    rfl

/-- A lane operation writes the active lanes. -/
theorem givesLanes_of_vop {i : Instr} {s : State} {d : BitVec 5} {m : BitVec 3} {g : State → Nat → Word} {f : Nat → Word}
    (run : exec i s = vop i d m g s) (value : ∀ k, g s k = f k) : GivesLanes i s d (s.mask m) f :=
  (funext value : g s = f) ▸ ⟨_, lane_masked _ _ _, givesV_of_retireV (v := fun s => masked (s.mask m) (s.vreg d) (g s)) run⟩

/-- An operation of two operands gives each active lane the value of its function on the operands' lanes. -/
theorem givesLanes_of_vop2 {i : Instr} {s : State} {d a b : BitVec 5} {m : BitVec 3} {g : Word → Word → Word} {f : Nat → Word}
    (run : exec i s = vop2 i d a b m g s) (value : ∀ k, g (lane (s.vreg a) k) (lane (s.vreg b) k) = f k) :
    GivesLanes i s d (s.mask m) f :=
  givesLanes_of_vop run value

/-- An instruction that retires with a whole register writes every lane. -/
theorem givesLanes_of_retireV {i : Instr} {s : State} {d : BitVec 5} {v : State → VReg} {f : Nat → Word}
    (run : exec i s = issue i s (fun s => s.retireV d (v s))) (lanes : ∀ k, k < 64 → lane (v s) k = f k) :
    GivesLanes i s d (BitVec.allOnes 64) f := by
  refine ⟨v s, fun k hk => ?_, givesV_of_retireV run⟩
  rw [BitVec.getLsbD_allOnes, if_pos (decide_eq_true hk), lanes k hk]

/-! Integer lanes (R147) -/

theorem shamtW_eq_toNat (x : Word) : shamtW x = (x.extractLsb' 0 5).toNat := field_eq_toNat x 4 0

/-- A shift with sign fill divides the signed value, rounding down, at every width. -/
theorem sshiftRight_eq_ofInt_ediv {w : Nat} (x : BitVec w) (n : Nat) : x.sshiftRight n = BitVec.ofInt w (x.toInt / 2 ^ n) := by
  rw [BitVec.sshiftRight_eq, Int.shiftRight_eq_div_pow]
  norm_cast

theorem smaller_eq_ofInt_min {w : Nat} (x y : BitVec w) : (if x.slt y then x else y) = BitVec.ofInt w (min x.toInt y.toInt) := by
  rw [min_def_lt, apply_ite (BitVec.ofInt w), BitVec.ofInt_toInt, BitVec.ofInt_toInt]
  exact if_congr BitVec.slt_iff_toInt_lt rfl rfl

theorem larger_eq_ofInt_max {w : Nat} (x y : BitVec w) : (if y.slt x then x else y) = BitVec.ofInt w (max x.toInt y.toInt) := by
  rw [max_comm, max_def_lt, apply_ite (BitVec.ofInt w), BitVec.ofInt_toInt, BitVec.ofInt_toInt]
  exact if_congr BitVec.slt_iff_toInt_lt rfl rfl

/-- Settles O12: each operation writes the active lanes with its function of the operands' lanes. -/
theorem laneIntegerResults : Obligations.LaneIntegerResults := by
  unfold Obligations.LaneIntegerResults
  intro s d a b mr m A B sh
  have amount (k : Nat) : shamtW (B k) = (sh k).toNat := shamtW_eq_toNat (B k)
  exact ⟨givesLanes_of_vop2 (exec_vaddI d a b mr s) fun _ => rfl, givesLanes_of_vop2 (exec_vsubI d a b mr s) fun _ => rfl,
    givesLanes_of_vop2 (exec_vmulI d a b mr s) fun _ => rfl, givesLanes_of_vop2 (exec_vand d a b mr s) fun _ => rfl,
    givesLanes_of_vop2 (exec_vor d a b mr s) fun _ => rfl, givesLanes_of_vop2 (exec_vxor d a b mr s) fun _ => rfl,
    givesLanes_of_vop2 (exec_vsll d a b mr s) fun k => congrArg (A k <<< ·) (amount k),
    givesLanes_of_vop2 (exec_vsrl d a b mr s) fun k => congrArg (A k >>> ·) (amount k),
    givesLanes_of_vop2 (exec_vsra d a b mr s) fun k => amount k ▸ sshiftRight_eq_ofInt_ediv (A k) (shamtW (B k)),
    givesLanes_of_vop2 (exec_vminI d a b mr s) fun k => smaller_eq_ofInt_min (A k) (B k),
    givesLanes_of_vop2 (exec_vmaxI d a b mr s) fun k => larger_eq_ofInt_max (A k) (B k)⟩

/-! Lanes of a register given by a list -/

theorem map_getD_range {α : Type*} (l : List α) (x : α) {n : Nat} (h : l.length ≤ n) :
    (List.range n).map (l.getD · x) = l ++ List.replicate (n - l.length) x := by
  apply List.ext_getElem (by simp [h])
  intro k _ _
  rw [List.getElem_map, List.getElem_range, List.getElem_append]
  split
  case isTrue inside => exact List.getD_eq_getElem _ _ inside
  case isFalse outside => rw [List.getElem_replicate, List.getD_eq_default _ _ (Nat.not_lt.mp outside)]

/-- Lanes of +0 after the last of the list change no bit of the register. -/
theorem vregOfLanes_append_zeros (l : List Word) (n : Nat) : vregOfLanes (l ++ List.replicate n 0) = vregOfLanes l := by
  have zeros : (List.replicate n (0 : Word)).foldr (fun x acc => x.toNat + 2 ^ 32 * acc) 0 = 0 := by
    induction n with
    | zero => rfl
    | succ n ih =>
      rw [List.replicate_succ, List.foldr_cons, ih]
      rfl
  rw [vregOfLanes, vregOfLanes, List.foldr_append, zeros]

/-- Lane i is the list's i-th word, and +0 where the list has none. -/
theorem lane_vregOfLanes {l : List Word} (h : l.length ≤ 64) {i : Nat} (hi : i < 64) : lane (vregOfLanes l) i = l.getD i 0 := by
  have whole : vregOfLanes l = buildLanes (l.getD · 0) := by
    rw [buildLanes, map_getD_range l 0 h, vregOfLanes_append_zeros]
  rw [whole, lane_buildLanes _ i hi]

/-! Active lanes in ascending order (R155) -/

theorem below_eq_bitsBelow (m : Dword) (k : Nat) : below m k = bitsBelow m k := List.countP_eq_length_filter.symm

theorem length_activeLanes (m : Dword) (v : VReg) : (activeLanes m v).length = bitsBelow m 64 := by
  rw [activeLanes, List.length_map, bitsBelow, List.countP_eq_length_filter]

theorem bitsBelow_le (m : Dword) (k : Nat) : bitsBelow m k ≤ k :=
  List.countP_le_length.trans_eq List.length_range

/-- An active lane k stands behind the active lanes below it. -/
theorem activeLanes_eq_append {m : Dword} (v : VReg) {k : Nat} (hk : k < 64) (active : m.getLsbD k = true) :
    ∃ above, activeLanes m v = ((List.range k).filter (fun j => m.getLsbD j)).map (lane v) ++ lane v k :: above := by
  have split : List.range 64 = List.range k ++ k :: (List.range (63 - k)).map (k + 1 + ·) := by
    rw [show 64 = k + 1 + (63 - k) by omega, List.range_add, List.range_succ, List.append_assoc]
    simp
  rw [activeLanes, split, List.filter_append, List.filter_cons_of_pos active, List.map_append, List.map_cons]
  exact ⟨_, rfl⟩

theorem getD_activeLanes {m : Dword} (v : VReg) {k : Nat} (hk : k < 64) (active : m.getLsbD k = true) :
    (activeLanes m v).getD (bitsBelow m k) 0 = lane v k := by
  obtain ⟨above, split⟩ := activeLanes_eq_append v hk active
  have place : (((List.range k).filter (fun j => m.getLsbD j)).map (lane v)).length = bitsBelow m k := by
    rw [List.length_map, bitsBelow, List.countP_eq_length_filter]
  rw [split, ← place, List.getD_append_right _ _ _ _ le_rfl, Nat.sub_self, List.getD_cons_zero]

/-! Moves of lanes (R148, R152, R155) -/

theorem vextResult (s : State) (d a b : BitVec 5) :
    GivesG (.vext d a b) s d ((lane (s.vreg a) ((s.reg b).extractLsb' 0 6).toNat).zeroExtend 64) := by
  rw [← field_eq_toNat (s.reg b) 5 0]
  exact givesG_of_retire (v := fun s => zext (lane (s.vreg a) (field (s.reg b) 5 0))) (exec_vext d a b s)

theorem viotaResult (s : State) (d : BitVec 5) (mr : BitVec 3) :
    GivesLanes (.viota d mr) s d (BitVec.allOnes 64) (fun k => BitVec.ofNat 32 (bitsBelow (s.mask mr) k)) := by
  refine givesLanes_of_retireV (v := fun s => buildLanes (fun i => BitVec.ofNat 32 (below (s.mask mr) i))) (exec_viota d mr s) ?_
  intro k hk
  rw [lane_buildLanes _ k hk, below_eq_bitsBelow]

theorem vcompressResult (s : State) (d a : BitVec 5) (mr : BitVec 3) :
    GivesLanes (.vcompress d a mr) s d (BitVec.allOnes 64) ((activeLanes (s.mask mr) (s.vreg a)).getD · 0) :=
  givesLanes_of_retireV (v := fun s => vregOfLanes (activeLanes (s.mask mr) (s.vreg a))) (exec_vcompress d a mr s) fun _ hk =>
    lane_vregOfLanes ((length_activeLanes _ _).trans_le (bitsBelow_le _ _)) hk

/-- Settles O14: the permuting moves by the lane they read, VCOMPRESS by the list of the active lanes. -/
theorem laneMoveResults : Obligations.LaneMoveResults := by
  unfold Obligations.LaneMoveResults
  intro s d a b mr m A B
  refine ⟨givesLanes_of_vop (exec_vbcast d a mr s) fun _ => rfl, vextResult s d a b,
    givesLanes_of_vop (exec_vperm d a b mr s) fun k => congrArg A (field_eq_toNat (B k) 5 0), viotaResult s d mr,
    givesLanes_of_vop (exec_vexpand d a mr s) fun k => congrArg A (below_eq_bitsBelow m k),
    givesLanes_of_retireV (v := fun s => masked (s.mask mr) (s.vreg b) (lane (s.vreg a))) (exec_vsel d a b mr s) (lane_masked m _ A),
    ((activeLanes m (s.vreg a)).getD · 0), fun k => getD_activeLanes (s.vreg a), fun k past => ?_, vcompressResult s d a mr⟩
  exact List.getD_eq_default _ _ ((length_activeLanes m _).trans_le past)

end Sys2Proof.Proofs
end
